-- ==== Sys2Proof/Word.lean ====
section
/-! DEFINITION. The words of the model: a byte of the site link or of audio DRAM, and the plainest arithmetic on
counters that hold at a limit. The 416's fields are counts, codes and identities that software never masks or
shifts, so they are natural numbers (samples: integers); only a cell of audio DRAM is a bit vector. -/

set_option autoImplicit false

namespace Sys2Proof

/-- A byte as the audio DRAM stores it. -/
abbrev Byte := BitVec 8

/-- A counter that rises by 1 and holds at `limit` (R17, R130, R187, R189, R193 and others use the shape). -/
def bumpTo (limit n : Nat) : Nat := if n < limit then n + 1 else limit

/-- `a / b` rounded up to a whole number (R26, R145, R174). -/
def ceilDiv (a b : Nat) : Nat := (a + b - 1) / b

end Sys2Proof
end

