-- ==== Sys2Proof/Config.lean ====
section
/-! DEFINITION. What the manual fixes for every part (capacities, identification codes) and the one value the manual
leaves open (an opaque constant). -/

set_option autoImplicit false

namespace Sys2Proof
namespace Config

/-- Entries of the cue table (R1). -/
abbrev cueEntries : Nat := 256
/-- Clip records (R68). -/
abbrev clipRecords : Nat := 127
/-- Clip samples held by one 4 KiB page (R68). -/
abbrev pageSamples : Nat := 2048
/-- Bytes of one page (R49). -/
abbrev pageBytes : Nat := 4096
/-- Pages of the audio DRAM (R49). -/
abbrev dramPages : Nat := 8192
/-- Pages of one delay unit (R49). -/
abbrev unitPages : Nat := 16
/-- Sample frames that one delay unit gives each screen (R49). -/
abbrev unitFrames : Nat := 2048
/-- The gain that means unity (R56). -/
abbrev unity : Nat := 32768
/-- Sample frames of an audio block (R47). -/
abbrev blockFrames : Nat := 48
/-- The largest magnitude of a 24-bit sample, that of −8,388,608 (R59). -/
abbrev loudest : Nat := 8388608
/-- Announcements a queue holds at most (R80). -/
abbrev queueRoom : Nat := 12
/-- Order records (R138). -/
abbrev orderRecords : Nat := 192
/-- Tickets a station's queue holds at most (R164). -/
abbrev stationRoom : Nat := 48
/-- Stalls of the whole site at most (R115). -/
abbrev siteStalls : Nat := 1200
/-- Notices the notice queue holds at most (R193). -/
abbrev noticeRoom : Nat := 32
/-- Requests, and busy marks, the receive buffer holds at most of each (R189). -/
abbrev requestRoom : Nat := 4
/-- Bytes of a body at most (R186, R190). -/
abbrev bodyRoom : Nat := 240
/-- The retry interval of the cue line in ms (R36). -/
abbrev backoffMs : Nat := 300
/-- The stall timer in ms (R40). -/
abbrev stallMs : Nat := 400
/-- The delay of an automatic answer in ms (R178). -/
abbrev autoAnswerMs : Nat := 50
/-- The travel time of a simulated arm in ms (R181). -/
abbrev armTravelMs : Nat := 1000
/-- The least time from a station's leaving rehearsal to a press of BUMP-s: 20 ms released, 20 ms held (R167, R183). -/
abbrev pressMs : Nat := 40
/-- Milliseconds of a day (R198). -/
abbrev dayMs : Nat := 86400000
/-- Values of the day count (R198). -/
abbrev dayCount : Nat := 65536
/-- Vendor code of HELLO (R199). -/
abbrev vendorCode : Nat := 0x46A1
/-- Part code of HELLO (R199). -/
abbrev partCode : Nat := 0x0416
/-- Silicon revision of HELLO (R199). -/
abbrev revision : Nat := 0x02

/-- FREE VALUE. The level latched for a block at whose start the player holds no announcement: R53 reads it for the
class of the announcement the player holds and states no value when it holds none (log entry 9). No body: nothing can
be proved of it but that it is a gain. The argument is the model's own counter `State.draws`. -/
opaque unlatchedLevel : Nat → Fin 32769

end Config
end Sys2Proof
end

