-- ==== Sys2Proof/Syntax.lean ====
section
/-! DEFINITION. The commands of the 416: one constructor of `Instr` per row of spec/opcode_table.json.

A REQUEST row is a checked frame of its kind (R186, R195): its first operand is the frame's `tag`, the others are the
fields of its body as numbers, in the order the rule lists them and as R196 and R197 encode them (a code is the code
byte, 0 an absent optional identity). Codes and ranges are judged by the meaning, since a bad code or value is
answered BAD_VALUE.

An EVENT row is a moment the manual describes: a timer that runs out, a level on a line, an audio frame. Its operands
say which unit it happens to, with what arrives on the line. -/

set_option autoImplicit false

namespace Sys2Proof

/-- Screens 1 to 4, numbered from 0. -/
abbrev Screen := Fin 4
/-- Entry lanes E1 to E6, numbered from 0. -/
abbrev EntryId := Fin 6
/-- Exit lanes X1 and X2, numbered from 0. -/
abbrev ExitId := Fin 2
/-- Kitchen stations S1 to S4, numbered from 0. -/
abbrev StationId := Fin 4

/-- A character received on CRX-n (R29): its eight bits, and whether its stop bit was found at the space level. -/
structure CueChar where
  byte : Nat
  framingError : Bool := false
  deriving DecidableEq, Repr

/-- One sample frame: a left and a right sample, 24-bit signed (R47). -/
structure StereoFrame where
  left : Int
  right : Int
  deriving DecidableEq, Repr

/-- A silent sample frame (R47). -/
def StereoFrame.zero : StereoFrame := { left := 0, right := 0 }

/-- A loop input (R93). -/
inductive LoopId where
  | arrive (k : EntryId)
  | clear (k : EntryId)
  | exit (j : ExitId)
  deriving DecidableEq, Repr

/-- A line of an order: item class and quantity (R138). -/
structure OrderLine where
  item : Nat
  quantity : Nat
  deriving DecidableEq, Repr

/-- The commands. -/
inductive Instr where
  -- site link, clock and resets
  | powerOnReset (baud1 baud0 : Bool)
  | hello (tag : Nat)
  | siteStatus (tag clear : Nat)
  | siteReset (tag : Nat)
  | siteResetTakesEffect
  | timeSet (tag day ms : Nat)
  | noticeMask (tag mask : Nat)
  | unknownKind (kind tag : Nat) (body : List Nat)
  | linkBusyMark (kind tag : Nat)
  | receiveFrameDiscarded (bytes : List Nat)
  | frameGapTimeout
  | lineBreak
  | transmitFrameEnd
  | wholeSecond
  | expirySweep
  | lateWindowEnd (n : Screen)
  -- show control
  | cueWrite (tag index kind content length phaseTag flags startClip : Nat)
  | cueRead (tag index : Nat)
  | showLoad (tag screen showId start count rate policy mode day ms : Nat)
  | showStart (tag screen : Nat)
  | showStartTimeReached (n : Screen)
  | holdExpired (n : Screen)
  | showNext (tag screen : Nat)
  | showAbort (tag screen : Nat)
  | showRelease (tag screen : Nat)
  | showPromote (tag screen : Nat)
  | screenStatus (tag screen : Nat)
  | screenReset (tag screen : Nat)
  | phasePolicySetRow (tag phase adm intake allowed duck : Nat)
  | phasePolicySetLimits (tag maxHold lateLimit : Nat)
  | framePulse (n : Screen)
  | pictureStall (n : Screen)
  | timebaseFrame (n : Screen)
  | skipTimebaseFrame (n : Screen)
  | holdEntryElapsed (n : Screen)
  | cueLineSet (tag screen timeout retries : Nat)
  | faultRead (tag screen : Nat)
  | faultClear (tag screen : Nat)
  | projectorPass (tag screen verb content quiet : Nat)
  | verbLineSent (n : Screen)
  | cueLineReceived (n : Screen) (chars : List CueChar)
  | answerTimeout (n : Screen)
  | backoffEnd (n : Screen)
  -- sound
  | sampleFrame (pgm1 pgm2 pgm3 pgm4 : StereoFrame)
  | blockStart
  | blockEnd
  | mixSet (tag screen delay fade duck release silence hot limit : Nat)
  | partitionSet (tag units : Nat)
  | levelRead (tag screen clear : Nat)
  | monitorSelect (tag selection : Nat)
  | clipBegin (tag id length : Nat)
  | clipData (tag id offset : Nat) (samples : List Int)
  | clipEnd (tag id crc : Nat)
  | clipFree (tag id : Nat)
  | clipList (tag first : Nat)
  | callClipsSet (tag preamble postamble : Nat) (digits : List Nat)
  | callClipsUnconfigure (tag : Nat)
  | classSetRow (tag cls priority level maxWait : Nat)
  | classSetGap (tag gap : Nat)
  | routeSet (tag cls screens : Nat)
  | announce (tag screen cls : Nat) (clips : List Nat)
  | announceCancel (tag id : Nat)
  | queueRead (tag screen first : Nat)
  | announcementExpiry (id : Nat)
  | gapEnd (n : Screen)
  -- lanes and lot
  | laneSet (tag lane map debounce armTimeout passTimeout : Nat)
  | laneOpen (tag lane : Nat)
  | laneClose (tag lane : Nat)
  | admitCar (tag lane screen : Nat) (stall : Option (Nat × Nat)) (party : Nat)
  | refuse (tag lane : Nat)
  | attendantPass (tag lane : Nat)
  | loopRawChange (loop : LoopId) (occupied : Bool)
  | arriveSettles (k : EntryId)
  | clearSettles (k : EntryId)
  | exitSettles (j : ExitId)
  | armupAsserted (k : EntryId) (level : Bool)
  | armdnAsserted (k : EntryId) (level : Bool)
  | armTimeout (k : EntryId)
  | passTimeout (k : EntryId)
  | lotConfigLayout (tag screen rows : Nat) (counts fill : List Nat) (capacity : Nat)
  | lotConfigCapacity (tag screen capacity : Nat)
  | stallRead (tag form screen row position : Nat)
  | stallBlock (tag screen row position : Nat)
  | stallUnblock (tag screen row position : Nat)
  | depart (tag screen row position : Nat)
  | sweep (tag screen : Nat)
  | countersRead (tag lane clear : Nat)
  -- orders and kitchen
  | itemClassSet (tag item station base perUnit : Nat)
  | stationSet (tag station opened slots maxWait : Nat)
  | orderPlace (tag screen row position mode : Nat) (lines : List OrderLine)
  | orderCancel (tag number : Nat)
  | orderCollect (tag number : Nat)
  | orderDelivered (tag number : Nat)
  | callRepeatDue (number : Nat)
  | bump (tag number station : Nat)
  | buttonBump (st : StationId)
  | orderRead (tag form number : Nat)
  | stationRead (tag station first : Nat)
  | orderPolicySet (tag lead margin repeats interval limit : Nat)
  -- rehearsal
  | rehearse (tag unit setting : Nat) (auto : Option Nat)
  | injectAnswer (tag screen answer sequence : Nat)
  | autoAnswer (n : Screen)
  | injectEnded (tag screen content : Nat)
  | injectStall (tag screen : Nat)
  | injectResume (tag screen : Nat)
  | generatedFramePulse (n : Screen)
  | injectLoop (tag lane loop level : Nat)
  | injectJam (tag lane action : Nat)
  | simulatedArmTravelEnd (k : EntryId)
  | injectBump (tag station : Nat)
  | startByteReceived
  deriving DecidableEq, Repr

end Sys2Proof
end

