-- ==== Sys2Proof/Machine/State.lean ====
section
/-! DEFINITION. The state of the 416, as plain data: every piece of state the manual gives its fourteen blocks, the
queue of waiting commands, and the values all of it has after power-on reset (`State.reset`). Beside the State: the
closed types `Fault` and `Refusal`.

`House` gathers the blocks that act on one another inside one step (shows, cue lines, announcements, lot, orders,
stations, the notice queue and the clock); the lanes, the audio channels, the audio DRAM and the receive side of the
site link stand beside it in `State`. -/

set_option autoImplicit false

namespace Sys2Proof
namespace Machine

/-! ### Site time -/

/-- Site time: a day count 0–65,535 and milliseconds of the day 0–86,399,999 (R198). -/
structure SiteTime where
  day : Nat
  ms : Nat
  deriving DecidableEq, Repr

/-! ### Site link -/

/-- Status codes (R191). -/
inductive Status where
  | ok | badKind | badLength | badValue | badState | inUse | full | closed | taken | notFound | busy | limit
  | noVehicle | notPresent | stationFull | alreadyDone | notReady | linkBusy
  deriving DecidableEq, Repr

/-- A field of a body: its width in bytes and its value (R196, R197). -/
structure Field where
  width : Nat
  value : Nat
  deriving DecidableEq, Repr

/-- A filled-in reply: its status code, its flag byte and the fields after them (R190). -/
structure Reply where
  status : Status
  flags : Nat
  fields : List Field
  deriving DecidableEq, Repr

/-- Notice subkinds, in the order of R193's table read down the columns (the order of the mask bits, R194). -/
inductive Subkind where
  | showStarted | entryStarted | showDone | screenFault | holdExpired | passResult | announceStarted
  | announceDone | announceDropped | announceExpired | levelAlert | vehicleWaiting | passed | backout
  | lapse | tailgate | unpaidCrossing | armFault | laneClosed | lotFull | lotOpen | orderState
  deriving DecidableEq, Repr

/-- A notice: its subkind, the site time of its event and its fields (R193). -/
structure Notice where
  kind : Subkind
  time : SiteTime
  fields : List Field
  deriving DecidableEq, Repr

/-- What SLTX is sending: nothing, the reply at the head of the reply order, or a notice that has left its queue
(R192, R193). -/
inductive Transmit where
  | idle
  | reply
  | notice (n : Notice)
  deriving DecidableEq, Repr

/-- The notice side of the Site Link Interface and its transmitter (R192 to R194). `mask` bit i switches on the
subkind in place i. -/
structure Outbox where
  mask : Nat
  notices : List Notice
  noticeLost : Bool
  lostCount : Nat
  tx : Transmit
  deriving DecidableEq, Repr

/-- The receive framer (R187). The bytes of a frame under collection come with the command that ends it. -/
inductive Framer where
  | hunting
  | collecting
  deriving DecidableEq, Repr

/-- A place of the reply order: a request frame or a busy mark, with its reply once filled in (R189, R190).
`siteReset` marks a taken SITE RESET, whose last reply byte brings the reset (R201). -/
structure LinkEntry where
  kind : Nat
  tag : Nat
  busy : Bool
  siteReset : Bool
  reply : Option Reply
  deriving DecidableEq, Repr

/-- The receive side of the Site Link Interface (R185, R187, R189, R201). `rate` is the code 0–3 of R185.
`resetTaken` is set from the taking of a SITE RESET until it takes effect. -/
structure Link where
  rate : Nat
  framer : Framer
  buffer : List LinkEntry
  resetTaken : Bool
  linkErrors : Nat
  busyCount : Nat
  deriving DecidableEq, Repr

/-! ### Shows -/

/-- Kinds of a cue entry (R1). -/
inductive EntryKind where
  | empty | play | skip | hold
  deriving DecidableEq, Repr

/-- Phase tags of a cue entry (R1). -/
inductive PhaseTag where
  | preshow | feature | break | closing
  deriving DecidableEq, Repr

/-- Phases of a screen (R23). -/
inductive Phase where
  | dark | gather | preshow | feature | break | closing
  deriving DecidableEq, Repr

/-- A cue entry (R1). `content` and `startClip` are 0 when absent. -/
structure CueEntry where
  kind : EntryKind
  content : Nat
  length : Nat
  tag : PhaseTag
  last : Bool
  laneHold : Bool
  startClip : Nat
  deriving DecidableEq, Repr

/-- The empty cue entry; its other fields are not meaningful (R1) and read as absent (log entry 10). -/
def CueEntry.blank : CueEntry :=
  { kind := .empty, content := 0, length := 0, tag := .preshow, last := false, laneHold := false, startClip := 0 }

/-- Fault policies (R4). -/
inductive FaultPolicy where
  | stopOnFault | runThrough
  deriving DecidableEq, Repr

/-- Start modes (R4). -/
inductive StartMode where
  | atTime (t : SiteTime)
  | onCommand
  deriving DecidableEq, Repr

/-- A show descriptor (R4). -/
structure ShowDesc where
  showId : Nat
  start : Nat
  count : Nat
  rate : Nat
  policy : FaultPolicy
  mode : StartMode
  deriving DecidableEq, Repr

/-- Causes of a show fault (R18). -/
inductive Cause where
  | cueNoAnswer | cueRefused | pictureStall | earlyEnd | programmeSilent
  deriving DecidableEq, Repr

/-- Outcomes of a show (R7). -/
inductive ShowOutcome where
  | none | complete | completeWithFaults | stopped | aborted
  deriving DecidableEq, Repr

/-- The show record (R7). -/
structure ShowRecord where
  showId : Nat
  current : Option Nat
  progress : Nat
  completed : Nat
  faults : Nat
  firstCause : Option Cause
  laneHoldSecs : Nat
  lateStart : Nat
  featureStart : Option SiteTime
  clipsDropped : Nat
  outcome : ShowOutcome
  deriving DecidableEq, Repr

/-- A zeroed record (R7). -/
def ShowRecord.zeroed (showId : Nat) : ShowRecord :=
  { showId := showId, current := none, progress := 0, completed := 0, faults := 0, firstCause := none,
    laneHoldSecs := 0, lateStart := 0, featureStart := none, clipsDropped := 0, outcome := .none }

/-- Screen states (section 1.4). -/
inductive ScreenState where
  | idle | armed | laneWait | showing | stopping | held
  deriving DecidableEq, Repr

/-- Frame counting of a PLAY (R40). -/
inductive Counting where
  | off | pulses | timebase
  deriving DecidableEq, Repr

/-- One screen's Show Controller, with the screen's rehearsal settings (chapters 1 and 10).
`finalHalt`: the entries are finished and the show waits for an H (R15). `stopAbort`: a SHOW ABORT brought or met
STOPPING (R19, R20). `stopHaltEnded`: the single H of STOPPING has ended (R19). `silentRaised`: PROGRAMME_SILENT has
been raised in the current entry (R18). `stallTimer`: ms left. `timebase`: thousandths of a frame gathered since the
last timebase frame (R13, R40). `holdElapsed`: ms of a HOLD entry (R13). `waitLeft`, `waitSpent`: the hold timer of
LANE_WAIT and the ms spent there (R11). `generator`: the frame pulse generator when it runs, thousandths of a frame
gathered since its last pulse (R179). -/
structure ShowCtl where
  state : ScreenState
  running : Option ShowDesc
  waiting : Option ShowDesc
  record : ShowRecord
  halted : Bool
  finalHalt : Bool
  stopAbort : Bool
  stopHaltEnded : Bool
  silentRaised : Bool
  counting : Counting
  stallTimer : Option Nat
  timebase : Nat
  holdElapsed : Nat
  waitLeft : Option Nat
  waitSpent : Nat
  countdown : Option Nat
  rehearsal : Bool
  autoAnswer : Bool
  stallMark : Bool
  generator : Option Nat
  deriving DecidableEq, Repr

/-- Admit settings of a phase row (R24). -/
inductive Admit where
  | open | closed | late
  deriving DecidableEq, Repr

/-- Order intake settings of a phase row (R24). -/
inductive Intake where
  | open | defer | closed
  deriving DecidableEq, Repr

/-- Announcement classes (R76). -/
inductive AnnClass where
  | safety | show | orderCall | manual | promo
  deriving DecidableEq, Repr

/-- A row of the phase policy table (R24). -/
structure PolicyRow where
  admission : Admit
  intake : Intake
  allowed : List AnnClass
  duck : Nat
  deriving DecidableEq, Repr

/-! ### Cue lines -/

/-- Verbs of the cue line (R30). -/
inductive Verb where
  | l | g | h | q
  deriving DecidableEq, Repr

/-- A request for an exchange: a verb and, for L, a content id (R34). -/
structure CueRequest where
  verb : Verb
  content : Nat
  deriving DecidableEq, Repr

/-- An exchange (R34, R44). `pass`: asked for by PROJECTOR PASS, with its quiet flag. `firstSeq`: the number of its
first attempt; `seq`: of its latest. `used`: attempts made. `allowed`, `timeout`: as in force at its first attempt
(R32). -/
structure Exchange where
  pass : Bool
  quiet : Bool
  verb : Verb
  content : Nat
  firstSeq : Nat
  seq : Nat
  used : Nat
  allowed : Nat
  timeout : Nat
  deriving DecidableEq, Repr

/-- The Cue Line Unit: QUIET, an attempt whose verb line is still going out, AWAIT with the answer timer's ms left, or
BACKOFF with the retry interval's ms left (R34 to R36). -/
inductive CueUnit where
  | quiet
  | sending (x : Exchange)
  | await (x : Exchange) (left : Nat)
  | backoff (x : Exchange) (left : Nat)
  deriving DecidableEq, Repr

/-- A verb line on CTX-n: its verb, content id and sequence digit (R30). -/
structure VerbLine where
  verb : Verb
  content : Nat
  seq : Nat
  deriving DecidableEq, Repr

/-- Causes of a cue-line fault record (R42). -/
inductive LineCause where
  | refused | garbledLast | noAnswer
  deriving DecidableEq, Repr

/-- The latched cue-line fault record when filled (R42). -/
structure LineFault where
  verb : Verb
  content : Nat
  entry : Option Nat
  cause : LineCause
  attempts : Nat
  time : SiteTime
  further : Bool
  deriving DecidableEq, Repr

/-- The line under construction (R29): the characters kept, whether one of them makes it garbled, and whether more
than 16 came. -/
structure RxLine where
  chars : List Nat
  bad : Bool
  overlong : Bool
  deriving DecidableEq, Repr

/-- An empty line under construction. -/
def RxLine.blank : RxLine := { chars := [], bad := false, overlong := false }

/-- One screen's Cue Line Unit (chapter 2). `sendingLines`: the verb lines on CTX-n, the one being sent first; an
abandoned attempt's line finishes sending ahead of a later one (R38). `autoDue`: the automatic answer of R178, its
number and the ms left. -/
structure CueLine where
  answerTimeout : Nat
  retries : Nat
  seq : Nat
  unit : CueUnit
  waitingPlace : Option CueRequest
  sendingLines : List VerbLine
  fault : Option LineFault
  rx : RxLine
  autoDue : Option (Nat × Nat)
  deriving DecidableEq, Repr

/-! ### Programme mix and audio memory -/

/-- The part of a screen's mix that other blocks read or reset: the programme gain gp (R57) and the silence run with
its report mark (R61, R62). -/
structure Gain where
  gp : Nat
  silenceRun : Nat
  reported : Bool
  deriving DecidableEq, Repr

/-- The seven mix settings (R52). -/
structure MixSettings where
  delay : Nat
  fade : Nat
  duck : Nat
  release : Nat
  silence : Nat
  hot : Nat
  limit : Nat
  deriving DecidableEq, Repr

/-- The settings of R52 after power-on reset and SITE RESET. -/
def MixSettings.initial : MixSettings :=
  { delay := 0, fade := 64, duck := 512, release := 512, silence := 2048, hot := 7500000, limit := 10 }

/-- A reset of a channel pair that acts at the next block start (R66, R67): SCREEN RESET, SITE RESET, or a SCREEN
RESET taken while a SITE RESET still waits. -/
inductive StagedReset where
  | screen | site | both
  deriving DecidableEq, Repr

/-- What a clip that a SITE RESET cuts off still supplies to the block in progress: its pages, its length and its next
sample (R67, log entry 31). -/
structure ClipTail where
  pages : List Nat
  length : Nat
  sample : Nat
  deriving DecidableEq, Repr

/-- One screen's channel pair (chapter 3). `staged…`: what takes effect at the next block start (R48). `tail`: the
clip input that the block in progress keeps through a SITE RESET (R67). `target`: the gain target chosen for the block (R56). `level`: the announcement level latched for the block (R53). `line`: the delay
line, newest frame first, back to its last zeroing and at most C frames (R50). `inFrames`, `outFrames`: the block
received and the block mixed and not yet sent (R47), oldest first. `fmx`: the frame on FMX-n. `peakIn`, `peakOut`,
`clips`: the block under way (R55, R59). `silent` to `lastClips`: the last block (R59). `summary`: the clip summary
(R60). -/
structure Channel where
  settings : MixSettings
  staged : Option MixSettings
  stagedReset : Option StagedReset
  stagedZero : Bool
  tail : Option ClipTail
  target : Nat
  level : Nat
  residueL : Int
  residueR : Int
  line : List StereoFrame
  inFrames : List StereoFrame
  outFrames : List StereoFrame
  fmx : StereoFrame
  peakIn : Nat
  peakOut : Nat
  clips : Nat
  silent : Bool
  hot : Bool
  clipped : Bool
  lastClips : Nat
  summary : Bool
  deriving DecidableEq, Repr

/-- The audio DRAM's clip bytes: address and byte, addresses strictly rising, no byte 0 listed. An unlisted address
reads 0, as a clip sample never written counts (R69). -/
abbrev Memory := List Host.Cell

/-- States of a clip record (R68). -/
inductive ClipState where
  | empty | loading | ready | bad
  deriving DecidableEq, Repr

/-- A clip record (R68). Length 0 is absent. The page map of R49 is the view of these page lists. -/
structure ClipRec where
  state : ClipState
  length : Nat
  pages : List Nat
  refs : Nat
  deriving DecidableEq, Repr

/-- An EMPTY clip record (R68). -/
def ClipRec.blank : ClipRec := { state := .empty, length := 0, pages := [], refs := 0 }

/-- The call-clip configuration when configured (R75): preamble, postamble (0 absent), ten digits. -/
structure CallClips where
  preamble : Nat
  postamble : Nat
  digits : List Nat
  deriving DecidableEq, Repr

/-! ### Announcements -/

/-- Origins of an announcement (R76); an order call carries its order's number. -/
inductive Origin where
  | manual
  | show
  | order (number : Nat)
  deriving DecidableEq, Repr

/-- An announcement record (R76). Its screen is the one whose queue holds it. -/
structure Ann where
  id : Nat
  cls : AnnClass
  priority : Nat
  clips : List Nat
  origin : Origin
  enqueued : SiteTime
  wait : Nat
  position : Nat
  removed : Bool
  deriving DecidableEq, Repr

/-- A row of the class table (R77). -/
structure ClassRow where
  priority : Nat
  level : Nat
  maxWait : Nat
  deriving DecidableEq, Repr

/-- Player states (section 4.4). -/
inductive PlayerState where
  | idle | ducking | playing | gap | release
  deriving DecidableEq, Repr

/-- A screen's player: its state, the id of the announcement it holds, the next sample of the clip playing and the
frames left of a GAP (R86 to R89). -/
structure Player where
  state : PlayerState
  held : Option Nat
  sample : Nat
  gapLeft : Nat
  deriving DecidableEq, Repr

/-- A player in IDLE. -/
def Player.quiet : Player := { state := .idle, held := none, sample := 0, gapLeft := 0 }

/-! ### Lot -/

/-- States of a stall inside its screen's layout (R114); every other stall is UNUSED. -/
inductive StallState where
  | free | assigned | admitted | blocked
  deriving DecidableEq, Repr

/-- A stall record (R114). The party tag is 0 when absent. -/
structure Stall where
  state : StallState
  party : Nat
  lane : Option EntryId
  admitTime : Option SiteTime
  openOrders : Nat
  deriving DecidableEq, Repr

/-- A FREE stall (R114). -/
def Stall.vacant : Stall := { state := .free, party := 0, lane := none, admitTime := none, openOrders := 0 }

/-- One screen's lot (R114, R115, R118, R119). `rows`: the stalls of each row; a row's stall count is its length, and
no rows means unconfigured. `admission`: the admission state last published, set when OPEN. -/
structure Lot where
  rows : List (List Stall)
  fill : List Nat
  capacity : Nat
  full : Bool
  admission : Bool
  deriving DecidableEq, Repr

/-! ### Orders and stations -/

/-- Modes of an order (R138). -/
inductive OrderMode where
  | pickup | runner
  deriving DecidableEq, Repr

/-- States of an order in the table (R138). -/
inductive OrderState where
  | deferred | queued | cooking | ready | called
  deriving DecidableEq, Repr

/-- Terminal outcomes of an order (R138). -/
inductive OrderOutcome where
  | collected | delivered | expired | canceled
  deriving DecidableEq, Repr

/-- Reasons carried by a terminal ORDER_STATE notice (R153). -/
inductive EndReason where
  | none | request | stallLeft
  deriving DecidableEq, Repr

/-- An order record (R138). The party tag is 0 when absent. `tickets` names the stations of its tickets. `call` is the
announcement id of its current call, on the queue of its own screen; `due` the ms until the next call. -/
structure Order where
  number : Nat
  screen : Screen
  row : Nat
  position : Nat
  party : Nat
  mode : OrderMode
  placed : SiteTime
  sequence : Nat
  promised : Option SiteTime
  lines : List OrderLine
  tickets : List StationId
  state : OrderState
  ready : Option SiteTime
  made : Nat
  remaining : Nat
  call : Option Nat
  due : Option Nat
  age : Nat
  late : Bool
  callWaiting : Bool
  notCalled : Bool
  deriving DecidableEq, Repr

/-- The order policy (R139). -/
structure OrderPolicy where
  lead : Nat
  margin : Nat
  repeats : Nat
  interval : Nat
  limit : Nat
  deriving DecidableEq, Repr

/-- A configured row of the item class table (R161). -/
structure ItemClass where
  station : StationId
  base : Nat
  perUnit : Nat
  deriving DecidableEq, Repr

/-- Ticket states (R163). -/
inductive TicketState where
  | queued | cooking | done | void
  deriving DecidableEq, Repr

/-- A ticket (R163). Its station is the one whose queue holds it. `elapsed` is in ms. -/
structure Ticket where
  order : Nat
  lines : List OrderLine
  prep : Nat
  state : TicketState
  joined : Nat
  cooked : Option Nat
  cookStart : Option SiteTime
  elapsed : Nat
  deriving DecidableEq, Repr

/-- A kitchen station: its settings, its queue in join order, its rehearsal flag (R162, R164, R177). `pressWait`: after
it leaves rehearsal, the ms in which BUMP-s cannot yet give a press (R183, log entry 32). -/
structure Station where
  opened : Bool
  slots : Nat
  maxWait : Nat
  queue : List Ticket
  rehearsal : Bool
  pressWait : Nat
  deriving DecidableEq, Repr

/-! ### Lanes -/

/-- Entry lane states (section 5.4). -/
inductive LaneState where
  | closed | idle | waiting | raising | passing | lowering | jammed
  deriving DecidableEq, Repr

/-- A loop input (R94): its raw level, the level injected in its place in rehearsal, its debounced state (true is
OCCUPIED) and its settling timer's ms left. -/
structure Loop where
  raw : Bool
  injected : Bool
  occupied : Bool
  timer : Option Nat
  deriving DecidableEq, Repr

/-- A grant in flight (R97). The party tag is 0 when absent. -/
structure Grant where
  screen : Screen
  row : Nat
  position : Nat
  party : Nat
  time : SiteTime
  seen : Bool
  deriving DecidableEq, Repr

/-- The settings of an entry lane (R95): its map (none is SHARED), debounce time in ms, timeouts in seconds. -/
structure LaneSettings where
  map : Option Screen
  debounce : Nat
  armTimeout : Nat
  passTimeout : Nat
  deriving DecidableEq, Repr

/-- The defaults of R95. -/
def LaneSettings.initial : LaneSettings := { map := none, debounce := 150, armTimeout := 4, passTimeout := 60 }

/-- Positions of a simulated arm (R181). -/
inductive ArmPosition where
  | down | rising | up | falling
  deriving DecidableEq, Repr

/-- The simulated arm and raise output of a rehearsing lane (R180, R181). `travel`: ms left of its travel. -/
structure SimArm where
  position : ArmPosition
  held : Bool
  raise : Bool
  travel : Option Nat
  deriving DecidableEq, Repr

/-- The simulated arm on entering rehearsal (R180). -/
def SimArm.initial : SimArm := { position := .down, held := false, raise := false, travel := none }

/-- The counters of an entry lane (R130). A counter's saturated flag is the view that it stands at 65,535. -/
structure Counters where
  arrivals : Nat
  grants : Nat
  admitted : Nat
  attendant : Nat
  backouts : Nat
  lapses : Nat
  tailgates : Nat
  refusals : Nat
  leftUnpaid : Nat
  unpaid : Nat
  armFaults : Nat
  clearedAt : Option SiteTime
  deriving DecidableEq, Repr

/-- Counters never cleared (R137). -/
def Counters.zero : Counters :=
  { arrivals := 0, grants := 0, admitted := 0, attendant := 0, backouts := 0, lapses := 0, tailgates := 0,
    refusals := 0, leftUnpaid := 0, unpaid := 0, armFaults := 0, clearedAt := none }

/-- An entry lane (chapter 5): its state, marks, grant, settings, inputs, raise demand, RAISE-k, timers, counters and
rehearsal (chapters 7 and 10). -/
structure EntryLane where
  state : LaneState
  closePending : Bool
  refused : Bool
  grant : Option Grant
  settings : LaneSettings
  arrive : Loop
  clear : Loop
  armUp : Bool
  armDn : Bool
  demand : Bool
  raise : Bool
  armTimer : Option Nat
  passTimer : Option Nat
  counters : Counters
  rehearsal : Bool
  sim : SimArm
  deriving DecidableEq, Repr

/-- An exit lane (R95, R112, R130). -/
structure ExitLane where
  debounce : Nat
  loop : Loop
  noted : Bool
  exits : Nat
  clearedAt : Option SiteTime
  deriving DecidableEq, Repr

/-! ### The whole machine -/

/-- The blocks that act on one another inside one step. -/
structure House where
  clock : SiteTime
  timeUnset : Bool
  out : Outbox
  cues : Vector CueEntry 256
  policy : Vector PolicyRow 6
  maxLaneHold : Nat
  lateLimit : Nat
  shows : Vector ShowCtl 4
  lines : Vector CueLine 4
  gains : Vector Gain 4
  clips : Vector ClipRec 127
  callClips : Option CallClips
  classes : Vector ClassRow 5
  gap : Nat
  routes : Vector (List Screen) 5
  nextAnn : Nat
  queues : Vector (List Ann) 4
  players : Vector Player 4
  lots : Vector Lot 4
  backlog : Vector Nat 4
  orders : List Order
  nextNumber : Nat
  nextSequence : Nat
  orderPolicy : OrderPolicy
  items : Vector (Option ItemClass) 64
  stations : Vector Station 4
  nextJoin : Nat
  nextCook : Nat
  deriving DecidableEq, Repr

/-- The state of the 416. `present`: the site's present count (R127). `units`: the partition (R49), `stagedUnits` one
that takes effect at the next block start (R51). `monitor`, `mon`: the booth monitor's selection and output (R64,
R65). `draws`: how many free values have been drawn (the MODEL's own field, log entry 9). `pending`: the commands
waiting, first in first out. -/
structure State where
  house : House
  lanes : Vector EntryLane 6
  exits : Vector ExitLane 2
  present : Nat
  channels : Vector Channel 4
  units : Nat
  stagedUnits : Option Nat
  monitor : Option Screen
  stagedMonitor : Option (Option Screen)
  mon : StereoFrame
  dram : Memory
  link : Link
  draws : Nat
  pending : List Instr
  deriving DecidableEq, Repr

/-! ### Reasons to stop -/

/-- Faults. The manual gives the part no condition that stops it, so no constructor stands here. -/
inductive Fault
  deriving DecidableEq, Repr

/-- Refusals. `notModelled` is raised by `exec`'s arm of a command without a meaning (safe); no arm raises it now. -/
inductive Refusal where
  | notModelled (mnemonic : String)
  deriving DecidableEq, Repr

/-! ### After reset -/

/-- The notice side after power-on reset and SITE RESET: empty, every switch on (R194, R203). -/
def Outbox.reset : Outbox :=
  { mask := 4194303, notices := [], noticeLost := false, lostCount := 0, tx := .idle }

/-- A Show Controller after every kind of reset (R28), outside rehearsal with auto-answer OFF (R184). -/
def ShowCtl.reset : ShowCtl :=
  { state := .idle, running := none, waiting := none, record := .zeroed 0, halted := false, finalHalt := false,
    stopAbort := false, stopHaltEnded := false, silentRaised := false, counting := .off, stallTimer := none,
    timebase := 0, holdElapsed := 0, waitLeft := none, waitSpent := 0, countdown := none, rehearsal := false,
    autoAnswer := false, stallMark := false, generator := none }

/-- A Cue Line Unit after power-on reset (R46). -/
def CueLine.reset : CueLine :=
  { answerTimeout := 500, retries := 2, seq := 0, unit := .quiet, waitingPlace := none, sendingLines := [],
    fault := none, rx := .blank, autoDue := none }

/-- The gain and silence run after every kind of reset (R67). -/
def Gain.reset : Gain := { gp := 32768, silenceRun := 0, reported := false }

/-- A channel pair after power-on reset (R67). -/
def Channel.reset : Channel :=
  { settings := .initial, staged := none, stagedReset := none, stagedZero := false, tail := none, target := 32768,
    level := 0, residueL := 0, residueR := 0, line := [], inFrames := [], outFrames := [], fmx := .zero,
    peakIn := 0, peakOut := 0, clips := 0, silent := false, hot := false, clipped := false, lastClips := 0, summary := false }

/-- All five classes (R24). -/
def allClasses : List AnnClass := [.safety, .show, .orderCall, .manual, .promo]

/-- The default phase policy (R24), in the order DARK, GATHER, PRESHOW, FEATURE, BREAK, CLOSING. -/
def defaultPolicy : Vector PolicyRow 6 :=
  #v[{ admission := .closed, intake := .closed, allowed := allClasses, duck := 8192 },
     { admission := .open, intake := .open, allowed := allClasses, duck := 8192 },
     { admission := .open, intake := .open, allowed := allClasses, duck := 8192 },
     { admission := .late, intake := .defer, allowed := [.safety], duck := 4096 },
     { admission := .open, intake := .open, allowed := allClasses, duck := 8192 },
     { admission := .closed, intake := .closed, allowed := [.safety, .orderCall, .manual], duck := 8192 }]

/-- The default class table (R77), in the order SAFETY, SHOW, ORDER_CALL, MANUAL, PROMO. -/
def defaultClasses : Vector ClassRow 5 :=
  #v[{ priority := 0, level := 29200, maxWait := 60 },
     { priority := 1, level := 29200, maxWait := 120 },
     { priority := 2, level := 29200, maxWait := 900 },
     { priority := 3, level := 29200, maxWait := 300 },
     { priority := 4, level := 29200, maxWait := 1800 }]

/-- All four screens (R78). -/
def allScreens : List Screen := [0, 1, 2, 3]

/-- An unconfigured lot (R115, R129): the full indication set, the admission state CLOSED. -/
def Lot.reset : Lot := { rows := [], fill := [], capacity := 0, full := true, admission := false }

/-- The order policy after power-on reset and SITE RESET (R139). -/
def OrderPolicy.initial : OrderPolicy := { lead := 600, margin := 60, repeats := 2, interval := 180, limit := 20 }

/-- A station after power-on reset and SITE RESET (R162, R176). -/
def Station.reset : Station := { opened := false, slots := 2, maxWait := 1200, queue := [], rehearsal := false, pressWait := 0 }

/-- A loop whose debounced state has taken its raw level (R94). -/
def Loop.settled (raw : Bool) : Loop := { raw := raw, injected := false, occupied := raw, timer := none }

/-- An entry lane after power-on reset (R113, R137), with the levels its inputs have at the end of the reset. RAISE-k
is asserted while the clear loop is OCCUPIED (R96). -/
def EntryLane.reset (arrive clear armUp armDn : Bool) : EntryLane :=
  { state := .closed, closePending := false, refused := false, grant := none, settings := .initial,
    arrive := .settled arrive, clear := .settled clear, armUp := armUp, armDn := armDn, demand := false,
    raise := clear, armTimer := none, passTimer := none, counters := .zero, rehearsal := false, sim := .initial }

/-- An exit lane after power-on reset (R113, R137). -/
def ExitLane.reset (raw : Bool) : ExitLane :=
  { debounce := 150, loop := .settled raw, noted := false, exits := 0, clearedAt := none }

/-- The Site Link Interface's receive side after power-on reset (R203). -/
def Link.reset (rate : Nat) : Link :=
  { rate := rate, framer := .hunting, buffer := [], resetTaken := false, linkErrors := 0, busyCount := 0 }

/-- The blocks of `House` after power-on reset. -/
def House.reset : House :=
  { clock := { day := 0, ms := 0 }
    timeUnset := true
    out := .reset
    cues := Vector.replicate 256 .blank
    policy := defaultPolicy
    maxLaneHold := 300
    lateLimit := 900
    shows := Vector.replicate 4 .reset
    lines := Vector.replicate 4 .reset
    gains := Vector.replicate 4 .reset
    clips := Vector.replicate 127 .blank
    callClips := none
    classes := defaultClasses
    gap := 120
    routes := Vector.replicate 5 allScreens
    nextAnn := 1
    queues := Vector.replicate 4 []
    players := Vector.replicate 4 .quiet
    lots := Vector.replicate 4 .reset
    backlog := Vector.replicate 4 0
    orders := []
    nextNumber := 1
    nextSequence := 1
    orderPolicy := .initial
    items := Vector.replicate 64 none
    stations := Vector.replicate 4 .reset
    nextJoin := 1
    nextCook := 1 }

/-- The machine right after power-on reset, with every input line low: loops VACANT, arm senses clear, BAUD pins low
(log entry 2). -/
def State.reset : State :=
  { house := .reset
    lanes := Vector.replicate 6 (.reset false false false false)
    exits := Vector.replicate 2 (.reset false)
    present := 0
    channels := Vector.replicate 4 .reset
    units := 16
    stagedUnits := none
    monitor := none
    stagedMonitor := none
    mon := .zero
    dram := []
    link := .reset 0
    draws := 0
    pending := [] }

end Machine
end Sys2Proof
end

