-- ==== Sys2Proof/Machine/Codes.lean ====
section
/-! DEFINITION. The code bytes of R191, R193 and R196: states, causes, classes and kinds as numbers, and back. Where
chapter 11 gives the codes of a field, those; otherwise the values are numbered from 1 in the order of the first list
that names them all (log entry 11 names each list). -/

set_option autoImplicit false

namespace Sys2Proof
namespace Machine

/-- Status codes (R191). -/
def Status.code : Status → Nat
  | .ok => 0x00 | .badKind => 0x01 | .badLength => 0x02 | .badValue => 0x03 | .badState => 0x04 | .inUse => 0x05
  | .full => 0x06 | .closed => 0x07 | .taken => 0x08 | .notFound => 0x09 | .busy => 0x0A | .limit => 0x0B
  | .noVehicle => 0x0C | .notPresent => 0x0D | .stationFull => 0x0E | .alreadyDone => 0x0F | .notReady => 0x10
  | .linkBusy => 0x11

/-- Subkind codes (R193). -/
def Subkind.code : Subkind → Nat
  | .showStarted => 0x01 | .entryStarted => 0x02 | .showDone => 0x03 | .screenFault => 0x04 | .holdExpired => 0x05
  | .passResult => 0x06 | .announceStarted => 0x11 | .announceDone => 0x12 | .announceDropped => 0x13
  | .announceExpired => 0x14 | .levelAlert => 0x15 | .vehicleWaiting => 0x21 | .passed => 0x22 | .backout => 0x23
  | .lapse => 0x24 | .tailgate => 0x25 | .unpaidCrossing => 0x26 | .armFault => 0x27 | .laneClosed => 0x28
  | .lotFull => 0x29 | .lotOpen => 0x2A | .orderState => 0x31

/-- The place of a subkind in R193's table read down the columns: its bit of the notice mask (R194). -/
def Subkind.bit : Subkind → Nat
  | .showStarted => 0 | .entryStarted => 1 | .showDone => 2 | .screenFault => 3 | .holdExpired => 4
  | .passResult => 5 | .announceStarted => 6 | .announceDone => 7 | .announceDropped => 8
  | .announceExpired => 9 | .levelAlert => 10 | .vehicleWaiting => 11 | .passed => 12 | .backout => 13
  | .lapse => 14 | .tailgate => 15 | .unpaidCrossing => 16 | .armFault => 17 | .laneClosed => 18
  | .lotFull => 19 | .lotOpen => 20 | .orderState => 21

/-- Kinds of a cue entry (R196). -/
def EntryKind.code : EntryKind → Nat
  | .empty => 0 | .play => 1 | .skip => 2 | .hold => 3

/-- The kind a code names (R2, R196). -/
def EntryKind.ofCode : Nat → Option EntryKind
  | 0 => some .empty | 1 => some .play | 2 => some .skip | 3 => some .hold | _ => none

/-- Phase tags (R196). -/
def PhaseTag.code : PhaseTag → Nat
  | .preshow => 1 | .feature => 2 | .break => 3 | .closing => 4

/-- The phase tag a code names (R2, R196). -/
def PhaseTag.ofCode : Nat → Option PhaseTag
  | 1 => some .preshow | 2 => some .feature | 3 => some .break | 4 => some .closing | _ => none

/-- The phase a tag gives its screen (R23). -/
def PhaseTag.phase : PhaseTag → Phase
  | .preshow => .preshow | .feature => .feature | .break => .break | .closing => .closing

/-- Phases, in the order of R24's table. -/
def Phase.index : Phase → Fin 6
  | .dark => 0 | .gather => 1 | .preshow => 2 | .feature => 3 | .break => 4 | .closing => 5

/-- Phase codes (R196). -/
def Phase.code (p : Phase) : Nat := p.index.val + 1

/-- The phase a code names (R24, R196). -/
def Phase.ofCode : Nat → Option Phase
  | 1 => some .dark | 2 => some .gather | 3 => some .preshow | 4 => some .feature | 5 => some .break
  | 6 => some .closing | _ => none

/-- Fault policy codes. -/
def FaultPolicy.code : FaultPolicy → Nat
  | .stopOnFault => 1 | .runThrough => 2

/-- The fault policy a code names (R4). -/
def FaultPolicy.ofCode : Nat → Option FaultPolicy
  | 1 => some .stopOnFault | 2 => some .runThrough | _ => none

/-- Causes of a show fault. -/
def Cause.code : Cause → Nat
  | .cueNoAnswer => 1 | .cueRefused => 2 | .pictureStall => 3 | .earlyEnd => 4 | .programmeSilent => 5

/-- Outcomes of a show. -/
def ShowOutcome.code : ShowOutcome → Nat
  | .none => 1 | .complete => 2 | .completeWithFaults => 3 | .stopped => 4 | .aborted => 5

/-- Screen states. -/
def ScreenState.code : ScreenState → Nat
  | .idle => 1 | .armed => 2 | .laneWait => 3 | .showing => 4 | .stopping => 5 | .held => 6

/-- The admission setting a code names (R24). -/
def Admit.ofCode : Nat → Option Admit
  | 1 => some .open | 2 => some .closed | 3 => some .late | _ => none

/-- The intake setting a code names (R24). -/
def Intake.ofCode : Nat → Option Intake
  | 1 => some .open | 2 => some .defer | 3 => some .closed | _ => none

/-- Classes, in the order of R76 and R196. -/
def AnnClass.index : AnnClass → Fin 5
  | .safety => 0 | .show => 1 | .orderCall => 2 | .manual => 3 | .promo => 4

/-- Class codes (R196). -/
def AnnClass.code (c : AnnClass) : Nat := c.index.val + 1

/-- The class a code names (R77 to R79, R196). -/
def AnnClass.ofCode : Nat → Option AnnClass
  | 1 => some .safety | 2 => some .show | 3 => some .orderCall | 4 => some .manual | 5 => some .promo | _ => none

/-- Verbs, in the order of R30. -/
def Verb.code : Verb → Nat
  | .l => 1 | .g => 2 | .h => 3 | .q => 4

/-- The verb a code names (R44). -/
def Verb.ofCode : Nat → Option Verb
  | 1 => some .l | 2 => some .g | 3 => some .h | 4 => some .q | _ => none

/-- Causes of a cue-line fault record (R42). -/
def LineCause.code : LineCause → Nat
  | .refused => 1 | .garbledLast => 2 | .noAnswer => 3

/-- Clip states (R68). -/
def ClipState.code : ClipState → Nat
  | .empty => 1 | .loading => 2 | .ready => 3 | .bad => 4

/-- Origins (R196). -/
def Origin.code : Origin → Nat
  | .manual => 1 | .show => 2 | .order _ => 3

/-- The order number of an origin, 0 when absent (R76, R196). -/
def Origin.number : Origin → Nat
  | .order n => n | _ => 0

/-- Player states (section 4.4). -/
def PlayerState.code : PlayerState → Nat
  | .idle => 1 | .ducking => 2 | .playing => 3 | .gap => 4 | .release => 5

/-- Stall states (R114). UNUSED is 1, the code of a stall outside the layout. -/
def StallState.code : StallState → Nat
  | .free => 2 | .assigned => 3 | .admitted => 4 | .blocked => 5

/-- The code of UNUSED (R114). -/
def unusedCode : Nat := 1

/-- Order modes (R196). -/
def OrderMode.code : OrderMode → Nat
  | .pickup => 1 | .runner => 2

/-- The mode a code names (R141, R196). -/
def OrderMode.ofCode : Nat → Option OrderMode
  | 1 => some .pickup | 2 => some .runner | _ => none

/-- Order states (R196). -/
def OrderState.code : OrderState → Nat
  | .deferred => 1 | .queued => 2 | .cooking => 3 | .ready => 4 | .called => 5

/-- Terminal outcomes (R196). -/
def OrderOutcome.code : OrderOutcome → Nat
  | .collected => 6 | .delivered => 7 | .expired => 8 | .canceled => 9

/-- Reason bytes (R196). -/
def EndReason.code : EndReason → Nat
  | .none => 0 | .request => 1 | .stallLeft => 2

/-- Ticket states (R163). -/
def TicketState.code : TicketState → Nat
  | .queued => 1 | .cooking => 2 | .done => 3 | .void => 4

/-- Entry lane states (section 5.4). -/
def LaneState.code : LaneState → Nat
  | .closed => 1 | .idle => 2 | .waiting => 3 | .raising => 4 | .passing => 5 | .lowering => 6 | .jammed => 7

/-- A loop's level: OCCUPIED 1, VACANT 2 (R94). -/
def loopCode (occupied : Bool) : Nat := if occupied then 1 else 2

/-- An admission state: OPEN 1, CLOSED 2 (R25). -/
def admissionCode (isOpen : Bool) : Nat := if isOpen then 1 else 2

/-- A yes-or-no field or a line level: 0 for no, 1 for yes (R197). -/
def flagCode (b : Bool) : Nat := if b then 1 else 0

/-! ### Unit codes (R196) -/

/-- The screen a unit code names. -/
def screenOfCode : Nat → Option Screen
  | 0x01 => some 0 | 0x02 => some 1 | 0x03 => some 2 | 0x04 => some 3 | _ => none

/-- The unit code of a screen. -/
def screenCode (n : Screen) : Nat := n.val + 1

/-- The unit code of ALL screens. -/
def allScreensCode : Nat := 0x0F

/-- The entry lane a unit code names. -/
def entryOfCode : Nat → Option EntryId
  | 0x11 => some 0 | 0x12 => some 1 | 0x13 => some 2 | 0x14 => some 3 | 0x15 => some 4 | 0x16 => some 5 | _ => none

/-- The unit code of an entry lane. -/
def entryCode (k : EntryId) : Nat := 0x11 + k.val

/-- The exit lane a unit code names. -/
def exitOfCode : Nat → Option ExitId
  | 0x21 => some 0 | 0x22 => some 1 | _ => none

/-- The unit code of an exit lane. -/
def exitCode (j : ExitId) : Nat := 0x21 + j.val

/-- The station a unit code names. -/
def stationOfCode : Nat → Option StationId
  | 0x31 => some 0 | 0x32 => some 1 | 0x33 => some 2 | 0x34 => some 3 | _ => none

/-- The unit code of a station. -/
def stationCode (st : StationId) : Nat := 0x31 + st.val

end Machine
end Sys2Proof
end

