-- ==== Sys2Proof/Machine/Wire.lean ====
section
/-! DEFINITION. Bytes on the site link: fields of a body (R196, R197), the CRC of R186, the frames of replies and
notices (R186, R190, R193), and the judgement of a received frame (R187). -/

set_option autoImplicit false

namespace Sys2Proof
namespace Machine

/-- The `width` bytes of a value, most significant first (R186). -/
def bytesBE : Nat → Nat → List Nat
  | 0, _ => []
  | w + 1, v => v / 256 ^ w % 256 :: bytesBE w v

/-- The number whose bytes, most significant first, are `bs`. -/
def ofBytesBE (bs : List Nat) : Nat := bs.foldl (fun acc b => acc * 256 + b) 0

/-- One bit step of the CRC: shift left, and take in the polynomial x^16 + x^12 + x^5 + 1 when a bit falls out. -/
def crcBit (c : Nat) : Nat := if c < 32768 then c * 2 else Nat.xor (c * 2 % 65536) 0x1021

/-- One byte of the CRC, most significant bit first (no reflection). -/
def crcByte (c b : Nat) : Nat :=
  crcBit (crcBit (crcBit (crcBit (crcBit (crcBit (crcBit (crcBit (Nat.xor c (b * 256)))))))))

/-- The CRC-16 of R71 and R186: initial value 0xFFFF, no reflection, no final inversion. -/
def crc16 (bs : List Nat) : Nat := bs.foldl crcByte 0xFFFF

/-! ### Fields -/

/-- A one-byte field. -/
def u8 (v : Nat) : Field := { width := 1, value := v }
/-- A two-byte field. -/
def u16 (v : Nat) : Field := { width := 2, value := v }
/-- A three-byte field. -/
def u24 (v : Nat) : Field := { width := 3, value := v }
/-- A four-byte field: a number without upper bound, or a count of milliseconds (R197). -/
def u32 (v : Nat) : Field := { width := 4, value := v }
/-- A yes-or-no field (R197). -/
def uBool (b : Bool) : Field := u8 (flagCode b)
/-- A site time; an absent one has 0xFFFFFFFF in the milliseconds (R196). -/
def uTime : Option SiteTime → List Field
  | some t => [u16 t.day, u32 t.ms]
  | none => [u16 0, u32 0xFFFFFFFF]
/-- A field that may be absent, behind its presence byte (R197). -/
def uOpt (width : Nat) : Option Nat → List Field
  | some v => [u8 1, { width := width, value := v }]
  | none => [u8 0, { width := width, value := 0 }]

/-- The bytes of a field. -/
def Field.bytes (f : Field) : List Nat := bytesBE f.width f.value

/-- The bytes of a list of fields. -/
def fieldBytes (fs : List Field) : List Nat := fs.flatMap Field.bytes

/-- How many bytes a list of fields takes. -/
def fieldWidth (fs : List Field) : Nat := fs.foldl (fun acc f => acc + f.width) 0

/-- As many whole records, from the front, as `room` bytes hold (R190). -/
def takeRecords (room : Nat) : List (List Field) → List (List Field)
  | [] => []
  | r :: rs => if fieldWidth r ≤ room then r :: takeRecords (room - fieldWidth r) rs else []

/-! ### Frames -/

/-- The bytes of a frame: start, length, kind, tag, body and CRC (R186). -/
def frameBytes (kind tag : Nat) (body : List Nat) : List Nat :=
  let checked := (body.length + 2) :: kind :: tag :: body
  0xC3 :: (checked ++ bytesBE 2 (crc16 checked))

/-- The body of a reply: status code, flag byte, fields (R190). -/
def Reply.body (r : Reply) : List Nat := fieldBytes (u8 r.status.code :: u8 r.flags :: r.fields)

/-- A reply's frame: the request's kind + 0x80 modulo 256, and the request's tag (R190). -/
def Reply.frame (kind tag : Nat) (r : Reply) : List Nat := frameBytes ((kind + 0x80) % 256) tag r.body

/-- The body of a notice: subkind, site time of the event, fields (R193). -/
def Notice.body (n : Notice) : List Nat := fieldBytes (u8 n.kind.code :: (uTime (some n.time) ++ n.fields))

/-- A notice's frame: kind 0x7F, tag 0 (R186). -/
def Notice.frame (n : Notice) : List Nat := frameBytes 0x7F 0 n.body

/-- What the framer makes of the bytes after a start byte (R187). -/
inductive FrameVerdict where
  /-- the frame is not complete -/
  | collecting
  /-- a length byte below 2 or above 242 -/
  | badLength
  /-- the CRC does not match -/
  | badCrc
  /-- a checked frame -/
  | checked (kind tag : Nat) (body : List Nat)
  deriving DecidableEq, Repr

/-- The judgement of R187 on the bytes received after the start byte. Bytes past the frame's end are not part of it. -/
def judgeFrame : List Nat → FrameVerdict
  | [] => .collecting
  | len :: rest =>
    if len < 2 ∨ 242 < len then .badLength
    else if rest.length < len + 2 then .collecting
    else
      let inner := rest.take len
      if ofBytesBE ((rest.drop len).take 2) = crc16 (len :: inner) then
        .checked (inner.getD 0 0) (inner.getD 1 0) (inner.drop 2)
      else .badCrc

end Machine
end Sys2Proof
end

