-- ==== Sys2Proof/Machine/Ops.lean ====
section
/-! DEFINITION. The named operations every block uses: reading and replacing one entry of a table, the site clock's
arithmetic, making a notice, clip references, and the published values of a screen (phase, fade, countdown). -/

set_option autoImplicit false

namespace Sys2Proof
namespace Machine

/-! ### Tables -/

/-- Entry `i` of a table. -/
def tget {α : Type} {n : Nat} (v : Vector α n) (i : Fin n) : α := v.get i

/-- A table with entry `i` replaced. -/
def tset {α : Type} {n : Nat} (v : Vector α n) (i : Fin n) (a : α) : Vector α n := v.set i.val a i.isLt

/-- A table with entry `i` changed by `f`. -/
def tmod {α : Type} {n : Nat} (v : Vector α n) (i : Fin n) (f : α → α) : Vector α n := tset v i (f (tget v i))

/-- The Show Controller of screen `n`. -/
def House.ctl (h : House) (n : Screen) : ShowCtl := tget h.shows n
/-- The Cue Line Unit of screen `n`. -/
def House.line (h : House) (n : Screen) : CueLine := tget h.lines n
/-- The gain state of screen `n`. -/
def House.gain (h : House) (n : Screen) : Gain := tget h.gains n
/-- The announcement queue of screen `n`. -/
def House.queue (h : House) (n : Screen) : List Ann := tget h.queues n
/-- The player of screen `n`. -/
def House.player (h : House) (n : Screen) : Player := tget h.players n
/-- The lot of screen `n`. -/
def House.lot (h : House) (n : Screen) : Lot := tget h.lots n
/-- Station `st`. -/
def House.station (h : House) (st : StationId) : Station := tget h.stations st
/-- The class table's row of class `c`. -/
def House.classRow (h : House) (c : AnnClass) : ClassRow := tget h.classes c.index

/-- Changes one Show Controller. -/
def House.onCtl (n : Screen) (f : ShowCtl → ShowCtl) (h : House) : House := { h with shows := tmod h.shows n f }
/-- Changes one Cue Line Unit. -/
def House.onLine (n : Screen) (f : CueLine → CueLine) (h : House) : House := { h with lines := tmod h.lines n f }
/-- Changes one screen's gain state. -/
def House.onGain (n : Screen) (f : Gain → Gain) (h : House) : House := { h with gains := tmod h.gains n f }
/-- Changes one announcement queue. -/
def House.onQueue (n : Screen) (f : List Ann → List Ann) (h : House) : House := { h with queues := tmod h.queues n f }
/-- Changes one player. -/
def House.onPlayer (n : Screen) (f : Player → Player) (h : House) : House := { h with players := tmod h.players n f }
/-- Changes one lot. -/
def House.onLot (n : Screen) (f : Lot → Lot) (h : House) : House := { h with lots := tmod h.lots n f }
/-- Changes one station. -/
def House.onStation (st : StationId) (f : Station → Station) (h : House) : House :=
  { h with stations := tmod h.stations st f }
/-- Changes the order of a number, wherever it stands in the table. -/
def House.onOrder (number : Nat) (f : Order → Order) (h : House) : House :=
  { h with orders := h.orders.map fun o => if o.number = number then f o else o }

/-- The order of a number, if the table holds one (R140 keeps numbers different). -/
def House.order? (h : House) (number : Nat) : Option Order := h.orders.find? fun o => o.number = number

/-- The cue entry at an index (R1). -/
def House.cue (h : House) (i : Nat) : CueEntry := (h.cues[i]?).getD .blank

/-- The item class of a number, if configured (R161). -/
def House.item? (h : House) (c : Nat) : Option ItemClass := if c = 0 then none else (h.items[c - 1]?).getD none

/-- The first value from `i` on, in the cyclic order `next`, that is not in `used`; `fuel` values are passed over at
most. -/
def firstFree (next : Nat → Nat) (used : List Nat) : Nat → Nat → Nat
  | 0, i => i
  | fuel + 1, i => if used.contains i then firstFree next used fuel (next i) else i

/-! ### Site time (R198) -/

/-- Milliseconds since day 0, 00:00. -/
def SiteTime.total (t : SiteTime) : Nat := t.day * Config.dayMs + t.ms

/-- The site time at a number of milliseconds since day 0, the day count returning to 0 after 65,535. -/
def SiteTime.ofTotal (x : Nat) : SiteTime :=
  { day := x / Config.dayMs % Config.dayCount, ms := x % Config.dayMs }

/-- The clock one millisecond later (R198). -/
def SiteTime.next (t : SiteTime) : SiteTime := SiteTime.ofTotal (t.total + 1)

/-- The clock stands on a whole second (R198). -/
def SiteTime.wholeSecond (t : SiteTime) : Bool := t.ms % 1000 = 0

/-- The clock stands on a whole minute (R198). -/
def SiteTime.wholeMinute (t : SiteTime) : Bool := t.ms % 60000 = 0

/-! ### Notices (R192 to R194) -/

/-- The transmitter, when idle, begins the oldest notice, which leaves the queue (R192, R193). -/
def Outbox.startNotice (o : Outbox) : Outbox :=
  match o.tx, o.notices with
  | .idle, n :: rest => { o with tx := .notice n, notices := rest }
  | _, _ => o

/-- A notice joins the queue, or is dropped and counted at a full queue, or is not made at all while its subkind is
off (R193, R194). -/
def Outbox.push (n : Notice) (o : Outbox) : Outbox :=
  if o.mask.testBit n.kind.bit then
    if o.notices.length < Config.noticeRoom then { o with notices := o.notices ++ [n] }.startNotice
    else { o with noticeLost := true, lostCount := bumpTo 255 o.lostCount }
  else o

/-- A block makes a notice at the present site time (R193). -/
def House.notify (kind : Subkind) (fields : List Field) (h : House) : House :=
  { h with out := h.out.push { kind := kind, time := h.clock, fields := fields } }

/-! ### Clip records and references (R68, R73) -/

/-- The record of a clip id, 1 to 127; any other id reads as EMPTY. -/
def House.clip (h : House) (id : Nat) : ClipRec := if id = 0 then .blank else (h.clips[id - 1]?).getD .blank

/-- Replaces the record of a clip id. -/
def House.setClip (id : Nat) (r : ClipRec) (h : House) : House :=
  if id = 0 then h else { h with clips := h.clips.setIfInBounds (id - 1) r }

/-- The clip is READY (R68). -/
def House.clipReady (h : House) (id : Nat) : Bool := (h.clip id).state = .ready

/-- Takes one reference on a clip. -/
def House.takeRef (h : House) (id : Nat) : House := h.setClip id { h.clip id with refs := (h.clip id).refs + 1 }

/-- Releases one reference on a clip. -/
def House.dropRef (h : House) (id : Nat) : House := h.setClip id { h.clip id with refs := (h.clip id).refs - 1 }

/-- Takes one reference for each place of a list (R73). -/
def House.takeRefs (ids : List Nat) (h : House) : House := ids.foldl House.takeRef h

/-- Releases one reference for each place of a list (R73). -/
def House.dropRefs (ids : List Nat) (h : House) : House := ids.foldl House.dropRef h

/-- Every page a clip holds, in any state (R49). -/
def House.heldPages (h : House) : List Nat := h.clips.toList.flatMap ClipRec.pages

/-! ### What a Show Controller publishes (chapter 1) -/

/-- The current entry of a screen's show; the empty entry when there is none (R7). -/
def House.entry (h : House) (n : Screen) : CueEntry :=
  match (h.ctl n).record.current with
  | some i => h.cue i
  | none => .blank

/-- The phase of a screen (R23). -/
def House.phase (h : House) (n : Screen) : Phase :=
  match (h.ctl n).state with
  | .idle | .held => .dark
  | .armed | .laneWait => .gather
  | .showing | .stopping => (h.entry n).tag.phase

/-- The phase policy row in force on a screen (R24). -/
def House.row (h : House) (n : Screen) : PolicyRow := tget h.policy (h.phase n).index

/-- Fade requested (section 1.4): STOPPING, HELD, or SHOWING with a SKIP as current entry. -/
def House.fade (h : House) (n : Screen) : Bool :=
  match (h.ctl n).state with
  | .stopping | .held => true
  | .showing => (h.entry n).kind = .skip
  | _ => false

/-- The entries that follow the current one within the show: up to the show's last index or the first LAST,
whichever comes first (R26). -/
def House.entriesFrom (h : House) : Nat → Nat → List CueEntry
  | _, 0 => []
  | i, fuel + 1 => h.cue i :: if (h.cue i).last then [] else h.entriesFrom (i + 1) fuel

/-- The frames an entry counts, none for a HOLD (R26). -/
def CueEntry.frames (e : CueEntry) : Nat := if e.kind = .play ∨ e.kind = .skip then e.length else 0

/-- The seconds a HOLD entry lasts, none for another kind (R26). -/
def CueEntry.seconds (e : CueEntry) : Nat := if e.kind = .hold then e.length else 0

/-- The break countdown of R26. -/
def House.countdownOf (h : House) (n : Screen) : Option Nat :=
  let c := h.ctl n
  match c.state, c.running, c.record.current with
  | .showing, some d, some i =>
    if c.finalHalt then none
    else
      let e := h.cue i
      if e.tag = .break then some 0
      else
        let after := if e.last then [] else h.entriesFrom (i + 1) (d.start + d.count - (i + 1))
        let before := after.takeWhile fun x => x.tag ≠ .break
        if before.length = after.length then none
        else
          let frames := (e.frames - c.record.progress) + (before.map CueEntry.frames).sum
          let holdLeft := ceilDiv (e.seconds * 1000 - c.holdElapsed) 1000
          some (ceilDiv frames d.rate + holdLeft + (before.map CueEntry.seconds).sum)
  | _, _, _ => none

/-- The break countdown is recomputed (R26). -/
def House.refreshCountdown (n : Screen) (h : House) : House :=
  h.onCtl n fun c => { c with countdown := h.countdownOf n }

/-- The admission state that R25 works out for a screen: set when OPEN. A show's feature start counts while it is in
the running slot. -/
def House.admissionOf (h : House) (n : Screen) : Bool :=
  match (h.row n).admission with
  | .open => true
  | .closed => false
  | .late =>
    match (h.ctl n).running, (h.ctl n).record.featureStart with
    | some _, some t => h.clock.total < t.total + h.lateLimit * 1000
    | _, _ => true

/-- The admission state is re-evaluated and published to the Lot Table (R25, R119). -/
def House.refreshAdmission (n : Screen) (h : House) : House :=
  h.onLot n fun l => { l with admission := h.admissionOf n }

/-! ### Stalls (R114) -/

/-- The record of a stall inside its screen's layout; none is UNUSED (R114). -/
def House.stall? (h : House) (n : Screen) (row position : Nat) : Option Stall :=
  if row = 0 ∨ position = 0 then none
  else ((h.lot n).rows.getD (row - 1) [])[position - 1]?

/-- A layout with one stall changed. -/
def changeStall (rows : List (List Stall)) (row position : Nat) (f : Stall → Stall) : List (List Stall) :=
  rows.modify (row - 1) fun r => r.modify (position - 1) f

/-- Changes one stall of a screen. -/
def House.onStall (n : Screen) (row position : Nat) (f : Stall → Stall) (h : House) : House :=
  h.onLot n fun l => { l with rows := changeStall l.rows row position f }

/-- How many stalls of a layout are in a state (R128). -/
def Lot.countState (l : Lot) (s : StallState) : Nat :=
  (l.rows.map fun r => r.countP fun x => x.state = s).sum

/-- The occupancy: stalls ASSIGNED or ADMITTED (R118). -/
def Lot.occupancy (l : Lot) : Nat := l.countState .assigned + l.countState .admitted

/-- A screen's stall count (R115). -/
def Lot.stallCount (l : Lot) : Nat := (l.rows.map List.length).sum

/-- The full indication is worked out afresh, with LOT_FULL or LOT_OPEN when it changes (R118). -/
def House.refreshFull (n : Screen) (h : House) : House :=
  let l := h.lot n
  let now : Bool := l.occupancy = l.capacity
  if now = l.full then h
  else
    (h.onLot n fun l => { l with full := now }).notify (if now then .lotFull else .lotOpen)
      [u8 (screenCode n), u16 l.occupancy, u16 l.capacity]

end Machine
end Sys2Proof
end

