-- ==== Sys2Proof/Machine/Calls.lean ====
section
/-! DEFINITION. Announcements and order calls as they act on one another (chapters 4 and 8): placing and displacing,
the player's choice, departures with their reports, and the calls of ready orders. -/

set_option autoImplicit false

namespace Sys2Proof
namespace Machine

/-! ### The ORDER_STATE notice (R153, R196) -/

/-- The flags byte of an order record (R196). -/
def Order.flags (o : Order) : Nat := flagCode o.late + 2 * flagCode o.callWaiting + 4 * flagCode o.notCalled

/-- The stations byte of an order record: bit 0 S1 to bit 3 S4 (R196). -/
def stationBits (ts : List StationId) : Nat := (ts.map fun st => 2 ^ st.val).sum

/-- The order record of R196 with the state byte given. -/
def Order.record (o : Order) (state : Nat) : List Field :=
  [u16 o.number, u8 (screenCode o.screen), u8 o.row, u8 o.position, u16 o.party, u8 o.mode.code, u8 state]
    ++ uTime (some o.placed) ++ uTime o.promised ++ uTime o.ready
    ++ [u8 o.made, u8 o.remaining, u8 o.age, u8 o.flags, u8 (stationBits o.tickets), u16 (o.call.getD 0),
        u8 o.lines.length]
    ++ o.lines.flatMap fun l => [u8 l.item, u8 l.quantity]

/-- Sends ORDER_STATE with a record, a state byte and a reason (R153). -/
def House.orderNotice (o : Order) (state : Nat) (reason : EndReason) (h : House) : House :=
  h.notify .orderState (o.record state ++ [u8 reason.code])

/-- Sends ORDER_STATE for the order of a number as it stands in the table. -/
def House.orderStateNotice (number : Nat) (h : House) : House :=
  match h.order? number with
  | some o => h.orderNotice o o.state.code .none
  | none => h

/-! ### The player's choice (R87) -/

/-- An announcement is eligible on a screen (R87). -/
def House.eligible (h : House) (n : Screen) (a : Ann) : Bool := (h.row n).allowed.contains a.cls && !a.removed

/-- The first eligible announcement in queue order (R87). -/
def House.firstEligible (h : House) (n : Screen) : Option Ann := (h.queue n).find? (h.eligible n)

/-- The announcement the player holds. -/
def House.heldAnn (h : House) (n : Screen) : Option Ann :=
  match (h.player n).held with
  | some id => (h.queue n).find? fun a => a.id = id
  | none => none

/-- The player looks at the queue (R87): from IDLE and RELEASE it takes the first eligible announcement and ducks; in
DUCKING it holds the first eligible one, or releases. In PLAYING and GAP it does not look. -/
def House.selectPlayer (n : Screen) (h : House) : House :=
  match (h.player n).state, h.firstEligible n with
  | .idle, some a => h.onPlayer n fun p => { p with state := .ducking, held := some a.id }
  | .release, some a => h.onPlayer n fun p => { p with state := .ducking, held := some a.id }
  | .ducking, some a => h.onPlayer n fun p => { p with held := some a.id }
  | .ducking, none => h.onPlayer n fun p => { p with state := .release, held := none }
  | _, _ => h

/-! ### Placing (R76, R80, R81) -/

/-- The announcement id after `i`: from 65,535 back to 1 (R76). -/
def nextAnnId (i : Nat) : Nat := if i < 65535 then i + 1 else 1

/-- Every announcement id queued on the site (R76). -/
def House.queuedIds (h : House) : List Nat := h.queues.toList.flatMap fun q => q.map Ann.id

/-- The id the next enqueue gives (R76). -/
def House.freeAnnId (h : House) : Nat := firstFree nextAnnId h.queuedIds h.queuedIds.length h.nextAnn

/-- What is offered to a queue: class, clips and origin. -/
structure Offer where
  cls : AnnClass
  clips : List Nat
  origin : Origin
  deriving DecidableEq, Repr

/-- The outcome of an offer: refused, or placed under an id, with a displacement or without. -/
inductive Placement where
  | refused
  | placed (id : Nat) (displaced : Bool)
  deriving DecidableEq, Repr

/-- The place of an announcement in queue order: after every one of the same or a more urgent priority (R80). -/
def insertAnn (a : Ann) : List Ann → List Ann
  | [] => [a]
  | b :: rest => if b.priority ≤ a.priority then b :: insertAnn a rest else a :: b :: rest

/-- An offer is placed: it gets its id, takes its references and joins the queue (R76, R80). -/
def House.placeAnn (n : Screen) (o : Offer) (h : House) : House :=
  let a : Ann :=
    { id := h.freeAnnId, cls := o.cls, priority := (h.classRow o.cls).priority, clips := o.clips,
      origin := o.origin, enqueued := h.clock, wait := 0, position := 1, removed := false }
  ({ h with nextAnn := nextAnnId a.id }.takeRefs o.clips).onQueue n (insertAnn a)

/-- Changes the announcement of an id on a screen's queue. -/
def House.onAnn (n : Screen) (id : Nat) (f : Ann → Ann) (h : House) : House :=
  h.onQueue n fun q => q.map fun b => if b.id = id then f b else b

/-- The candidates for displacement: every announcement but the held one (R81). -/
def House.candidates (h : House) (n : Screen) : List Ann :=
  (h.queue n).filter fun a => (h.player n).held ≠ some a.id

/-- The announcement that an offer of a priority displaces from a full queue, if any: the last in queue order of the
least urgent priority, when the offer is strictly more urgent (R81). -/
def House.victim (h : House) (n : Screen) (priority : Nat) : Option Ann :=
  let worst := ((h.candidates n).map Ann.priority).foldl max 0
  if priority < worst then (h.candidates n).reverse.find? fun a => a.priority = worst else none

/-- The fields every announcement notice carries (R83, R88). -/
def annFields (n : Screen) (a : Ann) : List Field :=
  [u8 (screenCode n), u16 a.id, u8 a.cls.code, u8 a.origin.code, u16 a.origin.number]

/-- An announcement leaves the queue order and its references are released (R83). -/
def House.takeOut (n : Screen) (a : Ann) (h : House) : House :=
  (h.onQueue n fun q => q.filter fun b => b.id ≠ a.id).dropRefs a.clips

/-- A call was displaced: its order waits for a call again (R150). -/
def House.callDisplaced (id : Nat) (h : House) : House :=
  { h with orders := h.orders.map fun o => if o.call = some id then { o with call := none, callWaiting := true } else o }

/-- An announcement offered to a screen's queue (R80, R81). The departure report of a displacement is the caller's to
make, after it has told the source (R83). The reason of ANNOUNCE_DROPPED stands after the common fields (log entry 12). -/
def House.offer (n : Screen) (o : Offer) (h : House) : House × Placement :=
  let sameOrder : Bool := match o.origin with
    | .order k => (h.queue n).any fun a => a.origin = .order k
    | _ => false
  if sameOrder then (h, .refused)
  else if (h.queue n).length < Config.queueRoom then
    ((h.placeAnn n o).selectPlayer n, .placed h.freeAnnId false)
  else
    match h.victim n (h.classRow o.cls).priority with
    | none => (h, .refused)
    | some v =>
      -- the displaced one departs with its notice and its report (R83), then the new one is placed
      let h1 := ((h.takeOut n v).notify .announceDropped (annFields n v ++ [u8 2])).callDisplaced v.id
      ((h1.placeAnn n o).selectPlayer n, .placed h1.freeAnnId true)

/-! ### Calls (R149, R150, R152) -/

/-- The decimal digits of an order number, most significant first, with no leading zeros (R149). -/
def decimalDigits (n : Nat) : List Nat :=
  if n < 10 then [n] else if n < 100 then [n / 10, n % 10] else [n / 100 % 10, n / 10 % 10, n % 10]

/-- The clip list of a call (R149). -/
def CallClips.compose (cc : CallClips) (number : Nat) : List Nat :=
  [cc.preamble] ++ (decimalDigits number).map (fun d => cc.digits.getD d 0)
    ++ (if cc.postamble = 0 then [] else [cc.postamble])

/-- An order's call is composed and offered (R149, R152). Answers whether a displacement still owes its departure
report. Without a configuration NOT_CALLED is set and CALL_WAITING dropped. -/
def House.offerCall (number : Nat) (h : House) : House × Bool :=
  match h.order? number, h.callClips with
  | some _, none => (h.onOrder number fun o => { o with notCalled := true, callWaiting := false }, false)
  | some o, some cc =>
    match h.offer o.screen { cls := .orderCall, clips := cc.compose number, origin := .order number } with
    | (h', .refused) => (h'.onOrder number fun o => { o with callWaiting := true }, false)
    | (h', .placed id displaced) =>
      (h'.onOrder number fun o => { o with call := some id, callWaiting := false }, displaced)
  | none, _ => (h, false)

/-- The earlier of two waiting orders: the earlier ready time, between equal ones the earlier in placement order
(R152). -/
def earlierReady (best : Option Order) (o : Order) : Option Order :=
  match best with
  | none => some o
  | some b =>
    if ((o.ready.getD ⟨0, 0⟩).total < (b.ready.getD ⟨0, 0⟩).total) then some o else some b

/-- The call-waiting order of a screen that is called next (R152). The table is kept in placement order. -/
def House.oldestWaiting (h : House) (n : Screen) : Option Order :=
  (h.orders.filter fun o => o.screen = n ∧ o.callWaiting).foldl earlierReady none

/-- A departure report (R83, R152): the oldest call-waiting order of the screen is offered; one that meets no
configuration gives way to the next, and an offer that displaces brings a departure report of its own. -/
def House.departureReport (n : Screen) : Nat → House → House
  | 0, h => h
  | fuel + 1, h =>
    match h.oldestWaiting n with
    | none => h
    | some o =>
      let r := h.offerCall o.number
      if r.2 ∨ h.callClips = none then House.departureReport n fuel r.1 else r.1

/-- A departure report with fuel enough: each further round takes an order out of waiting or displaces one of at most
eleven candidates. -/
def House.reportDeparture (n : Screen) (h : House) : House := h.departureReport n (h.orders.length + 13)

/-- The reports of a call that counts: played, expired, or ended by ANNOUNCE CANCEL (R150). -/
def House.callCounted (id : Nat) (h : House) : House :=
  { h with orders := h.orders.map fun o =>
      if o.call = some id then
        { o with call := none, made := o.made + 1, remaining := o.remaining - 1,
                 due := if o.remaining - 1 = 0 then none else some (h.orderPolicy.interval * 1000) }
      else o }

/-- The report of a call's start (R150): a READY order becomes CALLED, with its notice. -/
def House.callStarted (id : Nat) (h : House) : House :=
  match h.orders.find? fun o => o.call = some id with
  | some o =>
    if o.state = .ready then
      (h.onOrder o.number fun o => { o with state := .called }).orderStateNotice o.number
    else h
  | none => h

/-! ### Departures (R82, R83, R85) -/

/-- Ways an announcement departs, but for displacement (R83). -/
inductive Departure where
  | played
  | removed (byCancel : Bool)
  | expired
  deriving DecidableEq, Repr

/-- The notice of a departure (R83). The ending, and the clips played, stand after the common fields (log entry 12). -/
def House.departureNotice (n : Screen) (a : Ann) : Departure → House → House
  | .played, h => h.notify .announceDone (annFields n a ++ [u8 1] ++ uOpt 1 (some a.clips.length))
  | .removed _, h => h.notify .announceDone (annFields n a ++ [u8 2] ++ uOpt 1 none)
  | .expired, h => h.notify .announceExpired (annFields n a)

/-- The report of an order call's departure to the Order Table (R83): none for a removal by order number. -/
def House.departureCount (a : Ann) : Departure → House → House
  | .removed false, h => h
  | _, h => h.callCounted a.id

/-- An announcement departs (R83): out of the queue, references released, notice, report of an order call, departure
report. A player that held it holds nothing; in DUCKING it then looks again (R87). -/
def House.depart (n : Screen) (a : Ann) (d : Departure) (h : House) : House :=
  let h1 := h.takeOut n a
  let h2 := h1.onPlayer n fun p => if p.held = some a.id then { p with held := none } else p
  (((h2.departureNotice n a d).departureCount a d).reportDeparture n).selectPlayer n

/-- An announcement that is not held has waited its class's max wait (R82). -/
def House.waitOver (h : House) (n : Screen) (a : Ann) : Bool :=
  (h.player n).held ≠ some a.id && decide ((h.classRow a.cls).maxWait * 1000 ≤ a.wait)

/-- The announcements of a queue that have waited long enough expire, one after another in queue order (R82). -/
def House.expireWaits (n : Screen) : Nat → House → House
  | 0, h => h
  | fuel + 1, h =>
    match (h.queue n).find? (h.waitOver n) with
    | none => h
    | some a => House.expireWaits n fuel (h.depart n a .expired)

/-- After anything that may let go of an announcement: those whose wait is over expire at that moment (R82), once the player
holds the next one (log entry 42). -/
def House.settleQueue (n : Screen) (h : House) : House := h.expireWaits n Config.queueRoom

/-- The player is told of a change it looks at the queue for (R87). -/
def House.wakePlayer (n : Screen) (h : House) : House := (h.selectPlayer n).settleQueue n

/-- An offer by ANNOUNCE, with the departure report of a displacement (R79, R83). Answers the id when placed. -/
def House.offerManual (n : Screen) (cls : AnnClass) (clips : List Nat) (h : House) : House × Option Nat :=
  match h.offer n { cls := cls, clips := clips, origin := .manual } with
  | (h', .refused) => (h', none)
  | (h', .placed id displaced) => ((if displaced then h'.reportDeparture n else h').settleQueue n, some id)

/-- A start clip is offered (R12); a refused one is dropped with its notice and counted (R81). -/
def House.offerStartClip (n : Screen) (clip : Nat) (h : House) : House :=
  match h.offer n { cls := .show, clips := [clip], origin := .show } with
  | (h', .refused) =>
    (h'.notify .announceDropped [u8 (screenCode n), u8 AnnClass.show.code, u8 clip, u8 1, u16 0]).onCtl n fun c =>
      { c with record := { c.record with clipsDropped := c.record.clipsDropped + 1 } }
  | (h', .placed _ displaced) => (if displaced then h'.reportDeparture n else h').settleQueue n

/-- An order's call is offered and what it brings is settled (R149, R150). -/
def House.callOrder (number : Nat) (h : House) : House :=
  match h.order? number with
  | none => h
  | some o =>
    let r := h.offerCall number
    (if r.2 then r.1.reportDeparture o.screen else r.1).settleQueue o.screen

/-- The next call of an order falls due (R150); with none scheduled nothing happens. -/
def House.repeatDue (h : House) (number : Nat) : House :=
  match h.order? number with
  | some o => if o.due.isSome then (h.onOrder number fun o => { o with due := none }).callOrder number else h
  | none => h

/-- An announcement is removed (R85): at once, or by its mark while its clip plays. -/
def House.removeAnn (n : Screen) (a : Ann) (byCancel : Bool) (h : House) : House :=
  if (h.player n).state = .playing ∧ (h.player n).held = some a.id then
    h.onAnn n a.id fun b => { b with removed := true }
  else (h.depart n a (.removed byCancel)).settleQueue n

/-- Whether a removal is at once (R84). -/
def House.removedAtOnce (h : House) (n : Screen) (a : Ann) : Bool :=
  !decide ((h.player n).state = .playing ∧ (h.player n).held = some a.id)

/-- Every announcement for an order number is removed, on every screen (R85, R154). -/
def House.removeCalls (number : Nat) (h : House) : House :=
  allScreens.foldl (fun h n =>
    match (h.queue n).find? fun a => a.origin = .order number with
    | some a => h.removeAnn n a false
    | none => h) h

/-! ### Playing (R88, R89) -/

/-- Clip 1 of an announcement begins (R88). -/
def House.beginAnn (n : Screen) (a : Ann) (h : House) : House :=
  (h.notify .announceStarted (annFields n a)).callStarted a.id

/-- The held announcement's next clip starts at its first sample (R87 to R89). -/
def House.startClip (n : Screen) (h : House) : House :=
  let h1 := h.onPlayer n fun p => { p with state := .playing, sample := 0, gapLeft := 0 }
  match h1.heldAnn n with
  | some a => if a.position = 1 then h1.beginAnn n a else h1
  | none => h1

/-- The held announcement is suspended at a clip boundary (R89 step 1). -/
def House.suspends (h : House) (n : Screen) (a : Ann) : Bool :=
  !(h.eligible n a)
    || (decide (a.cls ≠ .safety)
        && (h.queue n).any fun b => decide (b.cls = .safety ∧ (h.player n).held ≠ some b.id))

/-- Steps 1 to 3 of the boundary decision (R89): the announcement held for the next clip, or RELEASE. One let go of in step 1
whose wait is over expires once step 2 has taken the next one (log entry 42). -/
def House.decideNext (n : Screen) (h : House) : House :=
  let h1 := match h.heldAnn n with
    | some a =>
      if h.suspends n a then
        (h.onAnn n a.id fun b => { b with position := 1 }).onPlayer n fun p => { p with held := none }
      else h
    | none => h.onPlayer n fun p => { p with held := none }
  match (h1.player n).held, h1.firstEligible n with
  | some _, _ => h1
  | none, some a => h1.onPlayer n fun p => { p with held := some a.id }
  | none, none => h1.onPlayer n fun p => { p with state := .release, gapLeft := 0 }

/-- The end of a GAP: the decision is made again, and a next clip starts at once (R89). One let go of whose wait is over
expires after the start of the next (R82, log entry 42). -/
def House.endGap (n : Screen) (h : House) : House :=
  let h1 := h.decideNext n
  (if (h1.player n).state = .release then h1 else h1.startClip n).settleQueue n

/-- The decision at the end of a clip: a next clip is preceded by a GAP of the inter-clip gap (R89). With a gap of 0 it
starts at the next frame, in the block under way too (log entry 36). One let go of whose wait is over expires after the
next one has been taken (R82, log entry 42). -/
def House.afterClip (n : Screen) (h : House) : House :=
  let h1 := h.decideNext n
  if (h1.player n).state = .release then h1.settleQueue n
  else
    let h2 := h1.onPlayer n fun p => { p with state := .gap, gapLeft := h.gap * Config.blockFrames }
    if h.gap = 0 then h2.endGap n else h2.settleQueue n

/-- The last sample of the clip under way has been mixed (R88). -/
def House.endClip (n : Screen) (h : House) : House :=
  match h.heldAnn n with
  | none => h.afterClip n
  | some a =>
    if a.removed then (h.depart n a (.removed true)).afterClip n
    else if a.clips.length ≤ a.position then (h.depart n a .played).afterClip n
    else (h.onAnn n a.id fun b => { b with position := b.position + 1 }).afterClip n

/-! ### The queue at a reset (R91, R158) -/

/-- A screen's queue is cleared and its player put in IDLE: references released, no notice, no departure report
(R91). -/
def House.clearQueue (n : Screen) (h : House) : House :=
  (((h.queue n).foldl (fun h a => h.dropRefs a.clips) h).onQueue n fun _ => []).onPlayer n fun _ => .quiet

/-- SCREEN RESET's report of the calls cleared, and the call-waiting orders of the screen: a call is scheduled one
call interval later (R150, R158). -/
def House.rescheduleCalls (n : Screen) (h : House) : House :=
  { h with orders := h.orders.map fun o =>
      if o.screen = n ∧ (o.call ≠ none ∨ o.callWaiting) then
        { o with call := none, callWaiting := false, due := some (h.orderPolicy.interval * 1000) }
      else o }

end Machine
end Sys2Proof
end

