-- ==== Sys2Proof/Machine/Kitchen.lean ====
section
/-! DEFINITION. Tickets and orders as they act on one another (chapters 8 and 9): splitting, starting and bumping
tickets, the state an order takes from its tickets, wait estimates, the release of deferred orders, and the end of an
order. -/

set_option autoImplicit false

namespace Sys2Proof
namespace Machine

/-- All four stations, in the order S1 to S4. -/
def allStations : List StationId := [0, 1, 2, 3]

/-! ### Counts of a station (R164, R173) -/

/-- A cooking ticket: COOKING or VOID (R164). -/
def Ticket.cooking (t : Ticket) : Bool := t.state = .cooking ∨ t.state = .void

/-- The cooking tickets of a station (R164). -/
def Station.cookingCount (s : Station) : Nat := s.queue.countP Ticket.cooking

/-- The free slots of a station (R164). -/
def Station.freeSlots (s : Station) : Nat := s.slots - s.cookingCount

/-- The station has room for one more ticket (R164). -/
def Station.hasRoom (s : Station) : Bool := s.queue.length < Config.stationRoom

/-- READY-s is lit (R172). -/
def Station.readyLit (s : Station) : Bool := s.queue.any fun t => t.state = .done

/-- What a ticket adds to its station's backlog (R173). -/
def Ticket.load (t : Ticket) : Nat :=
  match t.state with
  | .queued => t.prep
  | .cooking | .void => t.prep - t.elapsed / 1000
  | .done => 0

/-- The backlog B of a station, in seconds (R173). -/
def Station.backlog (s : Station) : Nat := (s.queue.map Ticket.load).sum

/-- The wait W of a station when `extra` seconds join its backlog (R174). -/
def Station.wait (s : Station) (extra : Nat) : Nat := ceilDiv (s.backlog + extra) s.slots

/-! ### Splitting an order (R161, R163) -/

/-- The station of a line's class, if the class is configured. -/
def House.stationOf (h : House) (l : OrderLine) : Option StationId := (h.item? l.item).map ItemClass.station

/-- The stations an order touches, in the order S1 to S4 (R138, R163). -/
def House.touched (h : House) (lines : List OrderLine) : List StationId :=
  allStations.filter fun st => lines.any fun l => h.stationOf l = some st

/-- The lines of an order for one station, in the order sent (R163). -/
def House.linesFor (h : House) (lines : List OrderLine) (st : StationId) : List OrderLine :=
  lines.filter fun l => h.stationOf l = some st

/-- The seconds of one line: base + per-unit × (quantity − 1) (R163). -/
def House.lineSeconds (h : House) (l : OrderLine) : Nat :=
  match h.item? l.item with
  | some c => c.base + c.perUnit * (l.quantity - 1)
  | none => 0

/-- The prep seconds of the ticket an order has at a station, at most 3,600 (R163). -/
def House.prepFor (h : House) (lines : List OrderLine) (st : StationId) : Nat :=
  min 3600 (((h.linesFor lines st).map h.lineSeconds).sum)

/-- One ticket of an order joins the end of a station's queue (R163). -/
def House.joinTicket (number : Nat) (lines : List OrderLine) (h : House) (st : StationId) : House :=
  let t : Ticket :=
    { order := number, lines := h.linesFor lines st, prep := h.prepFor lines st, state := .queued,
      joined := h.nextJoin, cooked := none, cookStart := none, elapsed := 0 }
  { h.onStation st fun s => { s with queue := s.queue ++ [t] } with nextJoin := h.nextJoin + 1 }

/-- An order's tickets join their queues, in the order S1 to S4 (R142, R147, R163). -/
def House.joinTickets (number : Nat) (lines : List OrderLine) (h : House) : House :=
  (h.touched lines).foldl (House.joinTicket number lines) h

/-- The estimate E: the largest wait among the stations (R174). -/
def House.estimate (h : House) (waits : List StationId) : Nat :=
  (waits.map fun st => (h.station st).wait 0).foldl max 0

/-- The promised time: the site time plus E plus the pickup margin, rounded up to a whole minute (R145). -/
def House.promise (h : House) (estimate : Nat) : SiteTime :=
  .ofTotal (ceilDiv (h.clock.total + (estimate + h.orderPolicy.margin) * 1000) 60000 * 60000)

/-! ### What the stations tell the Order Table (R148, R171) -/

/-- A ticket of the order is still QUEUED or COOKING at some station. -/
def House.unfinished (h : House) (number : Nat) : Bool :=
  allStations.any fun st => (h.station st).queue.any fun t =>
    decide (t.order = number ∧ (t.state = .queued ∨ t.state = .cooking))

/-- The order becomes READY (R148): its ready time and LATE, the notice, and the first call of a PICKUP order
(R149). -/
def House.orderReady (number : Nat) (h : House) : House :=
  match h.order? number with
  | none => h
  | some o =>
    let late : Bool := match o.promised with
      | some p => decide (p.total < h.clock.total)
      | none => false
    let h1 := (h.onOrder number fun o =>
      { o with state := .ready, ready := some h.clock, age := 0, late := late }).orderStateNotice number
    if o.mode = .pickup then h1.callOrder number else h1

/-- A QUEUED order becomes COOKING, with its notice (R148). -/
def House.orderCooking (number : Nat) (h : House) : House :=
  match h.order? number with
  | some o =>
    if o.state = .queued then (h.onOrder number fun o => { o with state := .cooking }).orderStateNotice number else h
  | none => h

/-- The report of a ticket that became DONE (R148). -/
def House.ticketDone (number : Nat) (h : House) : House :=
  match h.order? number with
  | none => h
  | some o =>
    if o.state = .queued ∨ o.state = .cooking then
      if h.unfinished number then h.orderCooking number else h.orderReady number
    else h

/-! ### Cook slots (R165) -/

/-- The oldest QUEUED ticket of a station, by its join sequence. -/
def Station.oldestQueued (s : Station) : Option Ticket := s.queue.find? fun t => t.state = .queued

/-- Changes the ticket of a join sequence at a station. -/
def House.onTicket (st : StationId) (joined : Nat) (f : Ticket → Ticket) (h : House) : House :=
  h.onStation st fun s => { s with queue := s.queue.map fun t => if t.joined = joined then f t else t }

/-- A QUEUED ticket enters COOKING and is reported (R165, R171). -/
def House.startTicket (st : StationId) (t : Ticket) (h : House) : House :=
  ({ h.onTicket st t.joined fun t =>
      { t with state := .cooking, cooked := some h.nextCook, cookStart := some h.clock, elapsed := 0 } with
      nextCook := h.nextCook + 1 }).orderCooking t.order

/-- While a slot is free and a ticket is QUEUED, the oldest one starts (R165). At most eight slots can be free. -/
def House.startTickets (st : StationId) : Nat → House → House
  | 0, h => h
  | fuel + 1, h =>
    match (h.station st).oldestQueued with
    | some t => if 0 < (h.station st).freeSlots then House.startTickets st fuel (h.startTicket st t) else h
    | none => h

/-- The free slots of a station start tickets (R165). -/
def House.fillSlots (h : House) (st : StationId) : House := h.startTickets st (h.station st).slots

/-! ### Release of deferred orders (R146, R147) -/

/-- The deferred orders of a screen may be released (R146). -/
def House.mayRelease (h : House) (n : Screen) : Bool :=
  (h.row n).intake = .open
    || (match (h.ctl n).countdown with
        | some c => decide (c ≤ h.orderPolicy.lead)
        | none => false)

/-- A release attempt on one deferred order (R147). -/
def House.releaseOne (h : House) (number : Nat) : House :=
  match h.order? number with
  | none => h
  | some o =>
    let sts := h.touched o.lines
    if sts.all fun st => (h.station st).opened && (h.station st).hasRoom then
      let h1 := h.joinTickets number o.lines
      let h2 := h1.onOrder number fun o =>
        { o with state := .queued, tickets := sts, promised := some (h1.promise (h1.estimate sts)) }
      sts.foldl House.fillSlots (h2.orderStateNotice number)
    else h

/-- The DEFERRED orders of the given screens that may release are tried in placement order (R146). -/
def House.releaseOn (screens : List Screen) (h : House) : House :=
  ((h.orders.filter fun o =>
      o.state = .deferred && screens.contains o.screen && h.mayRelease o.screen).map Order.number).foldl
    House.releaseOne h

/-- A release attempt for every screen (R146). -/
def House.releaseAll (h : House) : House := h.releaseOn allScreens

/-! ### Bumps (R167, R168) -/

/-- The oldest cooking ticket by cook sequence (R167). -/
def Station.oldestCooking (s : Station) : Option Ticket :=
  (s.queue.filter Ticket.cooking).foldl
    (fun best t =>
      match best with
      | none => some t
      | some b => if t.cooked.getD 0 < b.cooked.getD 0 then some t else some b) none

/-- A ticket becomes DONE and is reported; a slot it leaves starts the oldest QUEUED ticket (R165, R167, R168,
R171). -/
def House.finishTicket (st : StationId) (t : Ticket) (h : House) : House :=
  ((h.onTicket st t.joined fun t => { t with state := .done, elapsed := 0 }).ticketDone t.order).fillSlots st

/-- A ticket leaves its station's queue (R164). -/
def House.dropTicket (st : StationId) (t : Ticket) (h : House) : House :=
  h.onStation st fun s => { s with queue := s.queue.filter fun u => u.joined ≠ t.joined }

/-- A VOID ticket is removed: its departure is reported, then its slot starts the oldest QUEUED ticket (R167,
R171). -/
def House.clearVoid (st : StationId) (t : Ticket) (h : House) : House :=
  ((h.dropTicket st t).releaseAll).fillSlots st

/-- One button bump (R167): the oldest cooking ticket becomes DONE, or is removed if VOID. -/
def House.bumpButton (st : StationId) (h : House) : House :=
  match (h.station st).oldestCooking with
  | some t => if t.state = .void then h.clearVoid st t else h.finishTicket st t
  | none => h

/-- The ticket of the live order of a number at a station (R168). -/
def House.liveTicket (h : House) (st : StationId) (number : Nat) : Option Ticket :=
  (h.station st).queue.find? fun t => t.order = number ∧ t.state ≠ .void

/-- The VOID ticket of lowest cook sequence carrying a number at a station (R168). -/
def House.voidTicket (h : House) (st : StationId) (number : Nat) : Option Ticket :=
  Station.oldestCooking
    { h.station st with queue := (h.station st).queue.filter fun t => t.order = number ∧ t.state = .void }

/-- Every VOID ticket of a station is removed in cook sequence order, each with its departure and its slot (R183). -/
def House.clearVoids (st : StationId) : Nat → House → House
  | 0, h => h
  | fuel + 1, h =>
    match Station.oldestCooking
        { h.station st with queue := (h.station st).queue.filter fun t => t.state = .void } with
    | some t => House.clearVoids st fuel (h.clearVoid st t)
    | none => h

/-! ### The end of an order (R154, R170) -/

/-- A ticket of an ended order: a COOKING one becomes VOID; QUEUED and DONE ones leave (none) (R170). -/
def Ticket.settle (number : Nat) (t : Ticket) : Option Ticket :=
  if t.order = number then
    match t.state with
    | .queued | .done => none
    | .cooking => some { t with state := .void }
    | .void => some t
  else some t

/-- The tickets of an ended order are settled at every station (R170). -/
def House.settleTickets (number : Nat) (h : House) : House :=
  allStations.foldl (fun h st =>
    h.onStation st fun s => { s with queue := s.queue.filterMap (Ticket.settle number) }) h

/-- Some ticket of the order leaves a queue when the order ends (R170). -/
def House.ticketsLeave (h : House) (number : Nat) : Bool :=
  allStations.any fun st => (h.station st).queue.any fun t =>
    decide (t.order = number ∧ (t.state = .queued ∨ t.state = .done))

/-- The order's call as its final copy carries it: its id while it is still queued or playing (R138, R154). -/
def House.lastCall (h : House) (o : Order) : Option Nat :=
  o.call.filter fun id => (h.queue o.screen).any fun a => a.id = id

/-- The five steps of R154, and then the release that ticket departures bring. -/
def House.endOrder (outcome : OrderOutcome) (reason : EndReason) (h : House) (number : Nat) : House :=
  match h.order? number with
  | none => h
  | some o =>
    let left := h.ticketsLeave number
    let h1 := (h.settleTickets number).removeCalls number
    let h2 := h1.onOrder number fun o => { o with call := h1.lastCall o, due := none }
    let h3 := h2.onStall o.screen o.row o.position fun x => { x with openOrders := x.openOrders - 1 }
    let h4 := match h3.order? number with
      | some final => h3.orderNotice final outcome.code reason
      | none => h3
    let h5 := { h4 with orders := h4.orders.filter fun o => o.number ≠ number }
    if left then h5.releaseAll else h5

/-- The expiry sweep of R156. -/
def House.expirySweep (h : House) : House :=
  let waits (o : Order) : Bool := o.state = .ready ∨ o.state = .called
  let h1 := { h with orders := h.orders.map fun o => if waits o then { o with age := o.age + 1 } else o }
  ((h1.orders.filter fun o => waits o && decide (h1.orderPolicy.limit ≤ o.age)).map Order.number).foldl
    (House.endOrder .expired .none) h1

/-! ### Departing cars (R124) -/

/-- The open orders of a stall, oldest first (R124). -/
def House.stallOrders (h : House) (n : Screen) (row position : Nat) : List Nat :=
  (h.orders.filter fun o => o.screen = n ∧ o.row = row ∧ o.position = position).map Order.number

/-- A stall departs (R124): its orders are cancelled, it becomes FREE, the occupancy falls. -/
def House.departStall (n : Screen) (h : House) (stall : Nat × Nat) : House :=
  let h1 := (h.stallOrders n stall.1 stall.2).foldl (House.endOrder .canceled .stallLeft) h
  (h1.onStall n stall.1 stall.2 fun _ => .vacant).refreshFull n

/-- The ADMITTED stalls of a screen in row and position order (R125). -/
def Lot.admittedStalls (l : Lot) : List (Nat × Nat) :=
  (l.rows.zipIdx 1).flatMap fun (r, row) =>
    (r.zipIdx 1).filterMap fun (x, position) => if x.state = .admitted then some (row, position) else none

end Machine
end Sys2Proof
end

