-- ==== Sys2Proof/Machine/Shows.lean ====
section
/-! DEFINITION. Show control (chapters 1 and 2): what the Show Controller and the Cue Line Unit of one screen do to
each other, and what a show's progress does to the rest of the house. -/

set_option autoImplicit false

namespace Sys2Proof
namespace Machine

/-! ### Publishing (R23, R24) -/

/-- A screen's phase changed: the player looks at its queue (R87), the screen's deferred orders are tried (R146), the
admission state is worked out (R25). -/
def House.phaseChanged (n : Screen) (h : House) : House :=
  ((h.wakePlayer n).releaseOn [n]).refreshAdmission n

/-- Publishes a screen's phase if it is no longer `old` (R23). -/
def House.publish (n : Screen) (old : Phase) (h : House) : House :=
  if h.phase n = old then h else h.phaseChanged n

/-- The phase policy table changed: every player looks (R87), every deferred order is tried (R146), every admission
state is worked out (R25). -/
def House.policyChanged (h : House) : House :=
  allScreens.foldl (fun h n => h.refreshAdmission n)
    (House.releaseAll (allScreens.foldl (fun h n => h.wakePlayer n) h))

/-! ### Attempts (R33, R34, R36, R178) -/

/-- The exchange a Cue Line Unit has outstanding. -/
def CueUnit.exchange? : CueUnit → Option Exchange
  | .quiet => none
  | .sending x | .await x _ | .backoff x _ => some x

/-- An H of the show is outstanding or waiting (R15, R39). -/
def CueLine.showHalt (l : CueLine) : Bool :=
  (match l.unit.exchange? with
    | some x => decide (x.verb = .h) && !x.pass
    | none => false)
  || (match l.waitingPlace with
    | some r => decide (r.verb = .h)
    | none => false)

/-- The next attempt of an exchange is made: it takes the sequence number, and its line begins to go out; in
rehearsal nothing is sent and the attempt is in AWAIT at once, with its automatic answer when that is ON (R178). -/
def House.attempt (n : Screen) (x : Exchange) (h : House) : House :=
  let c := h.ctl n
  h.onLine n fun l =>
    let y := { x with seq := l.seq, used := x.used + 1 }
    let l1 := { l with seq := (l.seq + 1) % 16 }
    if c.rehearsal then
      { l1 with
        unit := .await y y.timeout
        autoDue := if c.autoAnswer then some (y.seq, Config.autoAnswerMs) else l.autoDue }
    else
      { l1 with
        unit := .sending y
        sendingLines := l.sendingLines ++ [{ verb := y.verb, content := y.content, seq := y.seq }] }

/-- An exchange begins (R34): it keeps the timeout in force now (R32). -/
def House.beginExchange (n : Screen) (pass quiet : Bool) (r : CueRequest) (allowed : Nat) (h : House) : House :=
  let l := h.line n
  h.attempt n
    { pass := pass, quiet := quiet, verb := r.verb, content := r.content, firstSeq := l.seq, seq := l.seq, used := 0,
      allowed := allowed, timeout := l.answerTimeout }

/-- The Show Controller asks for an exchange with the retries of the settings (R34, R39): begun when QUIET, else put in
the waiting place; an H is not asked for while one of the show is under way. -/
def House.askShow (n : Screen) (r : CueRequest) (h : House) : House :=
  let l := h.line n
  if r.verb = .h ∧ l.showHalt then h
  else
    match l.unit with
    | .quiet => h.beginExchange n false false r (l.retries + 1)
    | _ => h.onLine n fun l => { l with waitingPlace := some r }

/-- The request in the waiting place begins once the Cue Line Unit is QUIET (R34). -/
def House.beginWaiting (n : Screen) (h : House) : House :=
  let l := h.line n
  match l.unit, l.waitingPlace with
  | .quiet, some r =>
    (h.onLine n fun l => { l with waitingPlace := none }).beginExchange n false false r (l.retries + 1)
  | _, _ => h

/-- How an exchange ends, but for abandonment (R35). -/
inductive ExchangeEnd where
  | accepted
  | refused
  | noAnswer (garbledLast : Bool)
  deriving DecidableEq, Repr

/-- The result code of PASS_RESULT, in the order of R45. -/
def ExchangeEnd.passCode : ExchangeEnd → Nat
  | .accepted => 1 | .refused => 2 | .noAnswer false => 3 | .noAnswer true => 4

/-- The result code ABANDONED of PASS_RESULT (R45). -/
def abandonedCode : Nat := 5

/-- The fields of PASS_RESULT (R45). -/
def passFields (n : Screen) (x : Exchange) (result : Nat) : List Field :=
  [u8 (screenCode n), u8 x.verb.code, u16 (if x.verb = .l then x.content else 0), u8 x.firstSeq, u8 x.used, u8 result]

/-- The outstanding exchange is abandoned and the waiting place emptied; a verb line already going out goes out whole
(R38). -/
def House.abandon (n : Screen) (h : House) : House :=
  let h1 := h.onLine n fun l =>
    { l with unit := .quiet, waitingPlace := none, sendingLines := l.sendingLines.take 1, autoDue := none }
  match (h.line n).unit.exchange? with
  | some x => if x.pass then h1.notify .passResult (passFields n x abandonedCode) else h1
  | none => h1

/-! ### Slots and records (R5 to R7, R16) -/

/-- The start clips of a show's range, one for each entry that carries one (R5). -/
def House.startClips (h : House) (d : ShowDesc) : List Nat :=
  ((List.range' d.start d.count).map fun i => (h.cue i).startClip).filter fun c => c ≠ 0

/-- The fields of SHOW_DONE (R16). -/
def showDoneFields (n : Screen) (r : ShowRecord) : List Field :=
  [u8 (screenCode n), u16 r.showId, u8 r.outcome.code, u8 r.completed, u8 r.faults,
   u8 ((r.firstCause.map Cause.code).getD 0)]

/-- Sends SHOW_DONE (R16). -/
def House.notifyDone (n : Screen) (h : House) : House := h.notify .showDone (showDoneFields n (h.ctl n).record)

/-- The running slot empties, and the show's references are released (R6). -/
def House.emptySlot (n : Screen) (h : House) : House :=
  let h1 := match (h.ctl n).running with
    | some d => h.dropRefs (h.startClips d)
    | none => h
  h1.onCtl n fun c =>
    { c with
      running := none, finalHalt := false, stopAbort := false, stopHaltEnded := false, counting := .off,
      stallTimer := none, timebase := 0, holdElapsed := 0, waitLeft := none, waitSpent := 0, generator := none }

/-- A show enters the running slot: the record is zeroed and the screen is ARMED (R5, R16). -/
def ShowCtl.armed (d : ShowDesc) (c : ShowCtl) : ShowCtl :=
  { c with state := .armed, running := some d, record := .zeroed d.showId, finalHalt := false }

/-- Seconds of LANE_WAIT join the record when it ends (R11). -/
def House.endWait (n : Screen) (h : House) : House :=
  h.onCtl n fun c =>
    { c with
      waitLeft := none, waitSpent := 0
      record := { c.record with laneHoldSecs := c.record.laneHoldSecs + c.waitSpent / 1000 } }

/-! ### Entries (R10 to R13) -/

/-- An entry starts running (R12, R13); `old` is the phase before. -/
def House.runEntry (n : Screen) (old : Phase) (h : House) : House :=
  let e := h.entry n
  let h1 := h.onCtl n fun c =>
    { c with
      state := .showing, finalHalt := false, silentRaised := false, counting := .off, stallTimer := none,
      timebase := 0, holdElapsed := 0, generator := none
      record := { c.record with
        progress := 0
        featureStart :=
          if e.tag = .feature ∧ c.record.featureStart = none then some h.clock else c.record.featureStart } }
  let h2 := h1.onGain n fun g => { g with silenceRun := 0, reported := false }
  let h3 := h2.notify .entryStarted
    [u8 (screenCode n), u8 ((h.ctl n).record.current.getD 0), u8 e.tag.code]
  let h4 := if e.startClip = 0 then h3 else h3.offerStartClip n e.startClip
  let h5 := (h4.refreshCountdown n).publish n old
  match e.kind with
  | .play => h5.askShow n { verb := .l, content := e.content }
  | .skip | .hold => if (h5.ctl n).halted then h5 else h5.askShow n { verb := .h, content := 0 }
  | .empty => h5

/-- The current entry begins: in LANE_WAIT under a lane hold, else running at once (R10). -/
def House.beginEntry (n : Screen) (old : Phase) (h : House) : House :=
  if (h.entry n).laneHold ∧ 0 < h.maxLaneHold ∧ 0 < tget h.backlog n then
    ((h.onCtl n fun c =>
      { c with state := .laneWait, waitLeft := some (h.maxLaneHold * 1000), waitSpent := 0 }).refreshCountdown n).publish
        n old
  else h.runEntry n old

/-- The show of an ARMED screen starts (R8 to R10). -/
def House.startShow (n : Screen) (late : Nat) (h : House) : House :=
  match (h.ctl n).running with
  | none => h
  | some d =>
    ((h.notify .showStarted [u8 (screenCode n), u16 d.showId]).onCtl n fun c =>
      { c with record := { c.record with current := some d.start, lateStart := late } }).beginEntry n (h.phase n)

/-- An ARMED AT_TIME show starts if the clock has reached its start time (R9). -/
def House.evalStart (n : Screen) (h : House) : House :=
  match (h.ctl n).state, (h.ctl n).running with
  | .armed, some d =>
    match d.mode with
    | .atTime t => if t.total ≤ h.clock.total then h.startShow n ((h.clock.total - t.total) / 1000) else h
    | .onCommand => h
  | _, _ => h

/-- A waiting LANE_WAIT ends and its entry runs (R11). -/
def House.leaveWait (n : Screen) (h : House) : House := (h.endWait n).runEntry n .gather

/-- The hold timer of LANE_WAIT expires (R11). -/
def House.holdExpired (n : Screen) (h : House) : House :=
  (h.notify .holdExpired [u8 (screenCode n), u8 ((h.ctl n).record.current.getD 0)]).leaveWait n

/-- The Show Controllers are handed the lane backlogs; one in LANE_WAIT whose backlog is 0 goes on (R11, R126). -/
def House.takeBacklogs (b : Vector Nat 4) (h : House) : House :=
  allScreens.foldl
    (fun h n => if (h.ctl n).state = .laneWait ∧ tget h.backlog n = 0 then h.leaveWait n else h)
    { h with backlog := b }

/-! ### The end of a show (R15, R16) -/

/-- The pending show is promoted, or the screen goes to IDLE (R16). -/
def House.promote (n : Screen) (h : House) : House :=
  let old := h.phase n
  match (h.ctl n).waiting with
  | some d =>
    (((h.onCtl n fun c => { (c.armed d) with waiting := none }).refreshCountdown n).publish n old).evalStart n
  | none => ((h.onCtl n fun c => { c with state := .idle }).refreshCountdown n).publish n old

/-- A show completes (R16). -/
def House.complete (n : Screen) (h : House) : House :=
  let h1 := h.onCtl n fun c =>
    { c with record := { c.record with
        outcome := if c.record.faults = 0 then .complete else .completeWithFaults } }
  ((h1.notifyDone n).emptySlot n).promote n

/-- The show's entries are finished: the picture is halted, and then the show completes (R15). -/
def House.finish (n : Screen) (h : House) : House :=
  if (h.line n).showHalt then (h.onCtl n fun c => { c with finalHalt := true }).refreshCountdown n
  else if (h.ctl n).halted then h.complete n
  else ((h.onCtl n fun c => { c with finalHalt := true }).refreshCountdown n).askShow n { verb := .h, content := 0 }

/-- The current entry ends (R15). -/
def House.entryEnd (n : Screen) (h : House) : House :=
  let old := h.phase n
  let i := (h.ctl n).record.current.getD 0
  let h1 := h.onCtl n fun c =>
    { c with
      counting := .off, stallTimer := none, generator := none
      record := { c.record with completed := c.record.completed + 1 } }
  match (h.ctl n).running with
  | none => h1
  | some d =>
    if (h.cue i).last ∨ d.start + d.count ≤ i + 1 then h1.finish n
    else
      (h1.onCtl n fun c => { c with record := { c.record with current := some (i + 1) } }).beginEntry n old

/-! ### STOPPING and faults (R17 to R20) -/

/-- The screen enters STOPPING (R19): the exchange is abandoned, counting stops, a single H is asked for. -/
def House.enterStopping (n : Screen) (outcome : ShowOutcome) (byAbort : Bool) (h : House) : House :=
  let old := h.phase n
  let h1 := (h.abandon n).onCtl n fun c =>
    { c with
      state := .stopping, finalHalt := false, stopAbort := byAbort, stopHaltEnded := false, counting := .off,
      stallTimer := none, timebase := 0, waitLeft := none, waitSpent := 0, generator := none
      record := { c.record with outcome := outcome } }
  ((h1.refreshCountdown n).beginExchange n false false { verb := .h, content := 0 } 1).publish n old

/-- STOPPING ends once its single H has ended and the programme gain is 0 (R19, R20). -/
def House.stoppingCheck (n : Screen) (h : House) : House :=
  let c := h.ctl n
  if c.state = .stopping ∧ c.stopHaltEnded ∧ (h.gain n).gp = 0 then
    let old := h.phase n
    let h1 := h.notifyDone n
    let h2 :=
      if c.stopAbort then (h1.emptySlot n).onCtl n fun c => { c with state := .idle }
      else h1.onCtl n fun c => { c with state := .held, stopHaltEnded := false }
    (h2.refreshCountdown n).publish n old
  else h

/-- A fault is counted and reported (R17). -/
def House.recordFault (n : Screen) (cause : Cause) (h : House) : House :=
  let h1 := h.onCtl n fun c =>
    { c with record := { c.record with
        faults := bumpTo 255 c.record.faults
        firstCause := c.record.firstCause.or (some cause) } }
  h1.notify .screenFault
    ([u8 (screenCode n), u16 (h.ctl n).record.showId, u8 cause.code] ++ uOpt 1 (h.ctl n).record.current)

/-- A show fault, fatal or not, in the state the screen is in (R17). -/
def House.showFault (n : Screen) (fatal : Bool) (cause : Cause) (h : House) : House :=
  let stops : Bool := fatal || (match (h.ctl n).running with
    | some d => decide (d.policy = .stopOnFault)
    | none => true)
  match (h.ctl n).state with
  | .stopping => h.recordFault n cause
  | .showing =>
    let h1 := h.recordFault n cause
    if stops then h1.enterStopping n .stopped false else h1
  | .laneWait => if fatal then ((h.recordFault n cause).endWait n).enterStopping n .stopped false else h
  | _ => h

/-! ### The result of an exchange (R37, R39, R42, R45) -/

/-- The cause of a fault record for a failed exchange (R42); none when it did not fail. -/
def ExchangeEnd.lineCause : ExchangeEnd → Option LineCause
  | .accepted => none
  | .refused => some .refused
  | .noAnswer true => some .garbledLast
  | .noAnswer false => some .noAnswer

/-- The show fault cause of a failed exchange (R18); none when it did not fail. -/
def ExchangeEnd.showCause : ExchangeEnd → Option Cause
  | .accepted => none
  | .refused => some .cueRefused
  | .noAnswer _ => some .cueNoAnswer

/-- A failed exchange fills the empty fault record, or sets its further-faults flag (R42). -/
def House.latch (n : Screen) (x : Exchange) (cause : LineCause) (h : House) : House :=
  let entry := if x.pass then none else (h.ctl n).record.current
  h.onLine n fun l =>
    match l.fault with
    | some f => { l with fault := some { f with further := true } }
    | none =>
      let filled : LineFault :=
        { verb := x.verb, content := if x.verb = .l then x.content else 0, entry := entry, cause := cause,
          attempts := x.used, time := h.clock, further := false }
      { l with fault := some filled }

/-- The picture halted indication after an accepted exchange (R37). -/
def House.noteHalted (n : Screen) (v : Verb) (h : House) : House :=
  match v with
  | .h => h.onCtl n fun c => { c with halted := true }
  | .g => h.onCtl n fun c => { c with halted := false }
  | .l | .q => h

/-- Frame counting of a PLAY starts at its accepted G (R40); in rehearsal the pulse generator starts unless the stall
mark is set (R179). -/
def House.startCounting (n : Screen) (h : House) : House :=
  h.onCtl n fun c =>
    { c with
      counting := .pulses, stallTimer := some Config.stallMs, timebase := 0
      generator := if c.rehearsal ∧ ¬ c.stallMark then some 0 else c.generator }

/-- The result of a show's exchange reaches the Show Controller (R39). -/
def House.showResult (n : Screen) (x : Exchange) (r : ExchangeEnd) (h : House) : House :=
  let c := h.ctl n
  let counted : Bool := c.state = .showing ∧ (h.entry n).kind = .play ∧ ¬ c.finalHalt
  match r.showCause with
  | some cause =>
    if c.state = .stopping then
      ((h.showFault n true cause).onCtl n fun c => { c with stopHaltEnded := true }).stoppingCheck n
    else h.showFault n true cause
  | none =>
    match x.verb with
    | .l => if counted then h.askShow n { verb := .g, content := 0 } else h
    | .g => if counted then h.startCounting n else h
    | .h =>
      if c.state = .stopping then (h.onCtl n fun c => { c with stopHaltEnded := true }).stoppingCheck n
      else if c.state = .showing ∧ c.finalHalt then h.complete n
      else h
    | .q => h

/-- The result of a PROJECTOR PASS; its SCREEN_FAULT carries the screen, the cause, show id absent and entry absent, in
R45's order (log entry 12). -/
def House.passResult (n : Screen) (x : Exchange) (r : ExchangeEnd) (h : House) : House :=
  let h1 := h.notify .passResult (passFields n x r.passCode)
  match r.showCause with
  | some cause =>
    if x.quiet then h1
    else h1.notify .screenFault ([u8 (screenCode n), u8 cause.code, u16 0] ++ uOpt 1 none)
  | none => h1

/-- An exchange ends (R37): latched if it failed, its result handed on, and the waiting request begun. -/
def House.exchangeEnd (n : Screen) (x : Exchange) (r : ExchangeEnd) (h : House) : House :=
  let h1 := h.onLine n fun l => { l with unit := .quiet }
  let h2 := if r = .accepted then h1.noteHalted n x.verb else h1
  let h3 := match r.lineCause with
    | some cause => h2.latch n x cause
    | none => h2
  let h4 := if x.pass then h3.passResult n x r else h3.showResult n x r
  h4.beginWaiting n

/-- An attempt ends without a result (R35, R36). -/
def House.attemptOver (n : Screen) (x : Exchange) (garbled : Bool) (h : House) : House :=
  if x.used < x.allowed then h.onLine n fun l => { l with unit := .backoff x Config.backoffMs }
  else h.exchangeEnd n x (.noAnswer garbled)

/-! ### Received lines (R29, R31, R35, R41) -/

/-- What a received line is (R31). -/
inductive LineForm where
  | done (seq : Nat)
  | refused (seq : Nat)
  | wait (seq : Nat)
  | ended (content : Nat)
  | garbled
  deriving DecidableEq, Repr

/-- The value of a hexadecimal digit 0–9 or A–F in capitals (R30). -/
def hexDigit (b : Nat) : Option Nat :=
  if 0x30 ≤ b ∧ b ≤ 0x39 then some (b - 0x30) else if 0x41 ≤ b ∧ b ≤ 0x46 then some (b - 0x41 + 10) else none

/-- The form of a line that passed the tests of R29 (R31). -/
def lineForm (cs : List Nat) : LineForm :=
  match cs with
  | [v, sp, d] =>
    match hexDigit d with
    | some s =>
      if sp ≠ 0x20 then .garbled
      else if v = 0x44 then .done s else if v = 0x4E then .refused s else if v = 0x57 then .wait s else .garbled
    | none => .garbled
  | [v, sp, a, b, c, d] =>
    match hexDigit a, hexDigit b, hexDigit c, hexDigit d with
    | some w, some x, some y, some z =>
      if v = 0x45 ∧ sp = 0x20 then .ended (((w * 16 + x) * 16 + y) * 16 + z) else .garbled
    | _, _, _, _ => .garbled
  | _ => .garbled

/-- The bytes of a verb line, its carriage return included (R30). -/
def VerbLine.bytes (v : VerbLine) : List Nat :=
  let hex (d : Nat) : Nat := if d < 10 then 0x30 + d else 0x41 + (d - 10)
  let letter : Nat := match v.verb with
    | .l => 0x4C | .g => 0x47 | .h => 0x48 | .q => 0x51
  let content : List Nat := match v.verb with
    | .l => [hex (v.content / 4096 % 16), hex (v.content / 256 % 16), hex (v.content / 16 % 16),
             hex (v.content % 16), 0x20]
    | _ => []
  [letter, 0x20] ++ content ++ [hex (v.seq % 16), 0x0D]

/-- An answer, or a garbled line, is judged in the state of the Cue Line Unit (R35, R36). -/
def House.answer (n : Screen) (f : LineForm) (h : House) : House :=
  match (h.line n).unit, f with
  | .await x _, .done s => if s = x.seq then h.exchangeEnd n x .accepted else h
  | .await x _, .refused s => if s = x.seq then h.exchangeEnd n x .refused else h
  | .await x _, .wait s => if s = x.seq then h.attemptOver n x false else h
  | .await x _, .garbled => h.attemptOver n x true
  | _, _ => h

/-- An ENDED report (R41). -/
def House.endedReport (n : Screen) (content : Nat) (h : House) : House :=
  let c := h.ctl n
  let e := h.entry n
  if c.state = .showing ∧ e.kind = .play ∧ c.counting ≠ .off ∧ content = e.content ∧ c.record.progress < e.length then
    let h1 := h.showFault n false .earlyEnd
    if (h1.ctl n).state = .showing then h1.entryEnd n else h1
  else h

/-- A whole line is handed on (R31). -/
def House.handLine (n : Screen) (f : LineForm) (h : House) : House :=
  match f with
  | .ended content => h.endedReport n content
  | _ => h.answer n f

/-- One character joins the line under construction, or ends it (R29). -/
def House.takeChar (n : Screen) (h : House) (ch : CueChar) : House :=
  let rx := (h.line n).rx
  if ch.byte = 0x0A then h
  else if ch.byte = 0x0D then
    let h1 := h.onLine n fun l => { l with rx := .blank }
    if rx.chars = [] then h1
    else if rx.bad ∨ rx.overlong ∨ ch.framingError then h1.handLine n .garbled
    else h1.handLine n (lineForm rx.chars)
  else
    h.onLine n fun l =>
      { l with rx :=
          if 16 ≤ rx.chars.length then { rx with overlong := true }
          else { rx with chars := rx.chars ++ [ch.byte], bad := rx.bad || ch.framingError || decide (128 ≤ ch.byte) } }

/-! ### Frames, stalls and holds (R12, R13, R18, R40) -/

/-- One frame joins the progress; the entry ends when it reaches the length (R12, R13, R40). -/
def House.addFrame (n : Screen) (h : House) : House :=
  let h1 := h.onCtl n fun c => { c with record := { c.record with progress := c.record.progress + 1 } }
  if (h.entry n).length ≤ (h1.ctl n).record.progress then h1.entryEnd n else h1

/-- A frame pulse reaches the Show Controller (R40). -/
def House.pulse (n : Screen) (h : House) : House :=
  if (h.ctl n).counting = .off then h
  else
    (h.onCtl n fun c => { c with counting := .pulses, stallTimer := some Config.stallMs, timebase := 0 }).addFrame n

/-- A frame of the show's timebase in a stalled PLAY (R40). -/
def House.timebaseFrame (n : Screen) (h : House) : House :=
  if (h.ctl n).counting = .timebase then
    (h.onCtl n fun c => { c with timebase := c.timebase - 1000 }).addFrame n
  else h

/-- A screen is running an entry of a kind. -/
def House.running (h : House) (n : Screen) (k : EntryKind) : Bool :=
  decide ((h.ctl n).state = .showing) && decide ((h.entry n).kind = k) && !(h.ctl n).finalHalt

/-- A frame of the show's timebase in a SKIP (R13). -/
def House.skipFrame (n : Screen) (h : House) : House :=
  if h.running n .skip then (h.onCtl n fun c => { c with timebase := c.timebase - 1000 }).addFrame n else h

/-- A pulse of a rehearsing screen's generator (R179). -/
def House.generatedPulse (n : Screen) (h : House) : House :=
  match (h.ctl n).generator with
  | some g =>
    if (h.ctl n).rehearsal then (h.onCtl n fun c => { c with generator := some (g - 1000) }).pulse n else h
  | none => h

/-- The length of a HOLD has elapsed (R13). -/
def House.holdOver (n : Screen) (h : House) : House :=
  if h.running n .hold then
    (h.onCtl n fun c =>
      { c with
        holdElapsed := (h.entry n).length * 1000
        record := { c.record with progress := (h.entry n).length } }).entryEnd n
  else h

/-- The stall timer runs out (R18, R40). -/
def House.pictureStall (n : Screen) (h : House) : House :=
  if (h.ctl n).counting = .pulses ∧ (h.ctl n).stallTimer ≠ none then
    (h.onCtl n fun c => { c with counting := .timebase, stallTimer := none, timebase := 0 }).showFault
      n false .pictureStall
  else h

/-- A programme silence report reaches the Show Controller (R18). -/
def House.silenceReport (n : Screen) (h : House) : House :=
  let c := h.ctl n
  if c.state = .showing ∧ (h.entry n).kind = .play ∧ (h.entry n).tag = .feature ∧ ¬ c.silentRaised then
    (h.onCtl n fun c => { c with silentRaised := true }).showFault n false .programmeSilent
  else h

/-! ### The cue line's own timers -/

/-- The verb line going out has been sent, its carriage return included (R34). -/
def House.lineSent (n : Screen) (h : House) : House :=
  match (h.line n).sendingLines with
  | [] => h
  | _ :: rest =>
    h.onLine n fun l =>
      { l with
        sendingLines := rest
        unit := match l.unit, rest with
          | .sending x, [] => .await x x.timeout
          | u, _ => u }

/-- The answer timer runs out (R35). -/
def House.answerTimeout (n : Screen) (h : House) : House :=
  match (h.line n).unit with
  | .await x _ => h.attemptOver n x false
  | _ => h

/-- The retry interval has passed (R36). -/
def House.backoffEnd (n : Screen) (h : House) : House :=
  match (h.line n).unit with
  | .backoff x _ => h.attempt n x
  | _ => h

/-- The automatic answer is handed on (R178). -/
def House.autoAnswered (n : Screen) (h : House) : House :=
  match (h.line n).autoDue with
  | some (seq, _) =>
    if (h.ctl n).rehearsal then (h.onLine n fun l => { l with autoDue := none }).answer n (.done seq) else h
  | none => h

/-! ### SHOW ABORT (R20) and SCREEN RESET (R28, R46) -/

/-- SHOW ABORT in LANE_WAIT ends the show's exchanges; a PROJECTOR PASS runs on (R20, R38). -/
def House.endShowExchanges (n : Screen) (h : House) : House :=
  match (h.line n).unit.exchange? with
  | some x => if x.pass then h.onLine n fun l => { l with waitingPlace := none } else h.abandon n
  | none => h.onLine n fun l => { l with waitingPlace := none }

/-- The running slot empties and the screen goes to IDLE, its pending show kept (R20). -/
def House.goIdle (n : Screen) (h : House) : House :=
  let old := h.phase n
  (((h.emptySlot n).onCtl n fun c => { c with state := .idle }).refreshCountdown n).publish n old

/-- An accepted SHOW ABORT (R20). -/
def House.abort (n : Screen) (h : House) : House :=
  let aborted (h : House) : House := h.onCtl n fun c => { c with record := { c.record with outcome := .aborted } }
  match (h.ctl n).state with
  | .armed => ((aborted h).notifyDone n).goIdle n
  | .laneWait => (((aborted (h.endWait n)).endShowExchanges n).notifyDone n).goIdle n
  | .showing => h.enterStopping n .aborted true
  | .stopping => h.onCtl n fun c => { c with stopAbort := true }
  | .held => h.goIdle n
  | .idle => h

/-- SCREEN RESET of the Show Controller and the Cue Line Unit (R28, R46, R184): the shows leave their slots, the
exchange is abandoned, the phase is DARK. -/
def House.resetShow (n : Screen) (h : House) : House :=
  let old := h.phase n
  let h1 := (h.abandon n).emptySlot n
  let h2 := match (h1.ctl n).waiting with
    | some d => h1.dropRefs (h1.startClips d)
    | none => h1
  let h3 := h2.onCtl n fun c =>
    { ShowCtl.reset with rehearsal := c.rehearsal, autoAnswer := c.autoAnswer, stallMark := c.stallMark }
  ((h3.onLine n fun l => { l with fault := none }).publish n old).refreshAdmission n

/-! ### The clock's hand-outs (R26, R146, R198) -/

/-- A whole second of site time: countdowns are recomputed and deferred orders tried (R26, R146). -/
def House.wholeSecond (h : House) : House :=
  House.releaseAll (allScreens.foldl (fun h n => h.refreshCountdown n) h)

/-- A whole minute of site time: the expiry sweep (R156). -/
def House.wholeMinute (h : House) : House := h.expirySweep

/-- The whole second and whole minute that the clock stands on are handed out (R198). -/
def House.clockDue (h : House) : House :=
  let h1 := if h.clock.wholeSecond then h.wholeSecond else h
  if h.clock.wholeMinute then h1.wholeMinute else h1

/-- The late admission window of a screen runs out (R25). -/
def House.lateWindowEnd (n : Screen) (h : House) : House :=
  match (h.row n).admission, (h.ctl n).running, (h.ctl n).record.featureStart with
  | .late, some _, some _ => h.onLot n fun l => { l with admission := false }
  | _, _, _ => h

/-- The start time of an ARMED AT_TIME show is reached (R9). -/
def House.startTimeReached (n : Screen) (h : House) : House :=
  match (h.ctl n).state, (h.ctl n).running with
  | .armed, some d =>
    match d.mode with
    | .atTime t => h.startShow n ((h.clock.total - t.total) / 1000)
    | .onCommand => h
  | _, _ => h

/-- TIME SET: the clock takes a new value, and what reads it is worked out again at that moment: the starts, on screens
1 to 4 one after another, the admission states, and a whole second or minute it lands on (R9, R25, R198; the order is
log entry 33). -/
def House.setClock (t : SiteTime) (h : House) : House :=
  let h1 := { h with clock := t, timeUnset := false }
  House.clockDue
    (allScreens.foldl (fun h n => h.refreshAdmission n) (allScreens.foldl (fun h n => h.evalStart n) h1))

end Machine
end Sys2Proof
end

