-- ==== Sys2Proof/Machine/Lanes.lean ====
section
/-! DEFINITION. The lanes (chapters 5, 7 and 10) and what they ask of the Lot Table (chapter 6): loops and their
debouncing, the arm, grants and their settlement, the entry lane machine, counters and close-outs, and rehearsal. -/

set_option autoImplicit false

namespace Sys2Proof
namespace Machine

/-! ### Loops (R94, R180) -/

/-- The settling timer after the level in force becomes `level`: it starts when the level differs from the debounced
state, and is cancelled when it does not (R94). -/
def Loop.follow (l : Loop) (level : Bool) (debounce : Nat) : Loop :=
  { l with timer := if level = l.occupied then none else l.timer.or (some debounce) }

/-- The loop settles: the debounced state changes (R94). -/
def Loop.settle (l : Loop) : Loop := { l with occupied := !l.occupied, timer := none }

/-- A loop of a lane entering rehearsal (R180). -/
def Loop.rehearse (l : Loop) : Loop := { l with injected := false, occupied := false, timer := none }

/-- A loop of a lane leaving rehearsal takes its raw level, with no event (R182). -/
def Loop.live (l : Loop) : Loop := .settled l.raw

/-! ### The arm (R93, R96, R181) -/

/-- ARMUP as the lane machine reads it (R93, R181). -/
def EntryLane.upSense (l : EntryLane) : Bool := if l.rehearsal then decide (l.sim.position = .up) else l.armUp

/-- ARMDN as the lane machine reads it (R93, R181). -/
def EntryLane.downSense (l : EntryLane) : Bool := if l.rehearsal then decide (l.sim.position = .down) else l.armDn

/-- RAISE as the rules read it: the simulated output of a rehearsing lane (R180). -/
def EntryLane.raised (l : EntryLane) : Bool := if l.rehearsal then l.sim.raise else l.raise

/-- The simulated arm under its raise output (R181). -/
def SimArm.follow (a : SimArm) : SimArm :=
  if a.held then a
  else if a.raise then
    match a.position with
    | .down | .falling => { a with position := .rising, travel := some Config.armTravelMs }
    | .rising | .up => a
  else
    match a.position with
    | .up | .rising => { a with position := .falling, travel := some Config.armTravelMs }
    | .falling | .down => a

/-- The raise output takes a level (R96, R180). -/
def EntryLane.setRaise (l : EntryLane) (level : Bool) : EntryLane :=
  if l.rehearsal then
    if l.sim.raise = level then l else { l with sim := { l.sim with raise := level }.follow }
  else { l with raise := level }

/-- RAISE follows the raise demand, and is released only over a vacant clear loop (R96); in LOWERING the release starts
the arm timer (R107). -/
def EntryLane.drive (l : EntryLane) : EntryLane :=
  if l.demand then l.setRaise true
  else if l.clear.occupied then l
  else
    let l1 := l.setRaise false
    if l.raised ∧ l.state = .lowering then { l1 with armTimer := some (l.settings.armTimeout * 1000) } else l1

/-! ### The state of a lane -/

/-- Entry lane `k`. -/
def State.lane (s : State) (k : EntryId) : EntryLane := tget s.lanes k

/-- Changes one entry lane. -/
def State.onLane (k : EntryId) (f : EntryLane → EntryLane) (s : State) : State := { s with lanes := tmod s.lanes k f }

/-- Exit lane `j`. -/
def State.exitLane (s : State) (j : ExitId) : ExitLane := tget s.exits j

/-- Changes one exit lane. -/
def State.onExit (j : ExitId) (f : ExitLane → ExitLane) (s : State) : State := { s with exits := tmod s.exits j f }

/-- Changes the house. -/
def State.onHouse (f : House → House) (s : State) : State := { s with house := f s.house }

/-- All six entry lanes. -/
def allLanes : List EntryId := [0, 1, 2, 3, 4, 5]

/-- The lane counts toward a screen's backlog (R126). -/
def EntryLane.countsFor (l : EntryLane) (n : Screen) : Bool :=
  match l.settings.map with
  | some m => decide (m = n ∧ (l.state = .waiting ∨ l.state = .raising ∨ l.state = .passing))
  | none =>
    match l.grant with
    | some g => decide (g.screen = n)
    | none => false

/-- The four lane backlogs (R126). -/
def State.backlogs (s : State) : Vector Nat 4 :=
  Vector.ofFn fun n => allLanes.countP fun k => (s.lane k).countsFor n

/-- The backlogs are worked out afresh and handed to the Show Controllers (R126). -/
def State.reportBacklog (s : State) : State := s.onHouse (House.takeBacklogs s.backlogs)

/-- A lane state or grant change, reported to the Lot Table (R97). -/
def State.moveLane (k : EntryId) (f : EntryLane → EntryLane) (s : State) : State := (s.onLane k f).reportBacklog

/-- An event is counted by the Lane Counters (R131). -/
def State.count (k : EntryId) (f : Counters → Counters) (s : State) : State :=
  s.onLane k fun l => { l with counters := f l.counters }

/-- One more on a lane counter, holding at 65,535 (R130). -/
def rise (n : Nat) : Nat := bumpTo 65535 n

/-- A vehicle enters the lot by a lane: the present count rises, but for a rehearsing lane (R127, R182). -/
def State.enterVehicle (k : EntryId) (s : State) : State :=
  if (s.lane k).rehearsal then s else { s with present := rise s.present }

/-! ### Close-out (R135, R136) -/

/-- A counter with its saturated flag (R130). -/
def counterFields (v : Nat) : List Field := [u16 v, uBool (v = 65535)]

/-- The eleven counters, each with its flag, in the order of R130. -/
def Counters.fields (c : Counters) : List Field :=
  [c.arrivals, c.grants, c.admitted, c.attendant, c.backouts, c.lapses, c.tailgates, c.refusals, c.leftUnpaid,
   c.unpaid, c.armFaults].flatMap counterFields

/-- A verdict (R135): the counts of EXTRA_VEHICLES and UNSEEN_PASSES, 0 for a finding not made, and the saturated
mark. Both 0 is BALANCED. -/
structure Verdict where
  extra : Nat
  unseen : Nat
  saturated : Bool
  deriving DecidableEq, Repr

/-- The verdict of a lane's counters (R135). -/
def Counters.verdict (c : Counters) : Verdict :=
  { extra := c.tailgates + c.unpaid, unseen := c.attendant,
    saturated := c.tailgates = 65535 ∨ c.unpaid = 65535 ∨ c.attendant = 65535 }

/-- A verdict's findings as a list (R135, R136; log entry 12). -/
def Verdict.fields (v : Verdict) : List Field :=
  let findings : List (List Field) :=
    if v.extra = 0 ∧ v.unseen = 0 then [[u8 1]]
    else (if v.extra = 0 then [] else [[u8 2, u24 v.extra]]) ++ (if v.unseen = 0 then [] else [[u8 3, u16 v.unseen]])
  u8 findings.length :: findings.flatten ++ [uBool v.saturated]

/-- A close takes effect (R111): the lane is CLOSED, and its close-out is made (R135, R136). -/
def State.closeLane (k : EntryId) (s : State) : State :=
  let s1 := s.moveLane k fun l =>
    { l with state := .closed, closePending := false, refused := false, armTimer := none, passTimer := none }
  let c := (s1.lane k).counters
  s1.onHouse fun h =>
    h.notify .laneClosed
      (u8 (entryCode k) :: (c.verdict.fields ++ uTime (some h.clock) ++ uTime c.clearedAt ++ c.fields))

/-! ### Visits (R98, R99) -/

/-- An arrival: the lane enters WAITING (R98, R99, R107). -/
def State.arrival (k : EntryId) (s : State) : State :=
  ((s.count k fun c => { c with arrivals := rise c.arrivals }).moveLane k fun l =>
      { l with state := .waiting, refused := false, armTimer := none, passTimer := none }).onHouse
    (House.notify .vehicleWaiting [u8 (entryCode k)])

/-- The lane enters IDLE, and a pending close takes effect (R99, R111). -/
def State.reachIdle (k : EntryId) (s : State) : State :=
  let s1 := s.moveLane k fun l => { l with state := .idle, refused := false, armTimer := none, passTimer := none }
  if (s1.lane k).closePending then s1.closeLane k else s1

/-- The waiting car leaves: a refusal, or a car left unpaid (R99). -/
def State.visitEnd (k : EntryId) (s : State) : State :=
  let marked := (s.lane k).refused
  (s.count k fun c =>
    if marked then { c with refusals := rise c.refusals } else { c with leftUnpaid := rise c.leftUnpaid }).reachIdle k

/-! ### Stalls of grants (R120, R121) -/

/-- The first FREE stall of an ANY request: rows in fill order, lowest position first (R120). -/
def Lot.anyStall (l : Lot) : Option (Nat × Nat) :=
  l.fill.findSome? fun row =>
    ((l.rows.getD (row - 1) []).findIdx? fun x => decide (x.state = .free)).map fun i => (row, i + 1)

/-- The stall that a request gets on a screen, or the refusal (R120). -/
def House.judgeStall (h : House) (n : Screen) (request : Option (Nat × Nat)) : Except Status (Nat × Nat) :=
  let l := h.lot n
  if ¬ l.admission then .error .closed
  else if l.capacity ≤ l.occupancy then .error .full
  else
    match request with
    | none =>
      match l.anyStall with
      | some p => .ok p
      | none => .error .full
    | some p =>
      match h.stall? n p.1 p.2 with
      | some x => if x.state = .free then .ok p else .error .taken
      | none => .error .taken

/-- A stall becomes ASSIGNED to a lane (R120). -/
def House.assignStall (n : Screen) (p : Nat × Nat) (party : Nat) (k : EntryId) (h : House) : House :=
  (h.onStall n p.1 p.2 fun x =>
    { x with state := .assigned, party := party, lane := some k, admitTime := none }).refreshFull n

/-- The stall of a passing grant becomes ADMITTED (R121). -/
def House.admitStall (g : Grant) (h : House) : House :=
  h.onStall g.screen g.row g.position fun x => { x with state := .admitted, admitTime := some h.clock }

/-- The stall of a grant that came to nothing becomes FREE (R121). -/
def House.freeStall (g : Grant) (h : House) : House :=
  (h.onStall g.screen g.row g.position fun _ => .vacant).refreshFull g.screen

/-- The screen and stall of a grant, as the lane notices carry them (R103 to R105). -/
def Grant.fields (g : Grant) : List Field :=
  [u8 (screenCode g.screen), u8 (screenCode g.screen), u8 g.row, u8 g.position]

/-! ### LOWERING (R107) -/

/-- ARMDN ends LOWERING (R107). -/
def State.lowered (k : EntryId) (s : State) : State :=
  let l := s.lane k
  if l.closePending then s.closeLane k
  else if l.arrive.occupied then s.arrival k
  else s.reachIdle k

/-- ARMDN is looked at in LOWERING while RAISE is released (R93, R107). -/
def State.lookDown (k : EntryId) (s : State) : State :=
  let l := s.lane k
  if l.state = .lowering ∧ ¬ l.raised ∧ l.downSense then s.lowered k else s

/-- The lane without its grant, in LOWERING with the demand off (R103 to R106). -/
def EntryLane.lower (l : EntryLane) : EntryLane :=
  { l with
    state := .lowering, grant := none, refused := false, demand := false, armTimer := none,
    passTimer := none }.drive

/-- Kinds of a pass (R103, R106). -/
inductive PassKind where
  | loop | attendant
  deriving DecidableEq, Repr

/-- The code of a kind of pass, in the order of R103 and R106. -/
def PassKind.code : PassKind → Nat
  | .loop => 1 | .attendant => 2

/-- A loop pass or an attendant pass settles the grant (R97, R103, R106). -/
def State.passGrant (k : EntryId) (kind : PassKind) (s : State) : State :=
  match (s.lane k).grant with
  | none => s
  | some g =>
    let s1 := (s.onHouse (House.admitStall g)).count k fun c =>
      match kind with
      | .loop => { c with admitted := rise c.admitted }
      | .attendant => { c with attendant := rise c.attendant }
    let s2 := (s1.enterVehicle k).moveLane k EntryLane.lower
    (s2.onHouse
      (House.notify .passed (u8 (entryCode k) :: (g.fields ++ [u16 g.party, u8 kind.code])))).lookDown k

/-- A backout settles the grant (R104). -/
def State.backout (k : EntryId) (s : State) : State :=
  match (s.lane k).grant with
  | none => s
  | some g =>
    let s1 := (s.onHouse (House.freeStall g)).count k fun c => { c with backouts := rise c.backouts }
    ((s1.moveLane k EntryLane.lower).onHouse
      (House.notify .backout (u8 (entryCode k) :: g.fields))).lookDown k

/-- The grant lapses on the pass timeout (R105). -/
def State.lapse (k : EntryId) (s : State) : State :=
  match (s.lane k).grant with
  | none => s
  | some g =>
    let s1 := (s.onHouse (House.freeStall g)).count k fun c => { c with lapses := rise c.lapses }
    ((s1.moveLane k EntryLane.lower).onHouse
      (House.notify .lapse (u8 (entryCode k) :: (g.fields ++ [uBool g.seen])))).lookDown k

/-! ### RAISING and PASSING (R102, R103) -/

/-- The lane enters PASSING and looks at what RAISING left (R102, R103). -/
def State.enterPassing (k : EntryId) (s : State) : State :=
  let s1 := s.moveLane k fun l =>
    { l with state := .passing, armTimer := none, passTimer := some (l.settings.passTimeout * 1000) }
  let l := s1.lane k
  let seen : Bool := match l.grant with
    | some g => g.seen
    | none => false
  if seen ∧ ¬ l.clear.occupied then s1.passGrant k .loop
  else if ¬ seen ∧ ¬ l.arrive.occupied then s1.backout k
  else s1

/-- ARMUP is looked at in RAISING (R93, R102). -/
def State.lookUp (k : EntryId) (s : State) : State :=
  let l := s.lane k
  if l.state = .raising ∧ l.upSense then s.enterPassing k else s

/-- The senses are looked at after anything that may bring one. -/
def State.lookArm (k : EntryId) (s : State) : State := (s.lookUp k).lookDown k

/-- The lane takes a grant and raises its arm (R101, R102). -/
def State.takeGrant (k : EntryId) (n : Screen) (p : Nat × Nat) (party : Nat) (s : State) : State :=
  let s1 := (s.onHouse (House.assignStall n p party k)).count k fun c => { c with grants := rise c.grants }
  let g : Grant :=
    { screen := n, row := p.1, position := p.2, party := party, time := s.house.clock, seen := false }
  (s1.moveLane k fun l =>
    EntryLane.drive
      { l with
        state := .raising, refused := false, grant := some g, demand := true
        armTimer := some (l.settings.armTimeout * 1000) }).lookUp k

/-- The arm has jammed (R110). -/
def State.jam (k : EntryId) (s : State) : State :=
  let l := s.lane k
  let s1 := match l.grant with
    | some g => (s.onHouse (House.freeStall g)).count k fun c => { c with lapses := rise c.lapses }
    | none => s
  let s2 := s1.count k fun c => { c with armFaults := rise c.armFaults }
  let s3 := s2.moveLane k fun l =>
    EntryLane.drive
      { l with
        state := .jammed, grant := none, refused := false, demand := false, armTimer := none, passTimer := none }
  let stall : List Field := match l.grant with
    | some g => [u8 1, u8 (screenCode g.screen), u8 g.row, u8 g.position]
    | none => [u8 0, u8 0, u8 0, u8 0]
  s3.onHouse (House.notify .armFault ([u8 (entryCode k), u8 l.state.code] ++ stall))

/-! ### What the loops bring (R99, R102 to R104, R108, R109) -/

/-- The arrival loop has settled (R99, R103, R104). -/
def State.arriveEvent (k : EntryId) (s : State) : State :=
  let l := s.lane k
  match l.state, l.arrive.occupied with
  | .idle, true => s.arrival k
  | .waiting, false => s.visitEnd k
  | .passing, false =>
    match l.grant with
    | some g => if g.seen then s else s.backout k
    | none => s
  | _, _ => s

/-- A clear loop occupancy with no grant and no arm raised (R109). -/
def State.unpaidCrossing (k : EntryId) (s : State) : State :=
  let state := (s.lane k).state
  ((s.count k fun c => { c with unpaid := rise c.unpaid }).enterVehicle k).onHouse
    (House.notify .unpaidCrossing [u8 (entryCode k), u8 state.code])

/-- A clear loop occupancy in LOWERING (R108). -/
def State.tailgate (k : EntryId) (s : State) : State :=
  let s1 := (s.count k fun c => { c with tailgates := rise c.tailgates }).enterVehicle k
  (s1.onLane k fun l => EntryLane.drive { l with demand := true, armTimer := none }).onHouse
    (House.notify .tailgate [u8 (entryCode k)])

/-- The clear loop has settled (R96, R102, R103, R107 to R109). -/
def State.clearEvent (k : EntryId) (s : State) : State :=
  let l := s.lane k
  match l.state, l.clear.occupied with
  | .raising, true | .passing, true =>
    s.onLane k fun l => { l with grant := l.grant.map fun g => { g with seen := true } }
  | .lowering, true => s.tailgate k
  | .closed, true | .idle, true | .waiting, true | .jammed, true => s.unpaidCrossing k
  | .passing, false =>
    match l.grant with
    | some g => if g.seen then s.passGrant k .loop else s
    | none => s
  | .lowering, false => (s.onLane k fun l => EntryLane.drive { l with demand := false }).lookDown k
  | _, false => s.onLane k EntryLane.drive

/-! ### Settling (R94, R112) -/

/-- The arrival loop's settling timer runs out (R94). -/
def State.arriveSettles (k : EntryId) (s : State) : State :=
  if (s.lane k).arrive.timer = none then s
  else (s.onLane k fun l => { l with arrive := l.arrive.settle }).arriveEvent k

/-- The clear loop's settling timer runs out (R94). -/
def State.clearSettles (k : EntryId) (s : State) : State :=
  if (s.lane k).clear.timer = none then s
  else (s.onLane k fun l => { l with clear := l.clear.settle }).clearEvent k

/-- An exit loop's settling timer runs out: a vehicle is noted, or one exit counted (R112, R127). -/
def State.exitSettles (j : ExitId) (s : State) : State :=
  let x := s.exitLane j
  if x.loop.timer = none then s
  else
    let y := { x with loop := x.loop.settle }
    if y.loop.occupied then s.onExit j fun _ => { y with noted := true }
    else if y.noted then
      { s with present := s.present - 1 }.onExit j fun _ => { y with noted := false, exits := rise y.exits }
    else s.onExit j fun _ => y

/-- The raw level of a loop input changes (R94); a rehearsing lane does not read it (R180). -/
def State.loopRaw (loop : LoopId) (level : Bool) (s : State) : State :=
  match loop with
  | .arrive k =>
    s.onLane k fun l =>
      let x := { l.arrive with raw := level }
      { l with arrive := if l.rehearsal then x else x.follow level l.settings.debounce }
  | .clear k =>
    s.onLane k fun l =>
      let x := { l.clear with raw := level }
      { l with clear := if l.rehearsal then x else x.follow level l.settings.debounce }
  | .exit j => s.onExit j fun x => { x with loop := { x.loop with raw := level }.follow level x.debounce }

/-- The level of ARMUP changes; an asserted sense acts at once (R93, R102). -/
def State.armUpLevel (k : EntryId) (level : Bool) (s : State) : State :=
  let s1 := s.onLane k fun l => { l with armUp := level }
  if level ∧ ¬ (s.lane k).rehearsal then s1.lookUp k else s1

/-- The level of ARMDN changes; an asserted sense acts at once (R93, R107). -/
def State.armDownLevel (k : EntryId) (level : Bool) (s : State) : State :=
  let s1 := s.onLane k fun l => { l with armDn := level }
  if level ∧ ¬ (s.lane k).rehearsal then s1.lookDown k else s1

/-- The arm timer runs out (R102, R107, R110). -/
def State.armTimeout (k : EntryId) (s : State) : State :=
  if (s.lane k).armTimer = none then s
  else
    match (s.lane k).state with
    | .raising | .lowering => s.jam k
    | _ => s

/-- The pass timer runs out (R105). -/
def State.passTimeout (k : EntryId) (s : State) : State :=
  if (s.lane k).passTimer = none ∨ (s.lane k).state ≠ .passing then s else s.lapse k

/-! ### Rehearsal (R180 to R182) -/

/-- A simulated arm's travel ends (R181). -/
def SimArm.arrive (a : SimArm) : SimArm :=
  match a.travel, a.position with
  | some _, .rising => { a with position := .up, travel := none }
  | some _, .falling => { a with position := .down, travel := none }
  | _, _ => a

/-- HOLD of INJECT JAM (R181). -/
def SimArm.hold (a : SimArm) : SimArm := if a.held then a else { a with held := true, travel := none }

/-- FREE of INJECT JAM: the arm travels toward the position the raise output calls for (R181). -/
def SimArm.free (a : SimArm) : SimArm :=
  if a.held then
    let b := { a with held := false }
    if b.raise then
      if b.position = .up then b else { b with position := .rising, travel := some Config.armTravelMs }
    else if b.position = .down then b
    else { b with position := .falling, travel := some Config.armTravelMs }
  else a

/-- The travel of a rehearsing lane's simulated arm ends, and its senses are looked at (R181). -/
def State.armTravelEnd (k : EntryId) (s : State) : State :=
  if (s.lane k).rehearsal then (s.onLane k fun l => { l with sim := l.sim.arrive }).lookArm k else s

/-- A lane enters rehearsal (R180). -/
def EntryLane.enterRehearsal (l : EntryLane) : EntryLane :=
  { l with
    rehearsal := true, sim := .initial, raise := false, arrive := l.arrive.rehearse, clear := l.clear.rehearse }

/-- A lane leaves rehearsal: its counters are cleared, and its physical inputs read again (R182). -/
def EntryLane.leaveRehearsal (l : EntryLane) : EntryLane :=
  { l with
    rehearsal := false, sim := .initial, counters := .zero, arrive := l.arrive.live, clear := l.clear.live }

/-! ### SITE RESET (R113, R137, R184) -/

/-- An entry lane after SITE RESET. -/
def EntryLane.siteReset (l : EntryLane) : EntryLane :=
  let l1 := if l.rehearsal then l.leaveRehearsal else l
  EntryLane.drive
    { l1 with
      state := .closed, closePending := false, refused := false, grant := none, settings := .initial,
      demand := false, armTimer := none, passTimer := none, counters := .zero }

/-- An exit lane after SITE RESET. -/
def ExitLane.siteReset (x : ExitLane) : ExitLane := { x with debounce := 150, exits := 0, clearedAt := none }

/-! ### The lane block of a reply (R93, R133) -/

/-- The fields of a grant in flight, behind a presence byte: its screen, its stall as screen, row and position, and the
rest in R97's order (R93, R97, R196). -/
def grantFields : Option Grant → List Field
  | some g =>
    [u8 1, u8 (screenCode g.screen), u8 (screenCode g.screen), u8 g.row, u8 g.position, u16 g.party]
      ++ uTime (some g.time) ++ [uBool g.seen]
  | none => [u8 0, u8 0, u8 0, u8 0, u8 0, u16 0, u16 0, u32 0, u8 0]

/-- The code of a lane's map: 0 for SHARED, else the screen (R95; log entry 12). -/
def mapCode : Option Screen → Nat
  | some n => screenCode n
  | none => 0

/-- What every reply to a request naming an entry lane returns (R93). -/
def EntryLane.block (l : EntryLane) : List Field :=
  [u8 l.state.code, uBool l.closePending, uBool l.refused] ++ grantFields l.grant
    ++ [u8 (mapCode l.settings.map), u32 l.settings.debounce, u8 l.settings.armTimeout, u16 l.settings.passTimeout,
        u8 (loopCode l.arrive.occupied), u8 (loopCode l.clear.occupied), uBool l.upSense, uBool l.downSense,
        uBool l.raised]

end Machine
end Sys2Proof
end

