-- ==== Sys2Proof/Machine/Memory.lean ====
section
/-! DEFINITION. The clip pages of the audio DRAM (R49, R68 to R71): bytes at addresses, clip samples at their place in
a clip's pages, and the free pages of the clip region. -/

set_option autoImplicit false

namespace Sys2Proof
namespace Machine

/-- What an address that is not listed reads as: a clip sample never written counts as 0 (R69, log entry 13). -/
def unlistedByte : Byte := 0

/-- The canonical form: addresses strictly rising, and no byte listed that an unlisted address reads as. -/
def Memory.wf : Memory → Bool
  | [] => true
  | [c] => decide (c.2 ≠ unlistedByte)
  | c :: d :: rest => decide (c.2 ≠ unlistedByte) && decide (c.1 < d.1) && Memory.wf (d :: rest)

/-- The byte at an address. -/
def readByte (m : Memory) (a : Nat) : Byte :=
  match m with
  | [] => unlistedByte
  | c :: rest => if c.1 = a then c.2 else readByte rest a

/-- Writes a byte, keeping the canonical form. -/
def writeByte (m : Memory) (a : Nat) (b : Byte) : Memory :=
  match m with
  | [] => if b = unlistedByte then [] else [(a, b)]
  | c :: rest =>
    if c.1 < a then c :: writeByte rest a b
    else if c.1 = a then if b = unlistedByte then rest else (a, b) :: rest
    else if b = unlistedByte then c :: rest else (a, b) :: c :: rest

/-- The page an address lies in (R49). -/
def pageOf (a : Nat) : Nat := a / Config.pageBytes

/-- Every byte of the given pages counts as never written (R69). -/
def erasePages (m : Memory) (pages : List Nat) : Memory := m.filter fun c => !pages.contains (pageOf c.1)

/-! ### Clip samples (R68) -/

/-- The address of the first byte of sample `i` of a clip with these pages (R68). -/
def sampleAddress (pages : List Nat) (i : Nat) : Nat :=
  pages.getD (i / Config.pageSamples) 0 * Config.pageBytes + 2 * (i % Config.pageSamples)

/-- The two's complement bits of a clip sample, as a number below 65,536 (R197). -/
def sampleBits (v : Int) : Nat := (v % 65536).toNat

/-- The signed value of 16 bits (R53). -/
def sampleValue (n : Nat) : Int := if n < 32768 then n else (n : Int) - 65536

/-- Writes one sample, high byte first (R70, R71). -/
def writeSample (m : Memory) (pages : List Nat) (i : Nat) (v : Int) : Memory :=
  let a := sampleAddress pages i
  writeByte (writeByte m a (BitVec.ofNat 8 (sampleBits v / 256))) (a + 1) (BitVec.ofNat 8 (sampleBits v % 256))

/-- The 16 bits of one sample. -/
def readSampleBits (m : Memory) (pages : List Nat) (i : Nat) : Nat :=
  let a := sampleAddress pages i
  (readByte m a).toNat * 256 + (readByte m (a + 1)).toNat

/-- One sample (R53). -/
def readSample (m : Memory) (pages : List Nat) (i : Nat) : Int := sampleValue (readSampleBits m pages i)

/-- Writes samples at consecutive positions from `i` on, in the order sent (R70). -/
def writeSamples (m : Memory) (pages : List Nat) (i : Nat) : List Int → Memory
  | [] => m
  | v :: vs => writeSamples (writeSample m pages i v) pages (i + 1) vs

/-- The CRC of a clip: over its samples in order, high byte first (R71). -/
def clipCrc (m : Memory) (pages : List Nat) (length : Nat) : Nat :=
  (List.range length).foldl
    (fun c i => crcByte (crcByte c (readSampleBits m pages i / 256)) (readSampleBits m pages i % 256)) 0xFFFF

/-! ### The page map (R49, R69) -/

/-- The pages of the clip region under a partition, lowest first (R49). -/
def clipRegion (units : Nat) : List Nat :=
  List.range' (Config.unitPages * units) (Config.dramPages - Config.unitPages * units)

/-- The free pages of the clip region, lowest first (R49). -/
def House.freePages (h : House) (units : Nat) : List Nat :=
  let held := h.heldPages
  (clipRegion units).filter fun p => !held.contains p

/-- The pages a clip of a length needs (R69). -/
def pagesNeeded (length : Nat) : Nat := ceilDiv length Config.pageSamples

end Machine
end Sys2Proof
end

