-- ==== Sys2Proof/Machine/Audio.lean ====
section
/-! DEFINITION. The Programme Mix Engine (chapter 3) with the players' clip samples (R53, R88): one sample frame, one
block start and one block end of the four channel pairs and the booth monitor. -/

set_option autoImplicit false

namespace Sys2Proof
namespace Machine

/-- Channel pair `n`. -/
def State.channel (s : State) (n : Screen) : Channel := tget s.channels n

/-- Changes one channel pair. -/
def State.onChannel (n : Screen) (f : Channel → Channel) (s : State) : State :=
  { s with channels := tmod s.channels n f }

/-! ### Settings (R48, R51, R52) -/

/-- The largest delay under a partition: C − 1, or 0 when C is 0 (R51). -/
def largestDelay (units : Nat) : Nat := units * Config.unitFrames - 1

/-- The settings that the requests taken so far leave (R48). -/
def Channel.latest (c : Channel) : MixSettings :=
  c.staged.getD (match c.stagedReset with
    | some .site | some .both => .initial
    | some .screen | none => c.settings)

/-- The partition that the requests taken so far leave (R51). -/
def State.latestUnits (s : State) : Nat := s.stagedUnits.getD s.units

/-- A channel pair under an accepted change of the partition: its delay is clamped and its delay line zeroed, from the
next block start (R51). -/
def Channel.repartition (units : Nat) (c : Channel) : Channel :=
  { c with staged := some { c.latest with delay := min c.latest.delay (largestDelay units) }, stagedZero := true }

/-- Settings with the delay clamped to a partition (R51). -/
def MixSettings.clamp (units : Nat) (m : MixSettings) : MixSettings := { m with delay := min m.delay (largestDelay units) }

/-! ### The mix (R50, R53 to R55) -/

/-- The delay line after a frame is written (R50). -/
def writeLine (capacity : Nat) (p : StereoFrame) (line : List StereoFrame) : List StereoFrame :=
  (p :: line).take capacity

/-- The frame read from the delay line just written (R50). -/
def readLine (capacity delay : Nat) (p : StereoFrame) (line : List StereoFrame) : StereoFrame :=
  if capacity = 0 then p else line.getD delay .zero

/-- The result of one channel's sample: output, residue, and whether it saturated (R54, R55). -/
structure Mixed where
  out : Int
  residue : Int
  saturated : Bool
  deriving DecidableEq, Repr

/-- The mix of one sample (R54, R55). -/
def mixSample (p : Int) (gp : Nat) (a : Int) (ga : Nat) (r : Int) : Mixed :=
  let t := p * gp + a * ga + r
  let o := t / 32768
  if 8388607 < o then { out := 8388607, residue := 0, saturated := true }
  else if o < -8388608 then { out := -8388608, residue := 0, saturated := true }
  else { out := o, residue := t - o * 32768, saturated := false }

/-- The clip a player is playing, when PLAYING (R53, R88). -/
def House.playingClip (h : House) (n : Screen) : Option ClipRec :=
  match (h.player n).state, h.heldAnn n with
  | .playing, some a => some (h.clip (a.clips.getD (a.position - 1) 0))
  | _, _ => none

/-- The clip sample that enters a screen's mix in this frame: the player's, or what a SITE RESET leaves to the block in
progress (R53, R67, R88). -/
def State.clipSample (s : State) (n : Screen) : Option Int :=
  match (s.channel n).tail with
  | some t => some (readSample s.dram t.pages t.sample)
  | none => (s.house.playingClip n).map fun c => readSample s.dram c.pages (s.house.player n).sample

/-- The tail after a frame: it ends with its clip (R67, R88). -/
def ClipTail.next (t : ClipTail) : Option ClipTail :=
  if t.length ≤ t.sample + 1 then none else some { t with sample := t.sample + 1 }

/-- One channel pair through one sample frame: `capacity` is C, `gp` the gain, `clip` the player's sample (R47, R50,
R53 to R55). -/
def Channel.frame (capacity gp : Nat) (clip : Option Int) (pgm : StereoFrame) (c : Channel) : Channel :=
  let full : Bool := c.inFrames.length = Config.blockFrames
  let incoming : StereoFrame := if full then c.inFrames.headD .zero else .zero
  let line := writeLine capacity incoming c.line
  let p := readLine capacity c.settings.delay incoming line
  let a : Int := (clip.getD 0) * 256
  let ga : Nat := if clip = none then 0 else c.level
  let l := mixSample p.left gp a ga c.residueL
  let r := mixSample p.right gp a ga c.residueR
  let sending : Bool := c.outFrames.length = Config.blockFrames
  { c with
    line := line
    inFrames := (if full then c.inFrames.drop 1 else c.inFrames) ++ [pgm]
    outFrames := (if sending then c.outFrames.drop 1 else c.outFrames) ++ [{ left := l.out, right := r.out }]
    fmx := if sending then c.outFrames.headD .zero else .zero
    tail := c.tail.bind ClipTail.next
    residueL := l.residue
    residueR := r.residue
    peakIn := max c.peakIn (max p.left.natAbs p.right.natAbs)
    peakOut := max c.peakOut (max l.out.natAbs r.out.natAbs)
    clips := c.clips + (if l.saturated then 1 else 0) + (if r.saturated then 1 else 0) }

/-- The capacity C of each delay line (R49). -/
def State.capacity (s : State) : Nat := s.units * Config.unitFrames

/-- The player of a screen after a frame: a clip sample was mixed, or a frame of a GAP has passed (R88, R89). -/
def House.advancePlayer (n : Screen) (h : House) : House :=
  let p := h.player n
  match p.state, h.heldAnn n with
  | .playing, some a =>
    let clip := h.clip (a.clips.getD (a.position - 1) 0)
    let h1 := h.onPlayer n fun p => { p with sample := p.sample + 1 }
    if clip.length ≤ p.sample + 1 then h1.endClip n else h1
  | .playing, none => h.endClip n
  | .gap, _ =>
    let h1 := h.onPlayer n fun p => { p with gapLeft := p.gapLeft - 1 }
    if p.gapLeft ≤ 1 then h1.endGap n else h1
  | _, _ => h

/-- One sample frame on every audio port (R47, R54, R64). Players whose clips end at the same frame go on one after
another, screens 1 to 4 (log entry 35). -/
def State.sampleFrame (pgm : Vector StereoFrame 4) (s : State) : State :=
  let channels := Vector.ofFn fun n =>
    (s.channel n).frame s.capacity (s.house.gain n).gp (s.clipSample n) (tget pgm n)
  let mon := match s.monitor with
    | some n => (tget channels n).fmx
    | none => .zero
  { s with
    channels := channels
    mon := mon
    house := allScreens.foldl (fun h n => h.advancePlayer n) s.house }

/-! ### Block start (R48, R56 to R58, R66) -/

/-- gp moves toward its target by at most a step (R57). -/
def moveGain (gp target step : Nat) : Nat :=
  if target ≤ gp then if gp - target ≤ step then target else gp - step
  else if target - gp ≤ step then target else gp + step

/-- The player is ducked: DUCKING, PLAYING or GAP (R56). -/
def PlayerState.ducked : PlayerState → Bool
  | .ducking | .playing | .gap => true
  | .idle | .release => false

/-- The gain target and step of a block (R56). -/
def House.gainTarget (h : House) (n : Screen) (m : MixSettings) : Nat × Nat :=
  if h.fade n then (0, m.fade)
  else if (h.player n).state.ducked then ((h.row n).duck, m.duck)
  else (Config.unity, m.release)

/-- A channel pair cleared by a reset. The clip count of the last block, which belongs to the CLIPPED flag, goes to 0
with it (R66; log entry 34). -/
def Channel.cleared (c : Channel) : Channel :=
  { c with
    residueL := 0, residueR := 0, line := [], silent := false, hot := false, clipped := false, lastClips := 0,
    summary := false }

/-- What takes effect on a channel pair at a block start: a reset, new settings, a zeroing, and a fresh block (R48,
R50, R52, R55, R66). -/
def Channel.startBlock (c : Channel) : Channel :=
  let c1 := match c.stagedReset with
    | some .screen => c.cleared
    | some .site | some .both => { c.cleared with settings := .initial }
    | none => c
  { c1 with
    settings := c.staged.getD c1.settings
    line := if c.stagedZero then [] else c1.line
    staged := none, stagedReset := none, stagedZero := false, tail := none, peakIn := 0, peakOut := 0, clips := 0 }

/-- What a reset of the channel pair does to the gain, the queue and the player (R66, R91, R158). -/
def House.startBlockReset (n : Screen) (r : Option StagedReset) (h : House) : House :=
  match r with
  | some .screen | some .both => ((h.onGain n fun _ => .reset).clearQueue n).rescheduleCalls n
  | some .site => h.onGain n fun _ => .reset
  | none => h

/-- The level latched for the block: the class level of the announcement the player holds; with none held the manual
states no value, and it is a free one (R53, log entry 9). -/
def House.latchedLevel (h : House) (n : Screen) (draw : Nat) : Nat :=
  match h.heldAnn n with
  | some a => (h.classRow a.cls).level
  | none => (Config.unlatchedLevel draw).val

/-- The gain reports of a block start (R58, R87, R90). -/
def House.gainReports (n : Screen) (target : Nat) (h : House) : House :=
  let gp := (h.gain n).gp
  let h1 :=
    if (h.player n).state = .ducking ∧ gp ≤ (h.row n).duck then (h.startClip n).settleQueue n
    else if (h.player n).state = .release ∧ gp = target then
      (h.onPlayer n fun _ => .quiet).wakePlayer n
    else h
  if gp = 0 ∧ h1.fade n then h1.stoppingCheck n else h1

/-- Clears what is staged for the site and takes it into force (R51, R65). -/
def State.startSite (s : State) : State :=
  { s with
    units := s.latestUnits
    stagedUnits := none
    monitor := s.stagedMonitor.getD s.monitor
    stagedMonitor := none }

/-- One screen's block start. -/
def State.startScreen (s : State) (n : Screen) : State :=
  let c := s.channel n
  let h := s.house.startBlockReset n c.stagedReset
  let c1 := c.startBlock
  let level := h.latchedLevel n s.draws
  let goal := h.gainTarget n c1.settings
  let h1 := h.onGain n fun g => { g with gp := moveGain g.gp goal.1 goal.2 }
  { s.onChannel n fun _ => { c1 with level := level, target := goal.1 } with
    house := h1.gainReports n goal.1
    draws := if h.heldAnn n = none then s.draws + 1 else s.draws }

/-- A block start of all four screens (R48), screens 1 to 4 one after another (log entry 35). -/
def State.blockStart (s : State) : State := allScreens.foldl State.startScreen s.startSite

/-! ### Block end (R59 to R62) -/

/-- Codes of the cause of LEVEL_ALERT (R60, R62, R196). -/
def clippedCause : Nat := 1
/-- The cause PROGRAMME_SILENT of LEVEL_ALERT (R62). -/
def silentCause : Nat := 2

/-- A block is SILENT (R59): its peak is below the threshold, and every block is at the largest threshold, a sample of
−8,388,608 among them (log entry 41). -/
def silentBlock (peak threshold : Nat) : Bool := decide (peak < threshold ∨ Config.loudest ≤ threshold)

/-- The flags and the clip summary at the end of a block (R59, R60). -/
def Channel.endBlock (c : Channel) : Channel :=
  { c with
    silent := silentBlock c.peakIn c.settings.silence
    hot := c.settings.hot ≤ c.peakOut
    clipped := 0 < c.clips
    lastClips := c.clips
    summary := c.summary || decide (0 < c.clips) }

/-- The silence run at the end of a block, and its report (R61, R62). -/
def House.endSilence (n : Screen) (silent : Bool) (limit : Nat) (h : House) : House :=
  let listening : Bool :=
    (h.ctl n).state = .showing ∧ (h.entry n).kind = .play ∧ (h.entry n).tag = .feature
  if listening ∧ silent then
    let h1 := h.onGain n fun g => { g with silenceRun := bumpTo 60000 g.silenceRun }
    if limit * 1000 ≤ (h1.gain n).silenceRun ∧ ¬ (h1.gain n).reported then
      let entry := (h.ctl n).record.current.getD 0
      ((h1.onGain n fun g => { g with reported := true }).silenceReport n).notify .levelAlert
        [u8 (screenCode n), u8 silentCause, u8 entry]
    else h1
  else h.onGain n fun g => { g with silenceRun := 0, reported := false }

/-- One screen's block end; CLIPPED is told before PROGRAMME_SILENT (R60, R62; log entry 35). -/
def State.endScreen (s : State) (n : Screen) : State :=
  let c := s.channel n
  let c1 := c.endBlock
  let h := if c1.summary ∧ ¬ c.summary then
      s.house.notify .levelAlert [u8 (screenCode n), u8 clippedCause, u8 c.clips]
    else s.house
  { s.onChannel n fun _ => c1 with house := h.endSilence n c1.silent c1.settings.limit }

/-- A block end of all four screens (R59), screens 1 to 4 one after another (log entry 35). -/
def State.blockEnd (s : State) : State := allScreens.foldl State.endScreen s

end Machine
end Sys2Proof
end

