-- ==== Sys2Proof/Machine/Link.lean ====
section
/-! DEFINITION. The Site Link Interface (chapter 11): taking a request and filling in its reply, busy marks, the receive
framer, and the transmitter. -/

set_option autoImplicit false

namespace Sys2Proof
namespace Machine

/-! ### Replies (R190, R191) -/

/-- What the rule of a request answers: a status and the fields it returns (R190). -/
structure Answer where
  status : Status
  fields : List Field
  deriving DecidableEq, Repr

/-- OK with fields. -/
def ok (fields : List Field) : Answer := { status := .ok, fields := fields }

/-- A refusal with the detail its rule names. -/
def refuse (status : Status) (detail : List Field) : Answer := { status := status, fields := detail }

/-- Some screen, lane or station is in rehearsal (R177). -/
def State.rehearsing (s : State) : Bool :=
  (allScreens.any fun n => (s.house.ctl n).rehearsal)
    || (allLanes.any fun k => (s.lane k).rehearsal)
    || (allStations.any fun st => (s.house.station st).rehearsal)

/-- The flag byte of a reply filled in now (R191). -/
def State.flagByte (s : State) : Nat :=
  flagCode s.house.out.noticeLost + 2 * flagCode s.house.timeUnset + 4 * flagCode s.rehearsing

/-! ### The receive buffer (R189, R190) -/

/-- The requests a buffer holds. -/
def Link.requests (l : Link) : Nat := l.buffer.countP fun e => !e.busy

/-- The busy marks a buffer holds. -/
def Link.busyMarks (l : Link) : Nat := l.buffer.countP fun e => e.busy

/-- Changes the receive side of the link. -/
def State.onLink (f : Link → Link) (s : State) : State := { s with link := f s.link }

/-- A place joins the end of the reply order (R189). -/
def State.enqueue (e : LinkEntry) (s : State) : State := s.onLink fun l => { l with buffer := l.buffer ++ [e] }

/-- A reply has been filled in: an idle transmitter begins to send it (R192). -/
def Outbox.startReply (o : Outbox) : Outbox :=
  match o.tx with
  | .idle => { o with tx := .reply }
  | _ => o

/-- A link error is counted (R187, R189). -/
def State.linkError (s : State) : State := s.onLink fun l => { l with linkErrors := bumpTo 65535 l.linkErrors }

/-- A checked frame at a buffer that holds 4 requests: a busy mark with its LINK_BUSY reply, or a discard (R189). -/
def State.busyFrame (kind tag : Nat) (s : State) : State :=
  if s.link.busyMarks < Config.requestRoom then
    let reply : Reply := { status := .linkBusy, flags := s.flagByte, fields := [] }
    ((s.onHouse fun h => { h with out := h.out.startReply }).enqueue
      { kind := kind, tag := tag, busy := true, siteReset := false, reply := some reply }).onLink fun l =>
        { l with busyCount := bumpTo 65535 l.busyCount }
  else s.linkError

/-- A request is taken and its reply filled in with what its rule answers; `after` comes once the reply is filled in
(R190, R192). The transmitter is given the reply before the rule acts, so a notice the rule makes follows it. -/
def State.take (kind tag : Nat) (rule : State → State × Answer) (after : State → State) (s : State) : State :=
  let r := rule (s.onHouse fun h => { h with out := h.out.startReply })
  let reply : Reply := { status := r.2.status, flags := r.1.flagByte, fields := r.2.fields }
  after (r.1.enqueue { kind := kind, tag := tag, busy := false, siteReset := false, reply := some reply })

/-- A checked request frame arrives: it is taken, kept untaken behind a SITE RESET, or marked busy (R189, R190,
R201). The framer is HUNTING after it (R187). -/
def State.receive (kind tag : Nat) (rule : State → State × Answer) (after : State → State) (s : State) : State :=
  let s1 := s.onLink fun l => { l with framer := .hunting }
  if Config.requestRoom ≤ s1.link.requests then s1.busyFrame kind tag
  else if s1.link.resetTaken then
    s1.enqueue { kind := kind, tag := tag, busy := false, siteReset := false, reply := none }
  else s1.take kind tag rule after

/-- The meaning of a request frame: its kind, its tag and its rule. -/
def request (kind tag : Nat) (rule : State → State × Answer) (s : State) : Host.Outcome State Fault Refusal :=
  .next (s.receive kind tag rule id)

/-- A rule that acts on the house alone. -/
def onHouseRule (rule : House → House × Answer) (s : State) : State × Answer :=
  let r := rule s.house
  ({ s with house := r.1 }, r.2)

/-- A rule of a request that names an entry lane: any other code is refused BAD_VALUE; every reply returns the lane's
block (R93), after the fields of the request's own rule (log entry 12). -/
def onEntry (lane : Nat) (rule : EntryId → State → State × Answer) (s : State) : State × Answer :=
  match entryOfCode lane with
  | some k =>
    let r := rule k s
    (r.1, { r.2 with fields := r.2.fields ++ (r.1.lane k).block })
  | none => (s, refuse .badValue [])

/-- The meaning of a request frame whose rule acts on the house alone. -/
def houseRequest (kind tag : Nat) (rule : House → House × Answer) (s : State) : Host.Outcome State Fault Refusal :=
  request kind tag (onHouseRule rule) s

/-- The meaning of a request frame that changes nothing but the link. -/
def readRequest (kind tag : Nat) (answer : State → Answer) (s : State) : Host.Outcome State Fault Refusal :=
  request kind tag (fun s => (s, answer s)) s

/-- The meaning of an event on the house. -/
def houseEvent (f : House → House) (s : State) : Host.Outcome State Fault Refusal := .next (s.onHouse f)

/-- A yes-or-no byte that is neither 0 nor 1 names no value (R196, R197). -/
def isFlag (v : Nat) : Bool := decide (v ≤ 1)

/-! ### The transmitter (R192) -/

/-- The frame chosen by a transmitter that has nothing to send: the reply at the head of the reply order if filled in,
else the oldest notice (R192). -/
def State.chooseFrame (s : State) : State :=
  match s.link.buffer.head? with
  | some e =>
    if e.reply.isSome then s.onHouse fun h => { h with out := { h.out with tx := .reply } }
    else s.onHouse fun h => { h with out := h.out.startNotice }
  | none => s.onHouse fun h => { h with out := h.out.startNotice }

/-- The transmitter with nothing in it. -/
def State.freeTransmitter (s : State) : State := s.onHouse fun h => { h with out := { h.out with tx := .idle } }

/-- The bytes on SLTX: the frame being sent (R186, R192). -/
def State.sending (s : State) : List Nat :=
  match s.house.out.tx, s.link.buffer.head? with
  | .notice n, _ => n.frame
  | .reply, some e =>
    match e.reply with
    | some r => r.frame e.kind e.tag
    | none => []
  | _, _ => []

end Machine
end Sys2Proof
end

