-- ==== Sys2Proof/Machine/Resets.lean ====
section
/-! DEFINITION. Power-on reset, SITE RESET and SCREEN RESET (R28, R46, R66, R67, R91, R92, R113, R129, R137, R160, R176,
R184, R201 to R203). -/

set_option autoImplicit false

namespace Sys2Proof
namespace Machine

/-- The clips that fill the roles of a call-clip configuration, one place for each role (R73). -/
def CallClips.roles (cc : CallClips) : List Nat :=
  cc.preamble :: ((if cc.postamble = 0 then [] else [cc.postamble]) ++ cc.digits)

/-- The reference counts after SITE RESET: a clip's roles in the call-clip configuration (R73). -/
def House.rolesOnly (h : House) : Vector ClipRec 127 :=
  let roles := (h.callClips.map CallClips.roles).getD []
  Vector.ofFn fun i => { tget h.clips i with refs := roles.count (i.val + 1) }

/-- A verb line being sent when a reset is taken finishes sending (R46). -/
def CueLine.siteReset (l : CueLine) : CueLine := { CueLine.reset with sendingLines := l.sendingLines.take 1 }

/-- A station at SITE RESET; one that was in rehearsal leaves it (R176, R183, R184). -/
def Station.siteReset (x : Station) : Station :=
  { Station.reset with pressWait := if x.rehearsal then Config.pressMs else x.pressWait }

/-- The blocks of the house after SITE RESET. Gains, silence runs and the channel pairs follow at the next block start
(R67). -/
def House.siteReset (h : House) : House :=
  { House.reset with
    clock := h.clock
    timeUnset := h.timeUnset
    lines := h.lines.map CueLine.siteReset
    gains := h.gains
    clips := h.rolesOnly
    callClips := h.callClips
    classes := h.classes
    gap := h.gap
    routes := h.routes
    stations := h.stations.map Station.siteReset }

/-- What the clip playing still supplies to the block in progress when SITE RESET makes the player IDLE (R67, log
entry 31). -/
def House.clipTail (h : House) (n : Screen) : Option ClipTail :=
  (h.playingClip n).map fun c => { pages := c.pages, length := c.length, sample := (h.player n).sample }

/-- What waits for a channel pair's next block start once a SITE RESET joins it: a SCREEN RESET that waits there stays
(R66, R67, R91; log entry 22). -/
def StagedReset.joinSite : Option StagedReset → StagedReset
  | some .screen | some .both => .both
  | some .site | none => .site

/-- A channel pair at SITE RESET: its values follow at the next block start (R67). -/
def Channel.siteReset (tail : Option ClipTail) (c : Channel) : Channel :=
  { c with staged := none, stagedReset := some (StagedReset.joinSite c.stagedReset), tail := tail.or c.tail }

/-- The receive side of the link at SITE RESET (R201, R203). -/
def Link.siteReset (l : Link) : Link :=
  { l with buffer := [], resetTaken := false, linkErrors := 0, busyCount := 0 }

/-- SITE RESET takes effect (R201). -/
def State.siteReset (s : State) : State :=
  { s with
    house := s.house.siteReset
    lanes := s.lanes.map EntryLane.siteReset
    exits := s.exits.map ExitLane.siteReset
    present := 0
    channels := Vector.ofFn fun n => (s.channel n).siteReset (s.house.clipTail n)
    stagedMonitor := some none
    link := s.link.siteReset }

/-- The code of the rate that the BAUD pins select (R185). -/
def rateCode (baud1 baud0 : Bool) : Nat := 2 * flagCode baud1 + flagCode baud0

/-- Power-on reset (R203): every block at its power-on values, the raw levels of the inputs as they stand, a verb line
being sent finishing (R46), and the BAUD pins sampled. -/
def State.powerOn (baud1 baud0 : Bool) (s : State) : State :=
  { State.reset with
    house := { House.reset with lines := s.house.lines.map CueLine.siteReset }
    lanes := s.lanes.map fun l => EntryLane.reset l.arrive.raw l.clear.raw l.armUp l.armDn
    exits := s.exits.map fun x => ExitLane.reset x.loop.raw
    link := .reset (rateCode baud1 baud0)
    draws := s.draws
    pending := s.pending }

/-- What waits for a channel pair's next block start once a SCREEN RESET joins it (R66, R67; log entry 22). -/
def StagedReset.join : Option StagedReset → StagedReset
  | some .site | some .both => .both
  | some .screen | none => .screen

/-- SCREEN RESET of one screen (R202): the Show Controller and the cue line at once, the channel pair, queue and
player at the next block start (R66, R91). -/
def State.screenReset (n : Screen) (s : State) : State :=
  (s.onHouse (House.resetShow n)).onChannel n fun c =>
    { c with stagedReset := some (StagedReset.join c.stagedReset) }

end Machine
end Sys2Proof
end

