-- ==== Sys2Proof/Machine/ShowCommands.lean ====
section
/-! DEFINITION. The meanings of the show and cue line commands (chapters 1 and 2). -/

set_option autoImplicit false

namespace Sys2Proof
namespace Machine

/-! ### The cue table (R1 to R3) -/

/-- The range of a loaded show covers an index, entries after a LAST flag included (R2). -/
def ShowDesc.covers (d : ShowDesc) (i : Nat) : Bool := decide (d.start ≤ i ∧ i < d.start + d.count)

/-- A show in a slot covers an index (R2). -/
def slotCovers (d : Option ShowDesc) (i : Nat) : Bool :=
  match d with
  | some d => d.covers i
  | none => false

/-- An index lies in the range of some screen's running or pending show (R2). -/
def House.protected (h : House) (i : Nat) : Bool :=
  allScreens.any fun n => slotCovers (h.ctl n).running i || slotCovers (h.ctl n).waiting i

/-- The entry that CUE WRITE carries, when its codes name a kind and a phase tag (R2). The phase tag of an EMPTY entry
is not judged. Bits 2 to 7 of the flags byte are accepted and dropped: DESIGN CHOICE, log entry 37. -/
def writtenEntry (kind content length phaseTag flags startClip : Nat) : Option CueEntry :=
  match EntryKind.ofCode kind, PhaseTag.ofCode phaseTag with
  | some .empty, _ => some .blank
  | some k, some t =>
    some { kind := k, content := content, length := length, tag := t, last := flags.testBit 0,
           laneHold := flags.testBit 1, startClip := startClip }
  | _, _ => none

/-- CUE WRITE (R2). -/
def execCueWrite (tag index kind content length phaseTag flags startClip : Nat) (s : State) :
    Host.Outcome State Fault Refusal :=
  houseRequest 0x20 tag (fun h =>
    match writtenEntry kind content length phaseTag flags startClip with
    | none => (h, refuse .badValue [])
    | some e =>
      if h.protected index then (h, refuse .inUse [])
      else ({ h with cues := h.cues.setIfInBounds index e }, ok [])) s

/-- The record of a cue entry (R196). An EMPTY entry's other fields read 0 (log entry 10). -/
def CueEntry.fields (e : CueEntry) : List Field :=
  if e.kind = .empty then [u8 0, u16 0, u24 0, u8 0, u8 0, u8 0]
  else
    [u8 e.kind.code, u16 e.content, u24 e.length, u8 e.tag.code, u8 (flagCode e.last + 2 * flagCode e.laneHold),
     u8 e.startClip]

/-- A screen's protection of an index: bit 0 for its running show, bit 1 for its pending show (R3, log entry 12). -/
def House.protection (h : House) (i : Nat) (n : Screen) : Field :=
  u8 (flagCode (slotCovers (h.ctl n).running i) + 2 * flagCode (slotCovers (h.ctl n).waiting i))

/-- CUE READ (R3). -/
def execCueRead (tag index : Nat) (s : State) : Host.Outcome State Fault Refusal :=
  readRequest 0x21 tag (fun s =>
    ok ((s.house.cue index).fields ++ allScreens.map (s.house.protection index))) s

/-! ### Loading (R4, R5) -/

/-- An entry of a range passes the fourth check of SHOW LOAD (R4). -/
def House.loadable (h : House) (i : Nat) : Bool :=
  let e := h.cue i
  (match e.kind with
    | .empty => false
    | .play | .skip => decide (e.content ≠ 0 ∧ 1 ≤ e.length ∧ e.length ≤ 16777215)
    | .hold => decide (e.content = 0 ∧ 1 ≤ e.length ∧ e.length ≤ 7200))
  && (decide (e.startClip = 0) || h.clipReady e.startClip)

/-- The start mode that the mode code and the site time give (R4). A time of day out of range is no site time (log
entry 14). -/
def startMode (mode day ms : Nat) : Option StartMode :=
  match mode with
  | 1 => if ms < Config.dayMs then some (.atTime { day := day, ms := ms }) else none
  | 2 => some .onCommand
  | _ => none

/-- The descriptor that SHOW LOAD carries, when it passes the first check (R4). -/
def loadedShow (showId start count rate policy mode day ms : Nat) : Option ShowDesc :=
  match FaultPolicy.ofCode policy, startMode mode day ms with
  | some p, some m =>
    if 1 ≤ count ∧ count ≤ 64 ∧ start + count ≤ 256 ∧ (rate = 24 ∨ rate = 25 ∨ rate = 30 ∨ rate = 48) then
      some { showId := showId, start := start, count := count, rate := rate, policy := p, mode := m }
    else none
  | _, _ => none

/-- The show goes straight into the running slot (R5). -/
def House.slotOpen (h : House) (n : Screen) : Bool :=
  decide ((h.ctl n).state = .idle) && (h.ctl n).running.isNone

/-- The start mode waits for a site time (R4). -/
def StartMode.timed : StartMode → Bool
  | .atTime _ => true
  | .onCommand => false

/-- A show that passed the checks takes its slot and its references (R5); an AT_TIME start is judged at once (R9). -/
def House.placeShow (n : Screen) (d : ShowDesc) (h : House) : House :=
  let h1 := h.takeRefs (h.startClips d)
  if h.slotOpen n then
    let old := h.phase n
    (((h1.onCtl n (ShowCtl.armed d)).refreshCountdown n).publish n old).evalStart n
  else h1.onCtl n fun c => { c with waiting := some d }

/-- The rule of SHOW LOAD (R4, R5). -/
def House.showLoad (screen : Nat) (d : Option ShowDesc) (h : House) : House × Answer :=
  match screenOfCode screen, d with
  | some n, some d =>
    if d.mode.timed ∧ h.timeUnset then (h, refuse .badState [])
    else if ¬ h.slotOpen n ∧ (h.ctl n).waiting.isSome then (h, refuse .full [])
    else
      match (List.range' d.start d.count).find? fun i => !h.loadable i with
      | some i => (h, refuse .badValue (uOpt 1 (some i)))
      | none => (h.placeShow n d, ok [u8 (if h.slotOpen n then 1 else 2)])
  | _, _ => (h, refuse .badValue (uOpt 1 none))

/-- SHOW LOAD (R4, R5). -/
def execShowLoad (tag screen showId start count rate policy mode day ms : Nat) (s : State) :
    Host.Outcome State Fault Refusal :=
  houseRequest 0x22 tag (House.showLoad screen (loadedShow showId start count rate policy mode day ms)) s

/-! ### Running a show (R8 to R22) -/

/-- A request that names one screen: any other code is refused BAD_VALUE (R196). -/
def onScreen (screen : Nat) (rule : Screen → House → House × Answer) (h : House) : House × Answer :=
  match screenOfCode screen with
  | some n => rule n h
  | none => (h, refuse .badValue [])

/-- SHOW START (R8). -/
def execShowStart (tag screen : Nat) (s : State) : Host.Outcome State Fault Refusal :=
  houseRequest 0x23 tag (onScreen screen fun n h =>
    if (h.ctl n).state = .armed then (h.startShow n 0, ok []) else (h, refuse .badState [])) s

/-- SHOW_START_TIME_REACHED: the site time reaches the start time of an ARMED AT_TIME show (R9). -/
def execShowStartTimeReached (n : Screen) (s : State) : Host.Outcome State Fault Refusal :=
  houseEvent (House.startTimeReached n) s

/-- HOLD_EXPIRED: the hold timer of LANE_WAIT runs out (R11). -/
def execHoldExpired (n : Screen) (s : State) : Host.Outcome State Fault Refusal :=
  houseEvent (fun h => if (h.ctl n).state = .laneWait then h.holdExpired n else h) s

/-- SHOW NEXT (R14). -/
def execShowNext (tag screen : Nat) (s : State) : Host.Outcome State Fault Refusal :=
  houseRequest 0x24 tag (onScreen screen fun n h =>
    if h.running n .hold then (h.entryEnd n, ok []) else (h, refuse .badState [])) s

/-- SHOW ABORT (R20). -/
def execShowAbort (tag screen : Nat) (s : State) : Host.Outcome State Fault Refusal :=
  houseRequest 0x25 tag (onScreen screen fun n h =>
    if (h.ctl n).state = .idle then (h, refuse .badState []) else (h.abort n, ok [])) s

/-- SHOW RELEASE (R21). -/
def execShowRelease (tag screen : Nat) (s : State) : Host.Outcome State Fault Refusal :=
  houseRequest 0x26 tag (onScreen screen fun n h =>
    if (h.ctl n).state = .held then ((h.emptySlot n).promote n, ok []) else (h, refuse .badState [])) s

/-- SHOW PROMOTE (R22). -/
def execShowPromote (tag screen : Nat) (s : State) : Host.Outcome State Fault Refusal :=
  houseRequest 0x27 tag (onScreen screen fun n h =>
    if h.slotOpen n then
      if (h.ctl n).waiting.isSome then (h.promote n, ok []) else (h, refuse .notFound [])
    else (h, refuse .badState [])) s

/-- The fields of a slot: a presence byte and a descriptor (R27). -/
def slotFields : Option ShowDesc → List Field
  | some d =>
    [u8 1, u16 d.showId, u8 d.start, u8 d.count, u8 d.rate, u8 d.policy.code]
      ++ (match d.mode with
        | .atTime t => u8 1 :: uTime (some t)
        | .onCommand => u8 2 :: uTime none)
  | none => [u8 0, u16 0, u8 0, u8 0, u8 0, u8 0, u8 0, u16 0, u32 0]

/-- The fields of a show record (R7, R27). -/
def ShowRecord.fields (r : ShowRecord) : List Field :=
  [u16 r.showId] ++ uOpt 1 r.current
    ++ [u24 r.progress, u8 r.completed, u8 r.faults, u8 ((r.firstCause.map Cause.code).getD 0),
        u32 r.laneHoldSecs, u32 r.lateStart]
    ++ uTime r.featureStart ++ [u8 r.clipsDropped, u8 r.outcome.code]

/-- The fields of SCREEN STATUS (R27). -/
def House.screenStatus (h : House) (n : Screen) : List Field :=
  let c := h.ctl n
  [u8 c.state.code, u8 (h.phase n).code] ++ uOpt 4 c.countdown
    ++ [u8 (admissionCode (h.lot n).admission), uBool (h.fade n), uBool c.halted]
    ++ slotFields c.running ++ slotFields c.waiting ++ c.record.fields ++ [uBool c.running.isSome]
    ++ uOpt 2 (c.waitLeft.map fun ms => ms / 1000)
    ++ [uBool c.rehearsal, uBool c.autoAnswer, uBool c.stallMark]

/-- SCREEN STATUS (R27). -/
def execScreenStatus (tag screen : Nat) (s : State) : Host.Outcome State Fault Refusal :=
  houseRequest 0x28 tag (onScreen screen fun n h => (h, ok (h.screenStatus n))) s

/-- SCREEN RESET (R202). -/
def execScreenReset (tag screen : Nat) (s : State) : Host.Outcome State Fault Refusal :=
  request 0x29 tag (fun s =>
    match screenOfCode screen with
    | some n => (s.screenReset n, ok [])
    | none => (s, refuse .badValue [])) s

/-! ### The phase policy (R24) -/

/-- The classes that a set byte names: bit 0 SAFETY to bit 4 PROMO (R196); bits 5 to 7 name no class. -/
def classSet (bits : Nat) : Option (List AnnClass) :=
  if 32 ≤ bits then none else some (allClasses.filter fun c => bits.testBit c.index.val)

/-- PHASE POLICY SET, a phase and its row (R24). The reply says whether SAFETY was kept. -/
def execPhasePolicySetRow (tag phase adm intake allowed duck : Nat) (s : State) :
    Host.Outcome State Fault Refusal :=
  houseRequest 0x2A tag (fun h =>
    match Phase.ofCode phase, Admit.ofCode adm, Intake.ofCode intake, classSet allowed with
    | some p, some a, some i, some cs =>
      if duck ≤ Config.unity then
        let kept : Bool := !cs.contains .safety
        let row : PolicyRow :=
          { admission := a, intake := i, allowed := if kept then .safety :: cs else cs, duck := duck }
        ({ h with policy := tset h.policy p.index row }.policyChanged, ok [uBool kept])
      else (h, refuse .badValue [])
    | _, _, _, _ => (h, refuse .badValue [])) s

/-- PHASE POLICY SET, the two site-wide values (R24). -/
def execPhasePolicySetLimits (tag maxHold lateLimit : Nat) (s : State) : Host.Outcome State Fault Refusal :=
  houseRequest 0x2A tag (fun h =>
    if maxHold ≤ 900 ∧ lateLimit ≤ 3600 then
      ({ h with maxLaneHold := maxHold, lateLimit := lateLimit }.policyChanged, ok [])
    else (h, refuse .badValue [])) s

/-! ### Frames and timers of a running entry (R13, R40) -/

/-- FRAME_PULSE: a rising edge of FRAME-n; a rehearsing screen ignores it (R40, R179). -/
def execFramePulse (n : Screen) (s : State) : Host.Outcome State Fault Refusal :=
  houseEvent (fun h => if (h.ctl n).rehearsal then h else h.pulse n) s

/-- PICTURE_STALL: the stall timer runs out (R40). -/
def execPictureStall (n : Screen) (s : State) : Host.Outcome State Fault Refusal :=
  houseEvent (House.pictureStall n) s

/-- TIMEBASE_FRAME: the next timebase frame of a stalled PLAY falls due (R40). -/
def execTimebaseFrame (n : Screen) (s : State) : Host.Outcome State Fault Refusal :=
  houseEvent (House.timebaseFrame n) s

/-- SKIP_TIMEBASE_FRAME: the next timebase frame of a SKIP falls due (R13). -/
def execSkipTimebaseFrame (n : Screen) (s : State) : Host.Outcome State Fault Refusal :=
  houseEvent (House.skipFrame n) s

/-- HOLD_ENTRY_ELAPSED: the length of a HOLD has elapsed (R13). -/
def execHoldEntryElapsed (n : Screen) (s : State) : Host.Outcome State Fault Refusal :=
  houseEvent (House.holdOver n) s

/-! ### The cue line (R32, R43, R44) -/

/-- CUE LINE SET (R32). -/
def execCueLineSet (tag screen timeout retries : Nat) (s : State) : Host.Outcome State Fault Refusal :=
  houseRequest 0x2B tag (onScreen screen fun n h =>
    if 100 ≤ timeout ∧ timeout ≤ 2000 ∧ retries ≤ 3 then
      (h.onLine n fun l => { l with answerTimeout := timeout, retries := retries }, ok [])
    else (h, refuse .badValue [])) s

/-- The fields of a fault record behind its presence byte (R42, R43). -/
def faultFields : Option LineFault → List Field
  | some f =>
    [u8 1, u8 f.verb.code, u16 f.content] ++ uOpt 1 f.entry ++ [u8 f.cause.code, u8 f.attempts]
      ++ uTime (some f.time) ++ [uBool f.further]
  | none => [u8 0, u8 0, u16 0, u8 0, u8 0, u8 0, u8 0, u16 0, u32 0, u8 0]

/-- FAULT READ (R43). -/
def execFaultRead (tag screen : Nat) (s : State) : Host.Outcome State Fault Refusal :=
  houseRequest 0x2C tag (onScreen screen fun n h => (h, ok (faultFields (h.line n).fault))) s

/-- FAULT CLEAR (R43). -/
def execFaultClear (tag screen : Nat) (s : State) : Host.Outcome State Fault Refusal :=
  houseRequest 0x2D tag (onScreen screen fun n h => (h.onLine n fun l => { l with fault := none }, ok [])) s

/-- The request that PROJECTOR PASS carries, when it passes the first check (R44). -/
def passRequest (verb content quiet : Nat) : Option CueRequest :=
  match Verb.ofCode verb with
  | some .l => if 1 ≤ content ∧ content ≤ 65535 ∧ isFlag quiet then some { verb := .l, content := content } else none
  | some v => if isFlag quiet then some { verb := v, content := 0 } else none
  | none => none

/-- PROJECTOR PASS (R44). -/
def execProjectorPass (tag screen verb content quiet : Nat) (s : State) : Host.Outcome State Fault Refusal :=
  houseRequest 0x2E tag (onScreen screen fun n h =>
    match passRequest verb content quiet with
    | none => (h, refuse .badValue [])
    | some r =>
      if (h.ctl n).state = .showing ∨ (h.line n).unit ≠ .quiet then (h, refuse .busy [])
      else
        (h.beginExchange n true (quiet = 1) r ((h.line n).retries + 1), ok [u8 (h.line n).seq])) s

/-- VERB_LINE_SENT: the carriage return of the line on CTX-n has been sent (R34). -/
def execVerbLineSent (n : Screen) (s : State) : Host.Outcome State Fault Refusal := houseEvent (House.lineSent n) s

/-- CUE_LINE_RECEIVED: characters on CRX-n; a rehearsing screen discards them (R29, R31, R178), and takes
those that come after it has left, also of a line that began before (log entry 45). -/
def execCueLineReceived (n : Screen) (chars : List CueChar) (s : State) : Host.Outcome State Fault Refusal :=
  houseEvent (fun h => if (h.ctl n).rehearsal then h else chars.foldl (House.takeChar n) h) s

/-- ANSWER_TIMEOUT: the answer timer runs out (R35). -/
def execAnswerTimeout (n : Screen) (s : State) : Host.Outcome State Fault Refusal :=
  houseEvent (House.answerTimeout n) s

/-- BACKOFF_END: the retry interval has passed (R36). -/
def execBackoffEnd (n : Screen) (s : State) : Host.Outcome State Fault Refusal := houseEvent (House.backoffEnd n) s

end Machine
end Sys2Proof
end

