-- ==== Sys2Proof/Machine/SoundCommands.lean ====
section
/-! DEFINITION. The meanings of the sound commands: mix, clips and announcements (chapters 3 and 4). -/

set_option autoImplicit false

namespace Sys2Proof
namespace Machine

/-! ### Audio frames and blocks -/

/-- SAMPLE_FRAME on the four programme inputs (R47, R54). -/
def execSampleFrame (pgm1 pgm2 pgm3 pgm4 : StereoFrame) (s : State) : Host.Outcome State Fault Refusal :=
  .next (s.sampleFrame #v[pgm1, pgm2, pgm3, pgm4])

/-- BLOCK_START (R48, R56 to R58). -/
def execBlockStart (s : State) : Host.Outcome State Fault Refusal := .next s.blockStart

/-- BLOCK_END (R59 to R62). -/
def execBlockEnd (s : State) : Host.Outcome State Fault Refusal := .next s.blockEnd

/-! ### Mix settings (R51, R52, R63, R65) -/

/-- The ranges of R52, but for the delay. -/
def MixSettings.inRange (m : MixSettings) : Bool :=
  decide (1 ≤ m.fade ∧ m.fade ≤ 32768 ∧ 1 ≤ m.duck ∧ m.duck ≤ 32768 ∧ 1 ≤ m.release ∧ m.release ≤ 32768
    ∧ 1 ≤ m.silence ∧ m.silence ≤ 8388608 ∧ 1 ≤ m.hot ∧ m.hot ≤ 8388607 ∧ 1 ≤ m.limit ∧ m.limit ≤ 60)

/-- The rule of MIX SET (R52). -/
def State.mixSet (n : Screen) (m : MixSettings) (s : State) : State × Answer :=
  let m1 := m.clamp s.latestUnits
  let st := (s.house.ctl n).state
  if ¬ m1.inRange then (s, refuse .badValue [])
  else if m1.delay ≠ (s.channel n).latest.delay ∧ (st = .showing ∨ st = .stopping) then (s, refuse .badState [])
  else (s.onChannel n fun c => { c with staged := some m1 }, ok [u24 m1.delay])

/-- MIX SET (R52). -/
def execMixSet (tag screen delay fade duck release silence hot limit : Nat) (s : State) :
    Host.Outcome State Fault Refusal :=
  request 0x30 tag (fun s =>
    match screenOfCode screen with
    | some n => s.mixSet n
        { delay := delay, fade := fade, duck := duck, release := release, silence := silence, hot := hot,
          limit := limit }
    | none => (s, refuse .badValue [])) s

/-- What PARTITION SET answers when accepted: C, the clip page count and the four delays (R51). -/
def State.partitionFields (units : Nat) (s : State) : List Field :=
  [u24 (units * Config.unitFrames), u16 (Config.dramPages - Config.unitPages * units)]
    ++ allScreens.map fun n => u24 (s.channel n).latest.delay

/-- The rule of PARTITION SET (R51). The current units are those that the last accepted request left, in force or still
staged (log entry 38). -/
def State.partitionSet (units : Nat) (s : State) : State × Answer :=
  if 64 < units then (s, refuse .badValue [])
  else if allScreens.any fun n => decide ((s.house.ctl n).state ≠ .idle) then (s, refuse .badState [])
  else if s.house.heldPages.any fun p =>
      decide (Config.unitPages * s.latestUnits ≤ p ∧ p < Config.unitPages * units) then (s, refuse .inUse [])
  else if units = s.latestUnits then (s, ok (s.partitionFields units))
  else
    let s1 := { s with stagedUnits := some units, channels := s.channels.map (Channel.repartition units) }
    (s1, ok (s1.partitionFields units))

/-- PARTITION SET (R51). -/
def execPartitionSet (tag units : Nat) (s : State) : Host.Outcome State Fault Refusal :=
  request 0x31 tag (State.partitionSet units) s

/-- The fields of LEVEL READ (R63). -/
def State.levelRead (s : State) (n : Screen) : List Field :=
  let c := s.channel n
  let g := s.house.gain n
  [u8 (flagCode c.silent + 2 * flagCode c.hot + 4 * flagCode c.clipped), u8 c.lastClips, uBool c.summary,
   u16 g.silenceRun, u16 g.gp, u16 c.target, u16 c.level, uBool (s.clipSample n).isSome, u24 c.settings.delay,
   u24 s.capacity]

/-- LEVEL READ (R63); the clear comes after the reply has been filled in. -/
def execLevelRead (tag screen clear : Nat) (s : State) : Host.Outcome State Fault Refusal :=
  match screenOfCode screen with
  | some n =>
    if isFlag clear then
      .next (s.receive 0x32 tag (fun s => (s, ok (s.levelRead n)))
        (if clear = 1 then State.onChannel n fun c => { c with summary := false } else id))
    else readRequest 0x32 tag (fun _ => refuse .badValue []) s
  | none => readRequest 0x32 tag (fun _ => refuse .badValue []) s

/-- MONITOR SELECT: a screen, or 0 for OFF (R65). -/
def execMonitorSelect (tag selection : Nat) (s : State) : Host.Outcome State Fault Refusal :=
  request 0x33 tag (fun s =>
    if selection = 0 then ({ s with stagedMonitor := some none }, ok [])
    else
      match screenOfCode selection with
      | some n => ({ s with stagedMonitor := some (some n) }, ok [])
      | none => (s, refuse .badValue [])) s

/-! ### The Clip Directory (R69 to R75) -/

/-- An id that names a clip record (R68). -/
def clipId (id : Nat) : Bool := decide (1 ≤ id ∧ id ≤ Config.clipRecords)

/-- The partition that bounds the clip region for new pages: a change that is yet to take effect gives no page before
its block start, and takes its pages at once (R51). -/
def State.clipUnits (s : State) : Nat := max s.units s.latestUnits

/-- The free pages of the clip region, lowest first (R49). -/
def State.freePages (s : State) : List Nat := s.house.freePages s.clipUnits

/-- The rule of CLIP BEGIN (R69). -/
def State.clipBegin (id length : Nat) (s : State) : State × Answer :=
  if ¬ clipId id ∨ length = 0 ∨ 4194304 < length then (s, refuse .badValue [])
  else if (s.house.clip id).state ≠ .empty then (s, refuse .badState [])
  else if s.freePages.length < pagesNeeded length then (s, refuse .full [u16 s.freePages.length])
  else
    let pages := s.freePages.take (pagesNeeded length)
    ({ s with
       house := s.house.setClip id { state := .loading, length := length, pages := pages, refs := 0 }
       dram := erasePages s.dram pages }, ok [u16 pages.length])

/-- CLIP BEGIN (R69). -/
def execClipBegin (tag id length : Nat) (s : State) : Host.Outcome State Fault Refusal :=
  request 0x34 tag (State.clipBegin id length) s

/-- The checks that CLIP DATA and CLIP END make of the record (R70, R71). -/
def ClipRec.loadCheck (r : ClipRec) : Option Status :=
  match r.state with
  | .empty => some .notFound
  | .loading => none
  | .ready | .bad => some .badState

/-- The rule of CLIP DATA (R70). -/
def State.clipData (id offset : Nat) (samples : List Int) (s : State) : State × Answer :=
  let r := s.house.clip id
  if ¬ clipId id ∨ samples.length = 0 ∨ 112 < samples.length then (s, refuse .badValue [])
  else
    match r.loadCheck with
    | some st => (s, refuse st [])
    | none =>
      if r.length < offset + samples.length then (s, refuse .badValue [])
      else ({ s with dram := writeSamples s.dram r.pages offset samples }, ok [])

/-- CLIP DATA (R70). -/
def execClipData (tag id offset : Nat) (samples : List Int) (s : State) : Host.Outcome State Fault Refusal :=
  request 0x35 tag (State.clipData id offset samples) s

/-- The rule of CLIP END (R71). -/
def State.clipEnd (id crc : Nat) (s : State) : State × Answer :=
  let r := s.house.clip id
  if ¬ clipId id then (s, refuse .badValue [])
  else
    match r.loadCheck with
    | some st => (s, refuse st [])
    | none =>
      let computed := clipCrc s.dram r.pages r.length
      let state : ClipState := if computed = crc then .ready else .bad
      (s.onHouse (House.setClip id { r with state := state }), ok [u8 state.code, u16 computed])

/-- CLIP END (R71). -/
def execClipEnd (tag id crc : Nat) (s : State) : Host.Outcome State Fault Refusal :=
  request 0x36 tag (State.clipEnd id crc) s

/-- CLIP FREE (R72). -/
def execClipFree (tag id : Nat) (s : State) : Host.Outcome State Fault Refusal :=
  houseRequest 0x37 tag (fun h =>
    if ¬ clipId id then (h, refuse .badValue [])
    else if (h.clip id).state = .empty then (h, refuse .notFound [])
    else if 0 < (h.clip id).refs then (h, refuse .inUse [u32 (h.clip id).refs])
    else (h.setClip id .blank, ok [])) s

/-- The record of a clip in CLIP LIST; an EMPTY clip has no length (R68, R74, R197). -/
def House.clipFields (h : House) (id : Nat) : List Field :=
  let r := h.clip id
  [u8 id, u8 r.state.code] ++ uOpt 3 (if r.state = .empty then none else some r.length)
    ++ [u16 r.pages.length, u32 r.refs]

/-- As many whole records as a body holds between a head and `tail` bytes after them, behind a count (R190, R197):
how many they are, and the fields of head and list. -/
def recordList (head : List Field) (tail : Nat) (records : List (List Field)) : Nat × List Field :=
  let taken := takeRecords (Config.bodyRoom - (3 + fieldWidth head + tail)) records
  (taken.length, head ++ [u8 taken.length] ++ taken.flatten)

/-- The fields of CLIP LIST from clip `first` on (R74). -/
def State.clipList (s : State) (first : Nat) : List Field :=
  let head := [u16 s.freePages.length, u16 (Config.dramPages - Config.unitPages * s.clipUnits)]
  let r := recordList head 1 ((List.range' first (Config.clipRecords + 1 - first)).map s.house.clipFields)
  r.2 ++ [u8 (first + r.1 - 1)]

/-- CLIP LIST (R74). -/
def execClipList (tag first : Nat) (s : State) : Host.Outcome State Fault Refusal :=
  readRequest 0x38 tag (fun s => if clipId first then ok (s.clipList first) else refuse .badValue []) s

/-- The twelve roles of a configuration in the order of R75, the postamble only when present; each with its code. -/
def CallClips.codedRoles (cc : CallClips) : List (Nat × Nat) :=
  (1, cc.preamble) :: ((if cc.postamble = 0 then [] else [(2, cc.postamble)]) ++ (cc.digits.zipIdx 3).map Prod.swap)

/-- CALL CLIPS SET, a complete set of roles (R75). -/
def execCallClipsSet (tag preamble postamble : Nat) (digits : List Nat) (s : State) :
    Host.Outcome State Fault Refusal :=
  houseRequest 0x39 tag (fun h =>
    let cc : CallClips := { preamble := preamble, postamble := postamble, digits := digits }
    if digits.length = 10 ∧ cc.roles.all clipId then
      match cc.codedRoles.find? fun r => !h.clipReady r.2 with
      | some r => (h, refuse .notReady [u8 r.1])
      | none =>
        let h1 := (h.takeRefs cc.roles).dropRefs ((h.callClips.map CallClips.roles).getD [])
        ({ h1 with callClips := some cc }, ok [])
    else (h, refuse .badValue [])) s

/-- CALL CLIPS SET, the instruction to unconfigure (R75). -/
def execCallClipsUnconfigure (tag : Nat) (s : State) : Host.Outcome State Fault Refusal :=
  houseRequest 0x39 tag (fun h =>
    ({ h.dropRefs ((h.callClips.map CallClips.roles).getD []) with callClips := none }, ok [])) s

/-! ### Classes and routes (R77, R78) -/

/-- CLASS SET, a class and its row (R77): a lowered max wait expires announcements at once (R82). -/
def execClassSetRow (tag cls priority level maxWait : Nat) (s : State) : Host.Outcome State Fault Refusal :=
  houseRequest 0x3A tag (fun h =>
    match AnnClass.ofCode cls with
    | some c =>
      if (if c = .safety then priority = 0 else 1 ≤ priority ∧ priority ≤ 7)
          ∧ level ≤ Config.unity ∧ 10 ≤ maxWait ∧ maxWait ≤ 3600 then
        let row : ClassRow := { priority := priority, level := level, maxWait := maxWait }
        (allScreens.foldl (fun h n => h.settleQueue n) { h with classes := tset h.classes c.index row }, ok [])
      else (h, refuse .badValue [])
    | none => (h, refuse .badValue [])) s

/-- CLASS SET, the inter-clip gap (R77). -/
def execClassSetGap (tag gap : Nat) (s : State) : Host.Outcome State Fault Refusal :=
  houseRequest 0x3A tag (fun h =>
    if gap ≤ 500 then ({ h with gap := gap }, ok []) else (h, refuse .badValue [])) s

/-- ROUTE SET: a class and a set of screens, bit 0 screen 1 to bit 3 screen 4 (R78, R196). -/
def execRouteSet (tag cls screens : Nat) (s : State) : Host.Outcome State Fault Refusal :=
  houseRequest 0x3B tag (fun h =>
    match AnnClass.ofCode cls with
    | some c =>
      if screens < 16 then
        ({ h with routes := tset h.routes c.index (allScreens.filter fun n => screens.testBit n.val) }, ok [])
      else (h, refuse .badValue [])
    | none => (h, refuse .badValue [])) s

/-! ### Announcements (R79, R84, R86) -/

/-- Copies of an announcement on the screens of a route, in screen order, with each screen's outcome (R79). -/
def House.announceAll (cls : AnnClass) (clips : List Nat) : List Screen → House → House × List (Screen × Option Nat)
  | [], h => (h, [])
  | n :: rest, h =>
    let r := h.offerManual n cls clips
    let t := House.announceAll cls clips rest r.1
    (t.1, (n, r.2) :: t.2)

/-- A screen's outcome in the reply of an ANNOUNCE to ALL (R79): the status OK or FULL, and the id of a placed copy (log
entry 12). -/
def outcomeFields (o : Screen × Option Nat) : List Field :=
  [u8 (screenCode o.1), u8 (if o.2.isSome then Status.ok.code else Status.full.code), u16 (o.2.getD 0)]

/-- The rule of ANNOUNCE (R79). -/
def House.announce (screen cls : Nat) (clips : List Nat) (h : House) : House × Answer :=
  match AnnClass.ofCode cls with
  | none => (h, refuse .badValue [])
  | some c =>
    if (screen ≠ allScreensCode ∧ screenOfCode screen = none) ∨ clips.length = 0 ∨ 6 < clips.length
        ∨ ¬ clips.all clipId then (h, refuse .badValue [])
    else
      match clips.find? fun id => !h.clipReady id with
      | some id => (h, refuse .notReady [u8 id])
      | none =>
        match screenOfCode screen with
        | some n =>
          match h.offerManual n c clips with
          | (h', some id) => (h', ok [u16 id])
          | (h', none) => (h', refuse .full [])
        | none =>
          let route := tget h.routes c.index
          if route = [] then (h, refuse .notFound [])
          else
            let r := h.announceAll c clips route
            let list := u8 r.2.length :: r.2.flatMap outcomeFields
            (r.1, if r.2.any fun o => o.2.isSome then ok list else refuse .full list)

/-- ANNOUNCE (R79). -/
def execAnnounce (tag screen cls : Nat) (clips : List Nat) (s : State) : Host.Outcome State Fault Refusal :=
  houseRequest 0x3C tag (House.announce screen cls clips) s

/-- The screen and record of a queued announcement (R76). -/
def House.findAnn (h : House) (id : Nat) : Option (Screen × Ann) :=
  allScreens.findSome? fun n => ((h.queue n).find? fun a => a.id = id).map fun a => (n, a)

/-- ANNOUNCE CANCEL (R84). -/
def execAnnounceCancel (tag id : Nat) (s : State) : Host.Outcome State Fault Refusal :=
  houseRequest 0x3D tag (fun h =>
    match h.findAnn id with
    | some (n, a) =>
      if a.removed then (h, refuse .notFound [])
      else (h.removeAnn n a true, ok [uBool (h.removedAtOnce n a)])
    | none => (h, refuse .notFound [])) s

/-- The announcement record of R196. -/
def Ann.fields (n : Screen) (a : Ann) : List Field :=
  [u16 a.id, u8 a.cls.code, u8 a.priority, u8 a.origin.code, u16 a.origin.number, u8 a.clips.length]
    ++ (List.range 6).map (fun i => u8 (a.clips.getD i 0))
    ++ uTime (some a.enqueued) ++ [u32 a.wait, u8 a.position, uBool a.removed, u8 (screenCode n)]

/-- The clip being played on a screen, 0 when none is (R86). -/
def House.playing (h : House) (n : Screen) : Nat :=
  match (h.player n).state, h.heldAnn n with
  | .playing, some a => a.clips.getD (a.position - 1) 0
  | _, _ => 0

/-- The fields of QUEUE READ: the sample reached only while a clip plays, the gap time left only in GAP (R86, R197; log
entry 12). -/
def House.queueRead (h : House) (n : Screen) (first : Nat) : List Field :=
  let p := h.player n
  let head : List Field :=
    [u8 p.state.code, u16 (p.held.getD 0), u8 (h.playing n)]
      ++ uOpt 3 (if p.state = .playing then some p.sample else none)
      ++ uOpt 4 (if p.state = .gap then some (ceilDiv p.gapLeft Config.blockFrames) else none)
      ++ [u8 (h.queue n).length]
  (recordList head 0 (((h.queue n).drop (first - 1)).map (Ann.fields n))).2

/-- QUEUE READ (R86). -/
def execQueueRead (tag screen first : Nat) (s : State) : Host.Outcome State Fault Refusal :=
  houseRequest 0x3E tag (onScreen screen fun n h =>
    if first = 0 then (h, refuse .badValue []) else (h, ok (h.queueRead n first))) s

/-- ANNOUNCEMENT_EXPIRY: the wait of an announcement that is not held reaches its max wait (R82). -/
def execAnnouncementExpiry (id : Nat) (s : State) : Host.Outcome State Fault Refusal :=
  houseEvent (fun h =>
    match h.findAnn id with
    | some (n, a) => if (h.player n).held = some id then h else (h.depart n a .expired).settleQueue n
    | none => h) s

/-- GAP_END: the inter-clip gap has passed (R89). -/
def execGapEnd (n : Screen) (s : State) : Host.Outcome State Fault Refusal :=
  houseEvent (fun h => if (h.player n).state = .gap then h.endGap n else h) s

end Machine
end Sys2Proof
end

