-- ==== Sys2Proof/Machine/LotCommands.lean ====
section
/-! DEFINITION. The meanings of the lane and lot commands (chapters 5 to 7). -/

set_option autoImplicit false

namespace Sys2Proof
namespace Machine

/-- The meaning of a request that names an entry lane. -/
def entryRequest (kind tag lane : Nat) (rule : EntryId → State → State × Answer) (s : State) :
    Host.Outcome State Fault Refusal :=
  request kind tag (onEntry lane rule) s

/-! ### Settings (R95) -/

/-- The map a byte names: 0 is SHARED, else a screen (R95, log entry 12). -/
def mapOfCode (m : Nat) : Option (Option Screen) :=
  if m = 0 then some none else (screenOfCode m).map some

/-- The settings LANE SET carries for an entry lane, when in range (R95). -/
def entrySettings (map debounce armTimeout passTimeout : Nat) : Option LaneSettings :=
  match mapOfCode map with
  | some m =>
    if 50 ≤ debounce ∧ debounce ≤ 500 ∧ 1 ≤ armTimeout ∧ armTimeout ≤ 10 ∧ 10 ≤ passTimeout ∧ passTimeout ≤ 300 then
      some { map := m, debounce := debounce, armTimeout := armTimeout, passTimeout := passTimeout }
    else none
  | none => none

/-- LANE SET (R95). A value out of range is BAD_VALUE in every state of the lane (log entry 43). -/
def execLaneSet (tag lane map debounce armTimeout passTimeout : Nat) (s : State) :
    Host.Outcome State Fault Refusal :=
  match exitOfCode lane with
  | some j =>
    request 0x40 tag (fun s =>
      if 50 ≤ debounce ∧ debounce ≤ 500 then (s.onExit j fun x => { x with debounce := debounce }, ok [])
      else (s, refuse .badValue [])) s
  | none =>
    entryRequest 0x40 tag lane (fun k s =>
      match entrySettings map debounce armTimeout passTimeout with
      | none => (s, refuse .badValue [])
      | some t =>
        if (s.lane k).state = .closed then (s.onLane k fun l => { l with settings := t }, ok [])
        else (s, refuse .badState [])) s

/-! ### Opening, closing, admitting (R98, R100, R101, R106, R111) -/

/-- The rule of LANE OPEN (R98). -/
def State.laneOpen (k : EntryId) (s : State) : State × Answer :=
  let l := s.lane k
  match l.state with
  | .closed | .jammed =>
    if l.raised then (s, refuse .busy [])
    else
      let s1 := s.onLane k fun l => { l with closePending := false }
      let s2 := if l.arrive.occupied then s1.arrival k else s1.reachIdle k
      (s2, ok [u8 (s2.lane k).state.code])
  | _ => (s.onLane k fun l => { l with closePending := false }, ok [u8 l.state.code])

/-- LANE OPEN (R98). -/
def execLaneOpen (tag lane : Nat) (s : State) : Host.Outcome State Fault Refusal :=
  entryRequest 0x41 tag lane State.laneOpen s

/-- LANE CLOSE (R111). The reply says whether the close took effect. -/
def execLaneClose (tag lane : Nat) (s : State) : Host.Outcome State Fault Refusal :=
  entryRequest 0x42 tag lane (fun k s =>
    match (s.lane k).state with
    | .closed => (s, refuse .badState [])
    | .idle | .jammed => (s.closeLane k, ok [uBool true])
    | _ => (s.onLane k fun l => { l with closePending := true }, ok [uBool false])) s

/-- A given stall has a row and a position in range (R101). -/
def stallInRange (row position : Nat) : Bool := decide (1 ≤ row ∧ row ≤ 16 ∧ 1 ≤ position ∧ position ≤ 120)

/-- The rule of ADMIT (R101). -/
def State.grantStall (k : EntryId) (screen : Nat) (stall : Option (Nat × Nat)) (party : Nat) (s : State) : State × Answer :=
  let inRange : Bool := match stall with
    | some p => stallInRange p.1 p.2
    | none => true
  match screenOfCode screen, inRange with
  | some n, true =>
    let l := s.lane k
    if l.state = .idle then (s, refuse .noVehicle [])
    else if l.state ≠ .waiting then (s, refuse .badState [])
    else if l.settings.map ≠ none ∧ l.settings.map ≠ some n then (s, refuse .badValue [])
    else
      match s.house.judgeStall n stall with
      | .error st => (s, refuse st [])
      | .ok p => (s.takeGrant k n p party, ok [u8 (screenCode n), u8 p.1, u8 p.2])
  | _, _ => (s, refuse .badValue [])

/-- ADMIT (R101, R120). -/
def execAdmit (tag lane screen : Nat) (stall : Option (Nat × Nat)) (party : Nat) (s : State) :
    Host.Outcome State Fault Refusal :=
  entryRequest 0x43 tag lane (fun k s => s.grantStall k screen stall party) s

/-- REFUSE (R100). -/
def execRefuse (tag lane : Nat) (s : State) : Host.Outcome State Fault Refusal :=
  entryRequest 0x44 tag lane (fun k s =>
    match (s.lane k).state with
    | .waiting => (s.onLane k fun l => { l with refused := true }, ok [])
    | .idle => (s, refuse .noVehicle [])
    | _ => (s, refuse .badState [])) s

/-- ATTENDANT PASS (R106). -/
def execAttendantPass (tag lane : Nat) (s : State) : Host.Outcome State Fault Refusal :=
  entryRequest 0x45 tag lane (fun k s =>
    match (s.lane k).state with
    | .passing => (s.passGrant k .attendant, ok [])
    | .idle => (s, refuse .noVehicle [])
    | _ => (s, refuse .badState [])) s

/-! ### Loops, arms and timers -/

/-- LOOP_RAW_CHANGE: the raw level of a loop input (R94). -/
def execLoopRawChange (loop : LoopId) (occupied : Bool) (s : State) : Host.Outcome State Fault Refusal :=
  .next (s.loopRaw loop occupied)

/-- ARRIVE_SETTLES (R94, R99, R103, R104). -/
def execArriveSettles (k : EntryId) (s : State) : Host.Outcome State Fault Refusal := .next (s.arriveSettles k)

/-- CLEAR_SETTLES (R94, R96, R103, R108, R109). -/
def execClearSettles (k : EntryId) (s : State) : Host.Outcome State Fault Refusal := .next (s.clearSettles k)

/-- EXIT_SETTLES (R94, R112). -/
def execExitSettles (j : ExitId) (s : State) : Host.Outcome State Fault Refusal := .next (s.exitSettles j)

/-- ARMUP_ASSERTED: the level of ARMUP-k (R93, R102). -/
def execArmupAsserted (k : EntryId) (level : Bool) (s : State) : Host.Outcome State Fault Refusal :=
  .next (s.armUpLevel k level)

/-- ARMDN_ASSERTED: the level of ARMDN-k (R93, R107). -/
def execArmdnAsserted (k : EntryId) (level : Bool) (s : State) : Host.Outcome State Fault Refusal :=
  .next (s.armDownLevel k level)

/-- ARM_TIMEOUT (R102, R107, R110). -/
def execArmTimeout (k : EntryId) (s : State) : Host.Outcome State Fault Refusal := .next (s.armTimeout k)

/-- PASS_TIMEOUT (R105). -/
def execPassTimeout (k : EntryId) (s : State) : Host.Outcome State Fault Refusal := .next (s.passTimeout k)

/-! ### Lot configuration (R116, R117) -/

/-- A fill order names each row from 1 to the number of rows once and no other (R116). -/
def fillOrder (rows : Nat) (fill : List Nat) : Bool :=
  decide (fill.length = rows) && (List.range' 1 rows).all fun r => fill.contains r

/-- The first check of the layout form (R116). -/
def layoutInRange (rows : Nat) (counts fill : List Nat) (capacity : Nat) : Bool :=
  decide (1 ≤ rows ∧ rows ≤ 16 ∧ counts.length = rows) && (counts.all fun c => decide (c ≤ 120))
    && fillOrder rows fill && decide (capacity ≤ counts.sum)

/-- The stalls still available to a screen: 1,200 less the other screens' counts (R116). -/
def House.stallsLeft (h : House) (n : Screen) : Nat :=
  Config.siteStalls - ((allScreens.filter fun m => m ≠ n).map fun m => (h.lot m).stallCount).sum

/-- LOT CONFIG in layout form (R116). -/
def execLotConfigLayout (tag screen rows : Nat) (counts fill : List Nat) (capacity : Nat) (s : State) :
    Host.Outcome State Fault Refusal :=
  houseRequest 0x46 tag (onScreen screen fun n h =>
    if ¬ layoutInRange rows counts fill capacity then (h, refuse .badValue [])
    else if (h.lot n).occupancy ≠ 0 then (h, refuse .badState [])
    else if h.stallsLeft n < counts.sum then (h, refuse .badValue [u16 (h.stallsLeft n)])
    else
      ((h.onLot n fun l =>
        { l with
          rows := counts.map fun c => List.replicate c Stall.vacant
          fill := fill
          capacity := capacity }).refreshFull n, ok [u16 counts.sum])) s

/-- LOT CONFIG in capacity form (R117). -/
def execLotConfigCapacity (tag screen capacity : Nat) (s : State) : Host.Outcome State Fault Refusal :=
  houseRequest 0x46 tag (onScreen screen fun n h =>
    if (h.lot n).stallCount < capacity then (h, refuse .badValue [])
    else
      let taken := max capacity (h.lot n).occupancy
      ((h.onLot n fun l => { l with capacity := taken }).refreshFull n, ok [u16 taken])) s

/-! ### Stalls (R122, R124, R125, R128) -/

/-- A request that names one stall: a code or a value out of range is refused BAD_VALUE. -/
def onStallOf (screen row position : Nat) (rule : Screen → House → House × Answer) (h : House) : House × Answer :=
  onScreen screen (fun n h => if stallInRange row position then rule n h else (h, refuse .badValue [])) h

/-- The state of a stall, none for UNUSED (R114). -/
def House.stallState (h : House) (n : Screen) (row position : Nat) : Option StallState :=
  (h.stall? n row position).map Stall.state

/-- STALL BLOCK (R122). -/
def execStallBlock (tag screen row position : Nat) (s : State) : Host.Outcome State Fault Refusal :=
  houseRequest 0x48 tag (onStallOf screen row position fun n h =>
    if h.stallState n row position = some .free then
      (h.onStall n row position fun x => { x with state := .blocked }, ok [])
    else (h, refuse .badState [])) s

/-- STALL UNBLOCK (R122). -/
def execStallUnblock (tag screen row position : Nat) (s : State) : Host.Outcome State Fault Refusal :=
  houseRequest 0x49 tag (onStallOf screen row position fun n h =>
    if h.stallState n row position = some .blocked then
      (h.onStall n row position fun _ => .vacant, ok [])
    else (h, refuse .badState [])) s

/-- DEPART (R124). The reply gives the number of orders cancelled. -/
def execDepart (tag screen row position : Nat) (s : State) : Host.Outcome State Fault Refusal :=
  houseRequest 0x4A tag (onStallOf screen row position fun n h =>
    if h.stallState n row position = some .admitted then
      (h.departStall n (row, position), ok [u8 (h.stallOrders n row position).length])
    else (h, refuse .badState [])) s

/-- SWEEP (R125). The reply gives the stalls freed and the orders cancelled: at most 192 orders, one byte (R138, R197). -/
def execSweep (tag screen : Nat) (s : State) : Host.Outcome State Fault Refusal :=
  houseRequest 0x4B tag (onScreen screen fun n h =>
    let stalls := (h.lot n).admittedStalls
    (stalls.foldl (House.departStall n) h,
     ok [u16 stalls.length, u8 (stalls.map fun p => (h.stallOrders n p.1 p.2).length).sum])) s

/-- A stall record (R114, R128); none is UNUSED. The admitting lane, when absent, stands behind its presence byte
(R197). -/
def stallFields (row position : Nat) : Option Stall → List Field
  | some x =>
    [u8 row, u8 position, u8 x.state.code, u16 x.party] ++ uOpt 1 (x.lane.map entryCode)
      ++ uTime x.admitTime ++ [u8 x.openOrders]
  | none => [u8 row, u8 position, u8 unusedCode, u16 0] ++ uOpt 1 none ++ uTime none ++ [u8 0]

/-- The summary of a screen's lot (R128). The number of rows is the count of the stall counts, and the fill order has its
own count; the numbers of stalls by state, ASSIGNED among them, take two bytes as the stall count does (log entry 12). -/
def House.lotSummary (h : House) (n : Screen) : List Field :=
  let l := h.lot n
  [uBool (l.rows ≠ []), u8 l.rows.length] ++ l.rows.map (fun r => u8 r.length)
    ++ [u8 l.fill.length] ++ l.fill.map u8
    ++ [u16 l.stallCount, u16 l.capacity, u16 l.occupancy, uBool l.full, u16 (l.countState .free),
        u16 (l.countState .assigned), u16 (l.countState .admitted), u16 (l.countState .blocked),
        u8 (admissionCode l.admission), u8 (tget h.backlog n)]

/-- The fields of STALL READ of a row from a first position; the last position is 0 when no record is returned (R128;
log entry 12). -/
def House.stallRow (h : House) (n : Screen) (row position : Nat) : List Field :=
  let stalls := (((h.lot n).rows.getD (row - 1) []).zipIdx 1).drop (position - 1)
  let r := recordList (h.lotSummary n) 1 (stalls.map fun x => stallFields row x.2 (some x.1))
  r.2 ++ [u8 (if r.1 = 0 then 0 else position + r.1 - 1)]

/-- STALL READ of one stall (form 1), or of a row from a first position (form 2) (R128). -/
def execStallRead (tag form screen row position : Nat) (s : State) : Host.Outcome State Fault Refusal :=
  houseRequest 0x47 tag (onStallOf screen row position fun n h =>
    match form with
    | 1 => (h, ok (h.lotSummary n ++ stallFields row position (h.stall? n row position)))
    | 2 => (h, ok (h.stallRow n row position))
    | _ => (h, refuse .badValue [])) s

/-! ### Counters (R133, R134) -/

/-- The clear results of COUNTERS READ (R133). -/
inductive ClearResult where
  | notRequested | cleared | notCleared
  deriving DecidableEq, Repr

/-- Codes of a clear result, in the order of R133. -/
def ClearResult.code : ClearResult → Nat
  | .notRequested => 1 | .cleared => 2 | .notCleared => 3

/-- The rule of COUNTERS READ for an entry lane (R133, R134): the reply shows the counters, and the cleared-at time (log
entry 39), before the clear. -/
def State.readEntry (k : EntryId) (clear : Bool) (s : State) : State × Answer :=
  let l := s.lane k
  let result : ClearResult :=
    if ¬ clear then .notRequested else if l.grant = none then .cleared else .notCleared
  let fields :=
    l.block ++ [uBool l.rehearsal] ++ l.counters.fields ++ uTime l.counters.clearedAt ++ [u8 result.code]
  (if result = .cleared then
    s.onLane k fun l => { l with counters := { Counters.zero with clearedAt := some s.house.clock } }
  else s, ok fields)

/-- The rule of COUNTERS READ for an exit lane (R133, R134): the reply shows the counter, and the cleared-at time (log
entry 39), before the clear. -/
def State.readExit (j : ExitId) (clear : Bool) (s : State) : State × Answer :=
  let x := s.exitLane j
  let result : ClearResult := if clear then .cleared else .notRequested
  let fields :=
    [u32 x.debounce, u8 (loopCode x.loop.occupied), uBool x.noted] ++ counterFields x.exits ++ uTime x.clearedAt
      ++ [u8 result.code]
  (if clear then s.onExit j fun x => { x with exits := 0, clearedAt := some s.house.clock } else s, ok fields)

/-- COUNTERS READ (R133, R134). An option byte that names no value is refused, with the lane's block for an entry lane
(R93; log entry 25). -/
def execCountersRead (tag lane clear : Nat) (s : State) : Host.Outcome State Fault Refusal :=
  request 0x4C tag (fun s =>
    if isFlag clear then
      match entryOfCode lane, exitOfCode lane with
      | some k, _ => s.readEntry k (clear = 1)
      | none, some j => s.readExit j (clear = 1)
      | none, none => (s, refuse .badValue [])
    else onEntry lane (fun _ s => (s, refuse .badValue [])) s) s

end Machine
end Sys2Proof
end

