-- ==== Sys2Proof/Machine/OrderCommands.lean ====
section
/-! DEFINITION. The meanings of the order and kitchen commands (chapters 8 and 9). -/

set_option autoImplicit false

namespace Sys2Proof
namespace Machine

/-! ### Settings (R139, R161, R162) -/

/-- ITEM CLASS SET (R161). -/
def execItemClassSet (tag item station base perUnit : Nat) (s : State) : Host.Outcome State Fault Refusal :=
  houseRequest 0x50 tag (fun h =>
    match stationOfCode station with
    | some st =>
      if 1 ≤ item ∧ item ≤ 64 ∧ base ≤ 1800 ∧ perUnit ≤ 600 then
        let row : ItemClass := { station := st, base := base, perUnit := perUnit }
        ({ h with items := h.items.setIfInBounds (item - 1) (some row) }, ok [])
      else (h, refuse .badValue [])
    | none => (h, refuse .badValue [])) s

/-- STATION SET (R162). Raised slots start tickets at once (R165). -/
def execStationSet (tag station opened slots maxWait : Nat) (s : State) : Host.Outcome State Fault Refusal :=
  houseRequest 0x51 tag (fun h =>
    match stationOfCode station with
    | some st =>
      if isFlag opened ∧ 1 ≤ slots ∧ slots ≤ 8 ∧ 60 ≤ maxWait ∧ maxWait ≤ 3600 then
        let cooking := (h.station st).cookingCount
        if slots < cooking then (h, refuse .inUse [u8 cooking])
        else
          ((h.onStation st fun x => { x with opened := opened = 1, slots := slots, maxWait := maxWait }).fillSlots st,
           ok [])
      else (h, refuse .badValue [])
    | none => (h, refuse .badValue [])) s

/-- ORDER POLICY SET (R139); a change tries the deferred orders of every screen (R146). -/
def execOrderPolicySet (tag lead margin repeats interval limit : Nat) (s : State) :
    Host.Outcome State Fault Refusal :=
  houseRequest 0x59 tag (fun h =>
    if 60 ≤ lead ∧ lead ≤ 1800 ∧ margin ≤ 600 ∧ repeats ≤ 3 ∧ 60 ≤ interval ∧ interval ≤ 900 ∧ 5 ≤ limit
        ∧ limit ≤ 60 then
      let p : OrderPolicy :=
        { lead := lead, margin := margin, repeats := repeats, interval := interval, limit := limit }
      (House.releaseAll { h with orderPolicy := p }, ok [])
    else (h, refuse .badValue [])) s

/-! ### Placement (R140 to R143) -/

/-- The order number after `i`: from 999 back to 1 (R140). -/
def nextOrderNumber (i : Nat) : Nat := if i < 999 then i + 1 else 1

/-- The number the next order is given: the first one not held, from the counter on (R140). -/
def House.freeNumber (h : House) : Nat :=
  firstFree nextOrderNumber (h.orders.map Order.number) h.orders.length h.nextNumber

/-- A line passes the first check of ORDER PLACE (R141). -/
def House.lineValid (h : House) (l : OrderLine) : Bool :=
  decide (1 ≤ l.item ∧ l.item ≤ 64 ∧ 1 ≤ l.quantity ∧ l.quantity ≤ 15) && (h.item? l.item).isSome

/-- An order enters the table (R138, R140), and its stall's open-order count rises (R123). -/
def House.enterOrder (n : Screen) (row position party : Nat) (mode : OrderMode) (lines : List OrderLine)
    (state : OrderState) (tickets : List StationId) (h : House) : House :=
  let o : Order :=
    { number := h.freeNumber, screen := n, row := row, position := position, party := party, mode := mode,
      placed := h.clock, sequence := h.nextSequence, promised := none, lines := lines, tickets := tickets,
      state := state, ready := none, made := 0, remaining := h.orderPolicy.repeats + 1, call := none, due := none,
      age := 0, late := false, callWaiting := false, notCalled := false }
  { h with
    orders := h.orders ++ [o], nextNumber := nextOrderNumber o.number,
    nextSequence := h.nextSequence + 1 }.onStall n row position fun x => { x with openOrders := x.openOrders + 1 }

/-- The wait W of each station an order touches, its new ticket counted (R174). -/
def House.waits (h : House) (lines : List OrderLine) : List (StationId × Nat) :=
  (h.touched lines).map fun st => (st, (h.station st).wait (h.prepFor lines st))

/-- The largest wait of a list: the estimate E (R174). -/
def largestWait (ws : List (StationId × Nat)) : Nat := (ws.map Prod.snd).foldl max 0

/-- An accepted order whose intake is OPEN enters the kitchen (R142). Its tickets start after the reply has been filled
in: `House.startPlaced`. -/
def House.placeOpen (n : Screen) (row position party : Nat) (mode : OrderMode) (lines : List OrderLine) (h : House) :
    House × Answer :=
  let e := largestWait (h.waits lines)
  let number := h.freeNumber
  let sts := h.touched lines
  let h1 := (h.enterOrder n row position party mode lines .queued sts).joinTickets number lines
  let h2 := h1.onOrder number fun o => { o with promised := some (h.promise e) }
  (h2,
   ok ([u16 number, u8 OrderState.queued.code] ++ uTime (some (h.promise e)) ++ [u24 e]))

/-- An order whose intake is DEFER enters the table DEFERRED; the reply says AT_BREAK (R143, log entry 12). -/
def House.placeDeferred (n : Screen) (row position party : Nat) (mode : OrderMode) (lines : List OrderLine)
    (h : House) : House × Answer :=
  (h.enterOrder n row position party mode lines .deferred [],
   ok [u16 h.freeNumber, u8 OrderState.deferred.code, u8 1])

/-- The checks of ORDER PLACE from the fourth on (R141). -/
def House.placeOrder (n : Screen) (row position party : Nat) (mode : OrderMode) (lines : List OrderLine) (h : House) :
    House × Answer :=
  let sts := h.touched lines
  if Config.orderRecords ≤ h.orders.length then (h, refuse .full [])
  else
    match sts.find? fun st => !(h.station st).opened with
    | some st => (h, refuse .closed [u8 (stationCode st)])
    | none =>
      match (h.row n).intake with
      | .closed => (h, refuse .closed [u8 (screenCode n)])
      | .defer => h.placeDeferred n row position party mode lines
      | .open =>
        match sts.find? fun st => !(h.station st).hasRoom with
        | some st => (h, refuse .stationFull [u8 (stationCode st)])
        | none =>
          let ws := h.waits lines
          if ws.any fun w => decide ((h.station w.1).maxWait < w.2) then
            (h, refuse .busy (u8 ws.length :: ws.flatMap (fun w => [u8 (stationCode w.1), u24 w.2])
              ++ [u24 (largestWait ws)]))
          else h.placeOpen n row position party mode lines

/-- The rule of ORDER PLACE (R141). The first failing line is named counted from 1, and only where the rest of the first
check passes (log entry 40). -/
def House.orderPlace (screen row position mode : Nat) (lines : List OrderLine) (h : House) : House × Answer :=
  match screenOfCode screen, OrderMode.ofCode mode with
  | some n, some m =>
    if ¬ stallInRange row position ∨ lines.length = 0 ∨ 8 < lines.length then (h, refuse .badValue (uOpt 1 none))
    else
      match lines.findIdx? fun l => !h.lineValid l with
      | some i => (h, refuse .badValue (uOpt 1 (some (i + 1))))
      | none =>
        match h.stall? n row position with
        | some x =>
          if x.state ≠ .admitted then (h, refuse .notPresent [])
          else if 3 ≤ x.openOrders then (h, refuse .limit [])
          else h.placeOrder n row position x.party m lines
        | none => (h, refuse .notPresent [])
  | _, _ => (h, refuse .badValue (uOpt 1 none))

/-- The tickets of the order that a placement has added to the `before` orders start where slots are free, once its
reply has been filled in (R142, R165). -/
def House.startPlaced (before : Nat) (h : House) : House :=
  match h.orders.drop before with
  | o :: _ => o.tickets.foldl House.fillSlots h
  | [] => h

/-- ORDER PLACE (R141 to R143). -/
def execOrderPlace (tag screen row position mode : Nat) (lines : List OrderLine) (s : State) :
    Host.Outcome State Fault Refusal :=
  .next (s.receive 0x52 tag (onHouseRule (House.orderPlace screen row position mode lines))
    (State.onHouse (House.startPlaced s.house.orders.length)))

/-! ### The end of an order (R155, R157) -/

/-- ORDER CANCEL (R157). -/
def execOrderCancel (tag number : Nat) (s : State) : Host.Outcome State Fault Refusal :=
  houseRequest 0x53 tag (fun h =>
    match h.order? number with
    | some _ => (h.endOrder .canceled .request number, ok [])
    | none => (h, refuse .notFound [])) s

/-- ORDER COLLECT (R155). -/
def execOrderCollect (tag number : Nat) (s : State) : Host.Outcome State Fault Refusal :=
  houseRequest 0x54 tag (fun h =>
    match h.order? number with
    | some o =>
      if o.mode = .pickup ∧ (o.state = .ready ∨ o.state = .called) then (h.endOrder .collected .none number, ok [])
      else (h, refuse .badState [])
    | none => (h, refuse .notFound [])) s

/-- ORDER DELIVERED (R157). -/
def execOrderDelivered (tag number : Nat) (s : State) : Host.Outcome State Fault Refusal :=
  houseRequest 0x55 tag (fun h =>
    match h.order? number with
    | some o =>
      if o.mode = .runner ∧ o.state = .ready then (h.endOrder .delivered .none number, ok [])
      else (h, refuse .badState [])
    | none => (h, refuse .notFound [])) s

/-- CALL_REPEAT_DUE: the next call of an order falls due (R150). -/
def execCallRepeatDue (number : Nat) (s : State) : Host.Outcome State Fault Refusal :=
  houseEvent (fun h => h.repeatDue number) s

/-! ### Bumps (R167, R168) -/

/-- A QUEUED ticket becomes DONE without taking a slot (R168). -/
def House.bumpQueued (st : StationId) (t : Ticket) (h : House) : House :=
  (h.onTicket st t.joined fun t => { t with state := .done }).ticketDone t.order

/-- The rule of BUMP (R168). The reply says whether a VOID ticket was cleared. -/
def House.bumpNamed (st : StationId) (number : Nat) (h : House) : House × Answer :=
  match h.liveTicket st number, h.voidTicket st number with
  | some t, _ =>
    match t.state with
    | .done => (h, refuse .alreadyDone [])
    | .queued => (h.bumpQueued st t, ok [uBool false])
    | .cooking | .void => (h.finishTicket st t, ok [uBool false])
  | none, some t => (h.clearVoid st t, ok [uBool true])
  | none, none => (h, refuse .notFound [])

/-- BUMP (R168). -/
def execBump (tag number station : Nat) (s : State) : Host.Outcome State Fault Refusal :=
  houseRequest 0x56 tag (fun h =>
    match stationOfCode station with
    | some st => if 1 ≤ number ∧ number ≤ 999 then h.bumpNamed st number else (h, refuse .badValue [])
    | none => (h, refuse .badValue [])) s

/-- BUTTON_BUMP: a press of BUMP-s; at a rehearsing station it is not taken (R167, R183). -/
def execButtonBump (st : StationId) (s : State) : Host.Outcome State Fault Refusal :=
  houseEvent (fun h =>
    if (h.station st).rehearsal ∨ 0 < (h.station st).pressWait then h else h.bumpButton st) s

/-! ### Reading (R159, R175) -/

/-- An order put in its place in a list in order of number. -/
def insertOrder (o : Order) : List Order → List Order
  | [] => [o]
  | p :: rest => if o.number ≤ p.number then o :: p :: rest else p :: insertOrder o rest

/-- The orders from a number upward, in order of number (R159). -/
def House.ordersFrom (h : House) (first : Nat) : List Order :=
  (h.orders.filter fun o => first ≤ o.number).foldr insertOrder []

/-- The fields of ORDER READ's list from a number on; the last number is 0 when no record is returned (R159; log entry
12). -/
def House.orderList (h : House) (number : Nat) : List Field :=
  let r := recordList [u8 h.orders.length] 2 ((h.ordersFrom number).map fun o => o.record o.state.code)
  r.2 ++ [u16 ((((h.ordersFrom number).take r.1).getLast?.map Order.number).getD 0)]

/-- The rule of ORDER READ: form 1 of one order, form 2 of a list from a number on (R159). -/
def House.orderRead (form number : Nat) (h : House) : Answer :=
  if number = 0 ∨ 999 < number then refuse .badValue []
  else
    match form with
    | 1 =>
      match h.order? number with
      | some o => ok (o.record o.state.code ++ [u32 (o.due.getD 0xFFFFFFFF)])
      | none => refuse .notFound []
    | 2 => ok (h.orderList number)
    | _ => refuse .badValue []

/-- ORDER READ (R159). -/
def execOrderRead (tag form number : Nat) (s : State) : Host.Outcome State Fault Refusal :=
  readRequest 0x57 tag (fun s => s.house.orderRead form number) s

/-- The overrun of a COOKING ticket whose elapsed count has passed its prep seconds (R166). -/
def Ticket.overrun (t : Ticket) : Option Nat :=
  if t.state = .cooking ∧ t.prep * 1000 < t.elapsed then some (t.elapsed / 1000 - t.prep) else none

/-- A ticket in STATION READ (R175): what is not present stands behind a presence byte of 0. -/
def Ticket.fields (t : Ticket) : List Field :=
  [u16 t.order, u8 t.state.code, u8 t.lines.length] ++ t.lines.flatMap (fun l => [u8 l.item, u8 l.quantity])
    ++ [u16 t.prep] ++ uOpt 4 t.cooked ++ uTime t.cookStart
    ++ uOpt 4 (if t.cooking then some (t.elapsed / 1000) else none) ++ uOpt 4 t.overrun

/-- The number of tickets of a station in a state (R175). -/
def Station.countState (x : Station) (st : TicketState) : Nat := x.queue.countP fun t => t.state = st

/-- The fields of STATION READ (R175). -/
def Station.fields (x : Station) (first : Nat) : List Field :=
  let head : List Field :=
    [uBool x.opened, u8 x.slots, u16 x.maxWait, uBool x.rehearsal, uBool x.readyLit, u8 x.queue.length,
     u8 (x.countState .queued), u8 (x.countState .cooking), u8 (x.countState .done), u8 (x.countState .void),
     u8 x.cookingCount, u8 x.freeSlots, u24 x.backlog, u24 (x.wait 0)]
  (recordList head 0 ((x.queue.drop (first - 1)).map Ticket.fields)).2

/-- STATION READ (R175). -/
def execStationRead (tag station first : Nat) (s : State) : Host.Outcome State Fault Refusal :=
  readRequest 0x58 tag (fun s =>
    match stationOfCode station with
    | some st =>
      if 1 ≤ first ∧ first ≤ 48 then ok ((s.house.station st).fields first) else refuse .badValue []
    | none => refuse .badValue []) s

end Machine
end Sys2Proof
end

