-- ==== Sys2Proof/Machine/RehearsalCommands.lean ====
section
/-! DEFINITION. The meanings of the rehearsal commands (chapter 10). -/

set_option autoImplicit false

namespace Sys2Proof
namespace Machine

/-! ### REHEARSE (R177) -/

/-- The rule of REHEARSE for a screen (R177, R178). An auto-answer byte sent with OFF is not looked at, and one missing or
out of range with ON is BAD_VALUE in every state (log entries 43, 44). What is being received on CRX-n when the screen
leaves is taken from its next character on (log entry 45). -/
def House.rehearseScreen (n : Screen) (on : Bool) (auto : Option Nat) (h : House) : House × Answer :=
  let setting : Option Bool := match on, auto with
    | false, _ => some false
    | true, some 0 => some false
    | true, some 1 => some true
    | true, _ => none
  match setting with
  | none => (h, refuse .badValue [])
  | some a =>
    let c := h.ctl n
    if c.rehearsal = on then (if on then h.onCtl n fun c => { c with autoAnswer := a } else h, ok [])
    else if c.state ≠ .idle ∨ (h.line n).unit ≠ .quiet then (h, refuse .badState [])
    else if on then
      ((h.onCtl n fun c => { c with rehearsal := true, autoAnswer := a }).onLine n fun l => { l with rx := .blank },
       ok [])
    else
      ((h.onCtl n fun c => { c with rehearsal := false, generator := none }).onLine n fun l =>
        { l with autoDue := none }, ok [])

/-- The rule of REHEARSE for an entry lane (R177, R180, R182). -/
def State.rehearseLane (on : Bool) (k : EntryId) (s : State) : State × Answer :=
  let l := s.lane k
  if l.rehearsal = on then (s, ok [])
  else if l.state ≠ .closed then (s, refuse .badState [])
  else if l.raised then (s, refuse .busy [])
  else (s.onLane k (if on then EntryLane.enterRehearsal else EntryLane.leaveRehearsal), ok [])

/-- The rule of REHEARSE for a station (R177, R183). -/
def House.rehearseStation (st : StationId) (on : Bool) (h : House) : House × Answer :=
  let x := h.station st
  if x.rehearsal = on then (h, ok [])
  else if on then
    if x.queue = [] then (h.onStation st fun x => { x with rehearsal := true }, ok [])
    else (h, refuse .badState [])
  else
    ((h.onStation st fun x => { x with rehearsal := false, pressWait := Config.pressMs }).clearVoids st x.queue.length,
     ok [])

/-- The rule of REHEARSE (R177). For a lane or a station an auto-answer byte is not looked at (log entry 44). -/
def State.rehearse (unit setting : Nat) (auto : Option Nat) (s : State) : State × Answer :=
  if ¬ isFlag setting then
    match entryOfCode unit with
    | some _ => onEntry unit (fun _ s => (s, refuse .badValue [])) s
    | none => (s, refuse .badValue [])
  else
    match screenOfCode unit, entryOfCode unit, stationOfCode unit with
    | some n, _, _ => onHouseRule (House.rehearseScreen n (setting = 1) auto) s
    | _, some _, _ => onEntry unit (State.rehearseLane (setting = 1)) s
    | _, _, some st => onHouseRule (House.rehearseStation st (setting = 1)) s
    | none, none, none => (s, refuse .badValue [])

/-- REHEARSE (R177). -/
def execRehearse (tag unit setting : Nat) (auto : Option Nat) (s : State) : Host.Outcome State Fault Refusal :=
  request 0x60 tag (State.rehearse unit setting auto) s

/-! ### Injections on a screen (R178, R179) -/

/-- A rule of an injection that names a screen: BAD_STATE while it is not in rehearsal (R177). -/
def onRehearsing (screen : Nat) (rule : Screen → House → House × Answer) (h : House) : House × Answer :=
  onScreen screen (fun n h => if (h.ctl n).rehearsal then rule n h else (h, refuse .badState [])) h

/-- The answer that INJECT ANSWER carries: D 1, N 2, W 3 with a sequence number, GARBLED 4 (R178, R196), whose
sequence number is not looked at (log entry 44). -/
def injectedForm (answer sequence : Nat) : Option LineForm :=
  match answer with
  | 1 => if sequence ≤ 15 then some (.done sequence) else none
  | 2 => if sequence ≤ 15 then some (.refused sequence) else none
  | 3 => if sequence ≤ 15 then some (.wait sequence) else none
  | 4 => some .garbled
  | _ => none

/-- INJECT ANSWER (R178). -/
def execInjectAnswer (tag screen answer sequence : Nat) (s : State) : Host.Outcome State Fault Refusal :=
  houseRequest 0x61 tag (fun h =>
    match injectedForm answer sequence with
    | some f => onRehearsing screen (fun n h => (h.answer n f, ok [])) h
    | none => (h, refuse .badValue [])) s

/-- AUTO_ANSWER: the automatic D falls due (R178). -/
def execAutoAnswer (n : Screen) (s : State) : Host.Outcome State Fault Refusal :=
  houseEvent (House.autoAnswered n) s

/-- INJECT ENDED (R178). -/
def execInjectEnded (tag screen content : Nat) (s : State) : Host.Outcome State Fault Refusal :=
  houseRequest 0x62 tag (fun h =>
    if 1 ≤ content ∧ content ≤ 65535 then onRehearsing screen (fun n h => (h.endedReport n content, ok [])) h
    else (h, refuse .badValue [])) s

/-- INJECT STALL (R179). -/
def execInjectStall (tag screen : Nat) (s : State) : Host.Outcome State Fault Refusal :=
  houseRequest 0x63 tag (onRehearsing screen fun n h =>
    (h.onCtl n fun c => { c with stallMark := true, generator := none }, ok [])) s

/-- INJECT RESUME (R179). -/
def execInjectResume (tag screen : Nat) (s : State) : Host.Outcome State Fault Refusal :=
  houseRequest 0x64 tag (onRehearsing screen fun n h =>
    (h.onCtl n fun c =>
      { c with
        stallMark := false
        generator := if c.counting = .off then c.generator else c.generator.or (some 0) }, ok [])) s

/-- GENERATED_FRAME_PULSE: the generator's next pulse falls due (R179). -/
def execGeneratedFramePulse (n : Screen) (s : State) : Host.Outcome State Fault Refusal :=
  houseEvent (House.generatedPulse n) s

/-! ### Injections on a lane (R180, R181) -/

/-- A rule of an injection that names an entry lane: BAD_STATE while it is not in rehearsal (R177). -/
def onRehearsingLane (rule : EntryId → State → State × Answer) (k : EntryId) (s : State) : State × Answer :=
  if (s.lane k).rehearsal then rule k s else (s, refuse .badState [])

/-- An injected level of a loop (R180): the level the loop already has changes nothing. -/
def Loop.inject (l : Loop) (level : Bool) (debounce : Nat) : Loop :=
  if l.injected = level then l else { l with injected := level }.follow level debounce

/-- INJECT LOOP: ARRIVE 1 or CLEAR 2, OCCUPIED 1 or VACANT 2 (R180, R196). -/
def execInjectLoop (tag lane loop level : Nat) (s : State) : Host.Outcome State Fault Refusal :=
  entryRequest 0x65 tag lane (fun k s =>
    let set (f : Bool) : State × Answer :=
      onRehearsingLane (fun k s =>
        (s.onLane k fun l =>
          if loop = 1 then { l with arrive := l.arrive.inject f l.settings.debounce }
          else { l with clear := l.clear.inject f l.settings.debounce }, ok [])) k s
    match loop, level with
    | 1, 1 | 2, 1 => set true
    | 1, 2 | 2, 2 => set false
    | _, _ => (s, refuse .badValue [])) s

/-- INJECT JAM: HOLD 1 or FREE 2 (R181, R196). -/
def execInjectJam (tag lane action : Nat) (s : State) : Host.Outcome State Fault Refusal :=
  entryRequest 0x66 tag lane (fun k s =>
    match action with
    | 1 => onRehearsingLane (fun k s => (s.onLane k fun l => { l with sim := l.sim.hold }, ok [])) k s
    | 2 => onRehearsingLane (fun k s => (s.onLane k fun l => { l with sim := l.sim.free }, ok [])) k s
    | _ => (s, refuse .badValue [])) s

/-- SIMULATED_ARM_TRAVEL_END (R181). -/
def execSimulatedArmTravelEnd (k : EntryId) (s : State) : Host.Outcome State Fault Refusal := .next (s.armTravelEnd k)

/-! ### Injections at a station (R183) -/

/-- INJECT BUMP (R183). The reply gives the order number of the ticket acted on, 0 when none was. -/
def execInjectBump (tag station : Nat) (s : State) : Host.Outcome State Fault Refusal :=
  houseRequest 0x67 tag (fun h =>
    match stationOfCode station with
    | some st =>
      if (h.station st).rehearsal then
        (h.bumpButton st, ok [u16 (((h.station st).oldestCooking.map Ticket.order).getD 0)])
      else (h, refuse .badState [])
    | none => (h, refuse .badValue [])) s

end Machine
end Sys2Proof
end

