-- ==== Sys2Proof/Decode.lean ====
section
/-! DEFINITION. Requests as bytes. `decodeTableWord` is the host's: opcode_table.json gives no row any bits, so no word
spells a command. The bytes of requests are those of R195 to R197: `decodeRequest` reads a checked frame's kind and
body, total and rejecting by name, and `encodeRequest` writes them. Where R197 leaves a layout open, log entry 12 says
what is taken. -/

set_option autoImplicit false

namespace Sys2Proof

open Machine

/-- The command a word of the opcode table spells: the table gives no row any bits. -/
def decodeTableWord (_nbits _w : Nat) : Option Instr := none

/-! ### Decoding -/

/-- What the Site Link Interface makes of a checked frame before any block sees it (R190): a request of some row, or
the status it answers by itself. -/
inductive WireVerdict where
  /-- the kind is no request kind (BAD_KIND) -/
  | badKind
  /-- the kind allows no body of this length (BAD_LENGTH) -/
  | badLength
  /-- a form byte or presence byte names nothing (BAD_VALUE); `unit` is the lane or unit code that the body carries, 0
  when it carries none -/
  | badValue (unit : Nat)
  /-- a request -/
  | request (i : Instr)
  deriving DecidableEq, Repr

/-- The fields of a body with these widths, most significant byte first; none when the length is not their sum (R186,
R197). -/
def parse : List Nat → List Nat → Option (List Nat)
  | [], [] => some []
  | [], _ :: _ => none
  | w :: ws, bs => if bs.length < w then none else (parse ws (bs.drop w)).map (ofBytesBE (bs.take w) :: ·)

/-- A body of fixed width, handed to a row. -/
def fixedBody (widths : List Nat) (body : List Nat) (row : List Nat → Option Instr) : WireVerdict :=
  match parse widths body with
  | some vs => ((row vs).map WireVerdict.request).getD .badLength
  | none => .badLength

/-- A body that begins with a form byte (R197). Its length is judged first: another form byte is BAD_VALUE only where
the length is one that some form allows (R190). -/
def formBody (body : List Nat) (first second : List Nat → WireVerdict) : WireVerdict :=
  match body with
  | [] => .badLength
  | 1 :: rest => first rest
  | 2 :: rest => second rest
  | _ :: rest =>
    if first rest = .badLength ∧ second rest = .badLength then .badLength else .badValue 0

/-- A body that ends in a counted list: the head's widths (the count is its last field), the width of an item, and the
row (R197). -/
def listBody (head : List Nat) (item : Nat) (body : List Nat) (row : List Nat → List Nat → Option Instr) :
    WireVerdict :=
  match parse head (body.take head.sum) with
  | some hs =>
    match parse (List.replicate (hs.getLast?.getD 0) item) (body.drop head.sum) with
    | some vs => ((row hs.dropLast vs).map WireVerdict.request).getD .badLength
    | none => .badLength
  | none => .badLength

/-- The lines of an ORDER PLACE body, from pairs of bytes. -/
def pairLines : List Nat → List OrderLine
  | i :: q :: rest => { item := i, quantity := q } :: pairLines rest
  | _ => []

/-- The requests of the site and show groups (R195). -/
def decodeShow (kind tag : Nat) (b : List Nat) : WireVerdict :=
  match kind with
  | 0x10 => fixedBody [] b fun | [] => some (.hello tag) | _ => none
  | 0x11 => fixedBody [1] b fun | [c] => some (.siteStatus tag c) | _ => none
  | 0x12 => fixedBody [] b fun | [] => some (.siteReset tag) | _ => none
  | 0x13 => fixedBody [2, 4] b fun | [d, m] => some (.timeSet tag d m) | _ => none
  | 0x14 => fixedBody [4] b fun | [m] => some (.noticeMask tag m) | _ => none
  | 0x20 => fixedBody [1, 1, 2, 3, 1, 1, 1] b fun
    | [i, k, c, l, p, f, s] => some (.cueWrite tag i k c l p f s)
    | _ => none
  | 0x21 => fixedBody [1] b fun | [i] => some (.cueRead tag i) | _ => none
  | 0x22 => fixedBody [1, 2, 1, 1, 1, 1, 1, 2, 4] b fun
    | [n, i, s, c, r, p, m, d, t] => some (.showLoad tag n i s c r p m d t)
    | _ => none
  | 0x23 => fixedBody [1] b fun | [n] => some (.showStart tag n) | _ => none
  | 0x24 => fixedBody [1] b fun | [n] => some (.showNext tag n) | _ => none
  | 0x25 => fixedBody [1] b fun | [n] => some (.showAbort tag n) | _ => none
  | 0x26 => fixedBody [1] b fun | [n] => some (.showRelease tag n) | _ => none
  | 0x27 => fixedBody [1] b fun | [n] => some (.showPromote tag n) | _ => none
  | 0x28 => fixedBody [1] b fun | [n] => some (.screenStatus tag n) | _ => none
  | 0x29 => fixedBody [1] b fun | [n] => some (.screenReset tag n) | _ => none
  | 0x2A => formBody b
    (fun b => fixedBody [1, 1, 1, 1, 2] b fun
      | [p, a, i, s, d] => some (.phasePolicySetRow tag p a i s d)
      | _ => none)
    (fun b => fixedBody [2, 2] b fun | [m, l] => some (.phasePolicySetLimits tag m l) | _ => none)
  | 0x2B => fixedBody [1, 4, 1] b fun | [n, t, r] => some (.cueLineSet tag n t r) | _ => none
  | 0x2C => fixedBody [1] b fun | [n] => some (.faultRead tag n) | _ => none
  | 0x2D => fixedBody [1] b fun | [n] => some (.faultClear tag n) | _ => none
  | 0x2E => fixedBody [1, 1, 2, 1] b fun | [n, v, c, q] => some (.projectorPass tag n v c q) | _ => none
  | _ => .badKind

/-- The requests of the sound group (R195). -/
def decodeSound (kind tag : Nat) (b : List Nat) : WireVerdict :=
  match kind with
  | 0x30 => fixedBody [1, 3, 2, 2, 2, 3, 3, 1] b fun
    | [n, d, f, k, r, s, h, l] => some (.mixSet tag n d f k r s h l)
    | _ => none
  | 0x31 => fixedBody [1] b fun | [u] => some (.partitionSet tag u) | _ => none
  | 0x32 => fixedBody [1, 1] b fun | [n, c] => some (.levelRead tag n c) | _ => none
  | 0x33 => fixedBody [1] b fun | [n] => some (.monitorSelect tag n) | _ => none
  | 0x34 => fixedBody [1, 3] b fun | [i, l] => some (.clipBegin tag i l) | _ => none
  | 0x35 => listBody [1, 3, 1] 2 b fun
    | [i, o], vs => some (.clipData tag i o (vs.map sampleValue))
    | _, _ => none
  | 0x36 => fixedBody [1, 2] b fun | [i, c] => some (.clipEnd tag i c) | _ => none
  | 0x37 => fixedBody [1] b fun | [i] => some (.clipFree tag i) | _ => none
  | 0x38 => fixedBody [1] b fun | [i] => some (.clipList tag i) | _ => none
  | 0x39 => formBody b
    (fun b => fixedBody (List.replicate 12 1) b fun
      | p :: q :: ds => some (.callClipsSet tag p q ds)
      | _ => none)
    (fun b => fixedBody [] b fun | [] => some (.callClipsUnconfigure tag) | _ => none)
  | 0x3A => formBody b
    (fun b => fixedBody [1, 1, 2, 2] b fun | [c, p, l, w] => some (.classSetRow tag c p l w) | _ => none)
    (fun b => fixedBody [4] b fun | [g] => some (.classSetGap tag g) | _ => none)
  | 0x3B => fixedBody [1, 1] b fun | [c, s] => some (.routeSet tag c s) | _ => none
  | 0x3C => listBody [1, 1, 1] 1 b fun | [n, c], vs => some (.announce tag n c vs) | _, _ => none
  | 0x3D => fixedBody [2] b fun | [i] => some (.announceCancel tag i) | _ => none
  | 0x3E => fixedBody [1, 1] b fun | [n, p] => some (.queueRead tag n p) | _ => none
  | _ => .badKind

/-- LANE SET: an exit lane has a debounce time only, every other code a complete set (R95); so a code that names no lane has
the length of an entry lane's (log entry 43). -/
def decodeLaneSet (tag : Nat) (b : List Nat) : WireVerdict :=
  match b with
  | 0x21 :: _ | 0x22 :: _ => fixedBody [1, 4] b fun | [l, d] => some (.laneSet tag l 0 d 0 0) | _ => none
  | _ => fixedBody [1, 1, 4, 1, 2] b fun | [l, m, d, a, p] => some (.laneSet tag l m d a p) | _ => none

/-- ADMIT: its stall stands behind a presence byte (R101, R197). After a 0 the row and position bytes are not looked at
(log entry 12). -/
def decodeAdmit (tag : Nat) (b : List Nat) : WireVerdict :=
  match parse [1, 1, 1, 1, 1, 2] b with
  | some [l, n, 0, _, _, p] => .request (.admitCar tag l n none p)
  | some [l, n, 1, r, q, p] => .request (.admitCar tag l n (some (r, q)) p)
  | some (l :: _) => .badValue l
  | some [] => .badLength
  | none => .badLength

/-- LOT CONFIG in layout form: the number of rows is the count of the row counts; the fill order has its own count
(R116, R197). -/
def decodeLayout (tag : Nat) (b : List Nat) : WireVerdict :=
  match parse [1, 1] (b.take 2) with
  | some [n, r] =>
    match parse (List.replicate r 1) ((b.drop 2).take r), parse [1] ((b.drop (2 + r)).take 1) with
    | some cs, some [f] =>
      match parse (List.replicate f 1 ++ [2]) (b.drop (3 + r)) with
      | some vs => .request (.lotConfigLayout tag n r cs vs.dropLast (vs.getLast?.getD 0))
      | none => .badLength
    | _, _ => .badLength
  | _ => .badLength

/-- The requests of the lanes and lot group (R195). -/
def decodeLot (kind tag : Nat) (b : List Nat) : WireVerdict :=
  match kind with
  | 0x40 => decodeLaneSet tag b
  | 0x41 => fixedBody [1] b fun | [l] => some (.laneOpen tag l) | _ => none
  | 0x42 => fixedBody [1] b fun | [l] => some (.laneClose tag l) | _ => none
  | 0x43 => decodeAdmit tag b
  | 0x44 => fixedBody [1] b fun | [l] => some (.refuse tag l) | _ => none
  | 0x45 => fixedBody [1] b fun | [l] => some (.attendantPass tag l) | _ => none
  | 0x46 => formBody b (decodeLayout tag)
    (fun b => fixedBody [1, 2] b fun | [n, c] => some (.lotConfigCapacity tag n c) | _ => none)
  | 0x47 => fixedBody [1, 1, 1, 1] b fun | [f, n, r, p] => some (.stallRead tag f n r p) | _ => none
  | 0x48 => fixedBody [1, 1, 1] b fun | [n, r, p] => some (.stallBlock tag n r p) | _ => none
  | 0x49 => fixedBody [1, 1, 1] b fun | [n, r, p] => some (.stallUnblock tag n r p) | _ => none
  | 0x4A => fixedBody [1, 1, 1] b fun | [n, r, p] => some (.depart tag n r p) | _ => none
  | 0x4B => fixedBody [1] b fun | [n] => some (.sweep tag n) | _ => none
  | 0x4C => fixedBody [1, 1] b fun | [l, c] => some (.countersRead tag l c) | _ => none
  | _ => .badKind

/-- ORDER PLACE: 5 + 2n bytes for n lines (R196). -/
def decodePlace (tag : Nat) (b : List Nat) : WireVerdict :=
  match parse [1, 1, 1, 1, 1] (b.take 5) with
  | some [n, r, p, m, k] =>
    match parse (List.replicate (2 * k) 1) (b.drop 5) with
    | some vs => .request (.orderPlace tag n r p m (pairLines vs))
    | none => .badLength
  | _ => .badLength

/-- REHEARSE: the auto-answer setting stands behind a presence byte (R177, R197). After a 0 its own byte is not looked at
(log entry 12). -/
def decodeRehearse (tag : Nat) (b : List Nat) : WireVerdict :=
  match parse [1, 1, 1, 1] b with
  | some [u, s, 0, _] => .request (.rehearse tag u s none)
  | some [u, s, 1, a] => .request (.rehearse tag u s (some a))
  | some (u :: _) => .badValue u
  | some [] => .badLength
  | none => .badLength

/-- INJECT ANSWER: the sequence number stands behind a presence byte, and only GARBLED has none (R178, R197). After a 0 its
own byte is not looked at (log entry 12), and a number sent with GARBLED is dropped (log entry 44). -/
def decodeAnswer (tag : Nat) (b : List Nat) : WireVerdict :=
  match parse [1, 1, 1, 1] b with
  | some [n, a, 0, _] => if a = 4 then .request (.injectAnswer tag n a 0) else .badValue 0
  | some [n, a, 1, s] => .request (.injectAnswer tag n a s)
  | some _ => .badValue 0
  | none => .badLength

/-- The requests of the orders and rehearsal groups (R195). -/
def decodeOrders (kind tag : Nat) (b : List Nat) : WireVerdict :=
  match kind with
  | 0x50 => fixedBody [1, 1, 2, 2] b fun | [i, s, t, u] => some (.itemClassSet tag i s t u) | _ => none
  | 0x51 => fixedBody [1, 1, 1, 2] b fun | [s, o, c, w] => some (.stationSet tag s o c w) | _ => none
  | 0x52 => decodePlace tag b
  | 0x53 => fixedBody [2] b fun | [n] => some (.orderCancel tag n) | _ => none
  | 0x54 => fixedBody [2] b fun | [n] => some (.orderCollect tag n) | _ => none
  | 0x55 => fixedBody [2] b fun | [n] => some (.orderDelivered tag n) | _ => none
  | 0x56 => fixedBody [2, 1] b fun | [n, s] => some (.bump tag n s) | _ => none
  | 0x57 => fixedBody [1, 2] b fun | [f, n] => some (.orderRead tag f n) | _ => none
  | 0x58 => fixedBody [1, 1] b fun | [s, p] => some (.stationRead tag s p) | _ => none
  | 0x59 => fixedBody [2, 2, 1, 2, 1] b fun
    | [l, m, r, i, c] => some (.orderPolicySet tag l m r i c)
    | _ => none
  | 0x60 => decodeRehearse tag b
  | 0x61 => decodeAnswer tag b
  | 0x62 => fixedBody [1, 2] b fun | [n, c] => some (.injectEnded tag n c) | _ => none
  | 0x63 => fixedBody [1] b fun | [n] => some (.injectStall tag n) | _ => none
  | 0x64 => fixedBody [1] b fun | [n] => some (.injectResume tag n) | _ => none
  | 0x65 => fixedBody [1, 1, 1] b fun | [l, o, v] => some (.injectLoop tag l o v) | _ => none
  | 0x66 => fixedBody [1, 1] b fun | [l, a] => some (.injectJam tag l a) | _ => none
  | 0x67 => fixedBody [1] b fun | [s] => some (.injectBump tag s) | _ => none
  | _ => .badKind

/-- The request a checked frame carries, or the status the Site Link Interface answers by itself (R190, R195). -/
def decodeRequest (kind tag : Nat) (body : List Nat) : WireVerdict :=
  if kind < 0x30 then decodeShow kind tag body
  else if kind < 0x40 then decodeSound kind tag body
  else if kind < 0x50 then decodeLot kind tag body
  else decodeOrders kind tag body

/-! ### Encoding -/

/-- The kind and the fields of a request's body (R195 to R197); none for a row that is no request of R195. -/
def requestFields : Instr → Option (Nat × List Field)
  | .hello _ => some (0x10, [])
  | .siteStatus _ c => some (0x11, [u8 c])
  | .siteReset _ => some (0x12, [])
  | .timeSet _ d m => some (0x13, [u16 d, u32 m])
  | .noticeMask _ m => some (0x14, [u32 m])
  | .cueWrite _ i k c l p f s => some (0x20, [u8 i, u8 k, u16 c, u24 l, u8 p, u8 f, u8 s])
  | .cueRead _ i => some (0x21, [u8 i])
  | .showLoad _ n i s c r p m d t => some (0x22, [u8 n, u16 i, u8 s, u8 c, u8 r, u8 p, u8 m, u16 d, u32 t])
  | .showStart _ n => some (0x23, [u8 n])
  | .showNext _ n => some (0x24, [u8 n])
  | .showAbort _ n => some (0x25, [u8 n])
  | .showRelease _ n => some (0x26, [u8 n])
  | .showPromote _ n => some (0x27, [u8 n])
  | .screenStatus _ n => some (0x28, [u8 n])
  | .screenReset _ n => some (0x29, [u8 n])
  | .phasePolicySetRow _ p a i s d => some (0x2A, [u8 1, u8 p, u8 a, u8 i, u8 s, u16 d])
  | .phasePolicySetLimits _ m l => some (0x2A, [u8 2, u16 m, u16 l])
  | .cueLineSet _ n t r => some (0x2B, [u8 n, u32 t, u8 r])
  | .faultRead _ n => some (0x2C, [u8 n])
  | .faultClear _ n => some (0x2D, [u8 n])
  | .projectorPass _ n v c q => some (0x2E, [u8 n, u8 v, u16 c, u8 q])
  | .mixSet _ n d f k r s h l => some (0x30, [u8 n, u24 d, u16 f, u16 k, u16 r, u24 s, u24 h, u8 l])
  | .partitionSet _ u => some (0x31, [u8 u])
  | .levelRead _ n c => some (0x32, [u8 n, u8 c])
  | .monitorSelect _ n => some (0x33, [u8 n])
  | .clipBegin _ i l => some (0x34, [u8 i, u24 l])
  | .clipData _ i o vs => some (0x35, [u8 i, u24 o, u8 vs.length] ++ vs.map fun v => u16 (sampleBits v))
  | .clipEnd _ i c => some (0x36, [u8 i, u16 c])
  | .clipFree _ i => some (0x37, [u8 i])
  | .clipList _ i => some (0x38, [u8 i])
  | .callClipsSet _ p q ds => some (0x39, [u8 1, u8 p, u8 q] ++ ds.map u8)
  | .callClipsUnconfigure _ => some (0x39, [u8 2])
  | .classSetRow _ c p l w => some (0x3A, [u8 1, u8 c, u8 p, u16 l, u16 w])
  | .classSetGap _ g => some (0x3A, [u8 2, u32 g])
  | .routeSet _ c s => some (0x3B, [u8 c, u8 s])
  | .announce _ n c vs => some (0x3C, [u8 n, u8 c, u8 vs.length] ++ vs.map u8)
  | .announceCancel _ i => some (0x3D, [u16 i])
  | .queueRead _ n p => some (0x3E, [u8 n, u8 p])
  | .laneSet _ l m d a p =>
    some (0x40, if l = 0x21 ∨ l = 0x22 then [u8 l, u32 d] else [u8 l, u8 m, u32 d, u8 a, u16 p])
  | .laneOpen _ l => some (0x41, [u8 l])
  | .laneClose _ l => some (0x42, [u8 l])
  | .admitCar _ l n none p => some (0x43, [u8 l, u8 n, u8 0, u8 0, u8 0, u16 p])
  | .admitCar _ l n (some (r, q)) p => some (0x43, [u8 l, u8 n, u8 1, u8 r, u8 q, u16 p])
  | .refuse _ l => some (0x44, [u8 l])
  | .attendantPass _ l => some (0x45, [u8 l])
  | .lotConfigLayout _ n r cs fs c =>
    some (0x46, [u8 1, u8 n, u8 r] ++ cs.map u8 ++ [u8 fs.length] ++ fs.map u8 ++ [u16 c])
  | .lotConfigCapacity _ n c => some (0x46, [u8 2, u8 n, u16 c])
  | .stallRead _ f n r p => some (0x47, [u8 f, u8 n, u8 r, u8 p])
  | .stallBlock _ n r p => some (0x48, [u8 n, u8 r, u8 p])
  | .stallUnblock _ n r p => some (0x49, [u8 n, u8 r, u8 p])
  | .depart _ n r p => some (0x4A, [u8 n, u8 r, u8 p])
  | .sweep _ n => some (0x4B, [u8 n])
  | .countersRead _ l c => some (0x4C, [u8 l, u8 c])
  | .itemClassSet _ i s t u => some (0x50, [u8 i, u8 s, u16 t, u16 u])
  | .stationSet _ s o c w => some (0x51, [u8 s, u8 o, u8 c, u16 w])
  | .orderPlace _ n r p m ls =>
    some (0x52, [u8 n, u8 r, u8 p, u8 m, u8 ls.length] ++ ls.flatMap fun l => [u8 l.item, u8 l.quantity])
  | .orderCancel _ n => some (0x53, [u16 n])
  | .orderCollect _ n => some (0x54, [u16 n])
  | .orderDelivered _ n => some (0x55, [u16 n])
  | .bump _ n s => some (0x56, [u16 n, u8 s])
  | .orderRead _ f n => some (0x57, [u8 f, u16 n])
  | .stationRead _ s p => some (0x58, [u8 s, u8 p])
  | .orderPolicySet _ l m r i c => some (0x59, [u16 l, u16 m, u8 r, u16 i, u8 c])
  | .rehearse _ u s none => some (0x60, [u8 u, u8 s, u8 0, u8 0])
  | .rehearse _ u s (some a) => some (0x60, [u8 u, u8 s, u8 1, u8 a])
  | .injectAnswer _ n a s => some (0x61, if a = 4 then [u8 n, u8 a, u8 0, u8 0] else [u8 n, u8 a, u8 1, u8 s])
  | .injectEnded _ n c => some (0x62, [u8 n, u16 c])
  | .injectStall _ n => some (0x63, [u8 n])
  | .injectResume _ n => some (0x64, [u8 n])
  | .injectLoop _ l o v => some (0x65, [u8 l, u8 o, u8 v])
  | .injectJam _ l a => some (0x66, [u8 l, u8 a])
  | .injectBump _ s => some (0x67, [u8 s])
  | .powerOnReset _ _ | .siteResetTakesEffect | .unknownKind _ _ _ | .linkBusyMark _ _
  | .receiveFrameDiscarded _ | .frameGapTimeout | .lineBreak | .transmitFrameEnd | .wholeSecond | .expirySweep
  | .lateWindowEnd _ | .showStartTimeReached _ | .holdExpired _ | .framePulse _ | .pictureStall _
  | .timebaseFrame _ | .skipTimebaseFrame _ | .holdEntryElapsed _ | .verbLineSent _ | .cueLineReceived _ _
  | .answerTimeout _ | .backoffEnd _ | .sampleFrame _ _ _ _ | .blockStart | .blockEnd | .announcementExpiry _
  | .gapEnd _ | .loopRawChange _ _ | .arriveSettles _ | .clearSettles _ | .exitSettles _ | .armupAsserted _ _
  | .armdnAsserted _ _ | .armTimeout _ | .passTimeout _ | .callRepeatDue _ | .buttonBump _ | .autoAnswer _
  | .generatedFramePulse _ | .simulatedArmTravelEnd _ | .startByteReceived => none

/-- The kind and body bytes of a request (R195 to R197). -/
def encodeRequest (i : Instr) : Option (Nat × List Nat) := (requestFields i).map fun p => (p.1, fieldBytes p.2)

/-- The tag of a request (R186). -/
def Instr.tag : Instr → Nat
  | .hello t | .siteStatus t _ | .siteReset t | .timeSet t _ _ | .noticeMask t _ | .unknownKind _ t _
  | .linkBusyMark _ t | .cueWrite t _ _ _ _ _ _ _ | .cueRead t _ | .showLoad t _ _ _ _ _ _ _ _ _ | .showStart t _
  | .showNext t _ | .showAbort t _ | .showRelease t _ | .showPromote t _ | .screenStatus t _ | .screenReset t _
  | .phasePolicySetRow t _ _ _ _ _ | .phasePolicySetLimits t _ _ | .cueLineSet t _ _ _ | .faultRead t _
  | .faultClear t _ | .projectorPass t _ _ _ _ | .mixSet t _ _ _ _ _ _ _ _ | .partitionSet t _
  | .levelRead t _ _ | .monitorSelect t _ | .clipBegin t _ _ | .clipData t _ _ _ | .clipEnd t _ _ | .clipFree t _
  | .clipList t _ | .callClipsSet t _ _ _ | .callClipsUnconfigure t | .classSetRow t _ _ _ _ | .classSetGap t _
  | .routeSet t _ _ | .announce t _ _ _ | .announceCancel t _ | .queueRead t _ _ | .laneSet t _ _ _ _ _
  | .laneOpen t _ | .laneClose t _ | .admitCar t _ _ _ _ | .refuse t _ | .attendantPass t _
  | .lotConfigLayout t _ _ _ _ _ | .lotConfigCapacity t _ _ | .stallRead t _ _ _ _ | .stallBlock t _ _ _
  | .stallUnblock t _ _ _ | .depart t _ _ _ | .sweep t _ | .countersRead t _ _ | .itemClassSet t _ _ _ _
  | .stationSet t _ _ _ _ | .orderPlace t _ _ _ _ _ | .orderCancel t _ | .orderCollect t _ | .orderDelivered t _
  | .bump t _ _ | .orderRead t _ _ | .stationRead t _ _ | .orderPolicySet t _ _ _ _ _ | .rehearse t _ _ _
  | .injectAnswer t _ _ _ | .injectEnded t _ _ | .injectStall t _ | .injectResume t _ | .injectLoop t _ _ _
  | .injectJam t _ _ | .injectBump t _ => t
  | .powerOnReset _ _ | .siteResetTakesEffect | .receiveFrameDiscarded _ | .frameGapTimeout | .lineBreak
  | .transmitFrameEnd | .wholeSecond | .expirySweep | .lateWindowEnd _ | .showStartTimeReached _ | .holdExpired _
  | .framePulse _ | .pictureStall _ | .timebaseFrame _ | .skipTimebaseFrame _ | .holdEntryElapsed _
  | .verbLineSent _ | .cueLineReceived _ _ | .answerTimeout _ | .backoffEnd _ | .sampleFrame _ _ _ _ | .blockStart
  | .blockEnd | .announcementExpiry _ | .gapEnd _ | .loopRawChange _ _ | .arriveSettles _ | .clearSettles _
  | .exitSettles _ | .armupAsserted _ _ | .armdnAsserted _ _ | .armTimeout _ | .passTimeout _ | .callRepeatDue _
  | .buttonBump _ | .autoAnswer _ | .generatedFramePulse _ | .simulatedArmTravelEnd _ | .startByteReceived => 0

end Sys2Proof
end

