-- ==== Sys2Proof/Machine/SiteCommands.lean ====
section
/-! DEFINITION. The meanings of the site commands: link, clock and resets (chapter 11). -/

set_option autoImplicit false

namespace Sys2Proof
namespace Machine

/-- POWER_ON_RESET: every block takes its power-on values and the BAUD pins are sampled (R203). -/
def execPowerOnReset (baud1 baud0 : Bool) (s : State) : Host.Outcome State Fault Refusal :=
  .next (s.powerOn baud1 baud0)

/-- HELLO (R199). -/
def execHello (tag : Nat) (s : State) : Host.Outcome State Fault Refusal :=
  readRequest 0x10 tag (fun s =>
    ok [u16 Config.vendorCode, u16 Config.partCode, u8 Config.revision, u8 s.link.rate, u8 Config.bodyRoom]) s

/-- The fields of SITE STATUS (R200), and after them the rate in use (R185; its place is log entry 12). -/
def State.siteStatus (s : State) : List Field :=
  uTime (some s.house.clock)
    ++ [u8 s.house.out.notices.length, u8 s.house.out.lostCount, u32 s.house.out.mask, u16 s.link.linkErrors,
        u16 s.link.busyCount, u16 s.present]
    ++ allScreens.map (fun n => u8 (s.house.ctl n).state.code)
    ++ allLanes.map (fun k => u8 (s.lane k).state.code)
    ++ allStations.map (fun st => uBool (s.house.station st).opened)
    ++ allScreens.map (fun n => uBool (s.house.ctl n).rehearsal)
    ++ allLanes.map (fun k => uBool (s.lane k).rehearsal)
    ++ allStations.map (fun st => uBool (s.house.station st).rehearsal)
    ++ [u8 s.link.rate]

/-- What SITE STATUS clears after its reply has been filled in (R193, R200). -/
def State.clearStatus (clear : Bool) (s : State) : State :=
  let s1 := s.onHouse fun h => { h with out := { h.out with noticeLost := false, lostCount := 0 } }
  if clear then s1.onLink fun l => { l with linkErrors := 0, busyCount := 0 } else s1

/-- SITE STATUS (R200). -/
def execSiteStatus (tag clear : Nat) (s : State) : Host.Outcome State Fault Refusal :=
  if isFlag clear then
    .next (s.receive 0x11 tag (fun s => (s, ok s.siteStatus)) (State.clearStatus (clear = 1)))
  else readRequest 0x11 tag (fun _ => refuse .badValue []) s

/-- The place a SITE RESET took in the reply order carries its mark, and no further request is taken (R201). -/
def State.markReset (s : State) : State :=
  s.onLink fun l =>
    { l with
      resetTaken := true
      buffer := l.buffer.modify (l.buffer.length - 1) fun e => { e with siteReset := true } }

/-- SITE RESET (R201). -/
def execSiteReset (tag : Nat) (s : State) : Host.Outcome State Fault Refusal :=
  .next (s.receive 0x12 tag (fun s => (s, ok [])) State.markReset)

/-- SITE_RESET_TAKES_EFFECT: the last byte of the SITE RESET's reply has been sent (R201). -/
def execSiteResetTakesEffect (s : State) : Host.Outcome State Fault Refusal :=
  .next (if s.link.resetTaken then s.siteReset else s)

/-- TIME SET (R198). -/
def execTimeSet (tag day ms : Nat) (s : State) : Host.Outcome State Fault Refusal :=
  houseRequest 0x13 tag (fun h =>
    if Config.dayMs ≤ ms ∨ Config.dayCount ≤ day then (h, refuse .badValue [])
    else (h.setClock { day := day, ms := ms }, ok (uTime (some h.clock)))) s

/-- NOTICE MASK (R194). -/
def execNoticeMask (tag mask : Nat) (s : State) : Host.Outcome State Fault Refusal :=
  houseRequest 0x14 tag (fun h =>
    if 2 ^ 22 ≤ mask then (h, refuse .badValue [])
    else ({ h with out := { h.out with mask := mask } }, ok [])) s

/-- The BAD_VALUE of a form or presence byte, with the lane's block where the request names an entry lane (R93). -/
def namedRefusal (unit : Nat) (s : State) : State × Answer := onEntry unit (fun _ s => (s, refuse .badValue [])) s

/-- UNKNOWN_KIND: a checked frame that the Site Link Interface answers by its own checks (R190). A frame that carries a
request of some row is that row's command, and leaves the state as it is here. -/
def execUnknownKind (kind tag : Nat) (body : List Nat) (s : State) : Host.Outcome State Fault Refusal :=
  if Config.bodyRoom < body.length then .next s
  else
    match decodeRequest kind tag body with
    | .badKind => readRequest kind tag (fun _ => refuse .badKind []) s
    | .badLength => readRequest kind tag (fun _ => refuse .badLength []) s
    | .badValue unit => request kind tag (namedRefusal unit) s
    | .request _ => .next s

/-- LINK_BUSY_MARK: a checked frame arrives while the buffer holds 4 requests (R189). -/
def execLinkBusyMark (kind tag : Nat) (s : State) : Host.Outcome State Fault Refusal :=
  .next (if Config.requestRoom ≤ s.link.requests then
    (s.onLink fun l => { l with framer := .hunting }).busyFrame kind tag
  else s)

/-- RECEIVE_FRAME_DISCARDED: the bytes after a start byte make no frame, by their length byte or their CRC (R187). -/
def execReceiveFrameDiscarded (bytes : List Nat) (s : State) : Host.Outcome State Fault Refusal :=
  match judgeFrame bytes with
  | .badLength => .next (s.onLink fun l => { l with framer := .hunting }).linkError
  | .badCrc => .next (s.onLink fun l => { l with framer := .hunting }).linkError
  | .collecting => .next s
  | .checked _ _ _ => .next s

/-- FRAME_GAP_TIMEOUT: more than 20 ms pass inside a frame (R187). -/
def execFrameGapTimeout (s : State) : Host.Outcome State Fault Refusal :=
  match s.link.framer with
  | .collecting => .next (s.onLink fun l => { l with framer := .hunting }).linkError
  | .hunting => .next s

/-- LINE_BREAK (R188). -/
def execLineBreak (s : State) : Host.Outcome State Fault Refusal :=
  .next (s.onLink fun l => { l with framer := .hunting })

/-- START_BYTE_RECEIVED: 0xC3 in HUNTING starts a frame (R187). -/
def execStartByteReceived (s : State) : Host.Outcome State Fault Refusal :=
  .next (s.onLink fun l => { l with framer := .collecting })

/-- The frame being sent has been sent whole (R189, R192, R201). -/
def State.frameSent (s : State) : State :=
  match s.house.out.tx with
  | .idle => s
  | .notice _ => s.freeTransmitter.chooseFrame
  | .reply =>
    match s.link.buffer with
    | [] => s.freeTransmitter.chooseFrame
    | e :: rest =>
      if e.siteReset then s.siteReset
      else (s.freeTransmitter.onLink fun l => { l with buffer := rest }).chooseFrame

/-- TRANSMIT_FRAME_END: the last byte of the frame on SLTX has been sent (R192). -/
def execTransmitFrameEnd (s : State) : Host.Outcome State Fault Refusal := .next s.frameSent

/-- WHOLE_SECOND of site time (R26, R146, R198). -/
def execWholeSecond (s : State) : Host.Outcome State Fault Refusal := houseEvent House.wholeSecond s

/-- EXPIRY_SWEEP at a whole minute of site time (R156, R198). -/
def execExpirySweep (s : State) : Host.Outcome State Fault Refusal := houseEvent House.wholeMinute s

/-- LATE_WINDOW_END: the late admission window of a screen runs out (R25). -/
def execLateWindowEnd (n : Screen) (s : State) : Host.Outcome State Fault Refusal :=
  houseEvent (House.lateWindowEnd n) s

end Machine
end Sys2Proof
end

