-- ==== Sys2Proof/Machine/Dispatch.lean ====
section
/-! DEFINITION. One arm for every command, each a direct call of its meaning. -/

namespace Sys2Proof
namespace Machine

/-- The effect of a command on everything but the queue of waiting commands. -/
def exec (i : Instr) (s : State) : Host.Outcome State Fault Refusal :=
  match i with
  | .powerOnReset baud1 baud0 => Sys2Proof.Machine.execPowerOnReset baud1 baud0 s
  | .hello tag => Sys2Proof.Machine.execHello tag s
  | .siteStatus tag clear => Sys2Proof.Machine.execSiteStatus tag clear s
  | .siteReset tag => Sys2Proof.Machine.execSiteReset tag s
  | .siteResetTakesEffect => Sys2Proof.Machine.execSiteResetTakesEffect s
  | .timeSet tag day ms => Sys2Proof.Machine.execTimeSet tag day ms s
  | .noticeMask tag mask => Sys2Proof.Machine.execNoticeMask tag mask s
  | .unknownKind kind tag body => Sys2Proof.Machine.execUnknownKind kind tag body s
  | .linkBusyMark kind tag => Sys2Proof.Machine.execLinkBusyMark kind tag s
  | .receiveFrameDiscarded bytes => Sys2Proof.Machine.execReceiveFrameDiscarded bytes s
  | .frameGapTimeout => Sys2Proof.Machine.execFrameGapTimeout s
  | .lineBreak => Sys2Proof.Machine.execLineBreak s
  | .transmitFrameEnd => Sys2Proof.Machine.execTransmitFrameEnd s
  | .wholeSecond => Sys2Proof.Machine.execWholeSecond s
  | .expirySweep => Sys2Proof.Machine.execExpirySweep s
  | .lateWindowEnd n => Sys2Proof.Machine.execLateWindowEnd n s
  | .cueWrite tag index kind content length phaseTag flags startClip => Sys2Proof.Machine.execCueWrite tag index kind content length phaseTag flags startClip s
  | .cueRead tag index => Sys2Proof.Machine.execCueRead tag index s
  | .showLoad tag screen showId start count rate policy mode day ms => Sys2Proof.Machine.execShowLoad tag screen showId start count rate policy mode day ms s
  | .showStart tag screen => Sys2Proof.Machine.execShowStart tag screen s
  | .showStartTimeReached n => Sys2Proof.Machine.execShowStartTimeReached n s
  | .holdExpired n => Sys2Proof.Machine.execHoldExpired n s
  | .showNext tag screen => Sys2Proof.Machine.execShowNext tag screen s
  | .showAbort tag screen => Sys2Proof.Machine.execShowAbort tag screen s
  | .showRelease tag screen => Sys2Proof.Machine.execShowRelease tag screen s
  | .showPromote tag screen => Sys2Proof.Machine.execShowPromote tag screen s
  | .screenStatus tag screen => Sys2Proof.Machine.execScreenStatus tag screen s
  | .screenReset tag screen => Sys2Proof.Machine.execScreenReset tag screen s
  | .phasePolicySetRow tag phase adm intake allowed duck => Sys2Proof.Machine.execPhasePolicySetRow tag phase adm intake allowed duck s
  | .phasePolicySetLimits tag maxHold lateLimit => Sys2Proof.Machine.execPhasePolicySetLimits tag maxHold lateLimit s
  | .framePulse n => Sys2Proof.Machine.execFramePulse n s
  | .pictureStall n => Sys2Proof.Machine.execPictureStall n s
  | .timebaseFrame n => Sys2Proof.Machine.execTimebaseFrame n s
  | .skipTimebaseFrame n => Sys2Proof.Machine.execSkipTimebaseFrame n s
  | .holdEntryElapsed n => Sys2Proof.Machine.execHoldEntryElapsed n s
  | .cueLineSet tag screen timeout retries => Sys2Proof.Machine.execCueLineSet tag screen timeout retries s
  | .faultRead tag screen => Sys2Proof.Machine.execFaultRead tag screen s
  | .faultClear tag screen => Sys2Proof.Machine.execFaultClear tag screen s
  | .projectorPass tag screen verb content quiet => Sys2Proof.Machine.execProjectorPass tag screen verb content quiet s
  | .verbLineSent n => Sys2Proof.Machine.execVerbLineSent n s
  | .cueLineReceived n chars => Sys2Proof.Machine.execCueLineReceived n chars s
  | .answerTimeout n => Sys2Proof.Machine.execAnswerTimeout n s
  | .backoffEnd n => Sys2Proof.Machine.execBackoffEnd n s
  | .sampleFrame pgm1 pgm2 pgm3 pgm4 => Sys2Proof.Machine.execSampleFrame pgm1 pgm2 pgm3 pgm4 s
  | .blockStart => Sys2Proof.Machine.execBlockStart s
  | .blockEnd => Sys2Proof.Machine.execBlockEnd s
  | .mixSet tag screen delay fade duck release silence hot limit => Sys2Proof.Machine.execMixSet tag screen delay fade duck release silence hot limit s
  | .partitionSet tag units => Sys2Proof.Machine.execPartitionSet tag units s
  | .levelRead tag screen clear => Sys2Proof.Machine.execLevelRead tag screen clear s
  | .monitorSelect tag selection => Sys2Proof.Machine.execMonitorSelect tag selection s
  | .clipBegin tag id length => Sys2Proof.Machine.execClipBegin tag id length s
  | .clipData tag id offset samples => Sys2Proof.Machine.execClipData tag id offset samples s
  | .clipEnd tag id crc => Sys2Proof.Machine.execClipEnd tag id crc s
  | .clipFree tag id => Sys2Proof.Machine.execClipFree tag id s
  | .clipList tag first => Sys2Proof.Machine.execClipList tag first s
  | .callClipsSet tag preamble postamble digits => Sys2Proof.Machine.execCallClipsSet tag preamble postamble digits s
  | .callClipsUnconfigure tag => Sys2Proof.Machine.execCallClipsUnconfigure tag s
  | .classSetRow tag cls priority level maxWait => Sys2Proof.Machine.execClassSetRow tag cls priority level maxWait s
  | .classSetGap tag gap => Sys2Proof.Machine.execClassSetGap tag gap s
  | .routeSet tag cls screens => Sys2Proof.Machine.execRouteSet tag cls screens s
  | .announce tag screen cls clips => Sys2Proof.Machine.execAnnounce tag screen cls clips s
  | .announceCancel tag id => Sys2Proof.Machine.execAnnounceCancel tag id s
  | .queueRead tag screen first => Sys2Proof.Machine.execQueueRead tag screen first s
  | .announcementExpiry id => Sys2Proof.Machine.execAnnouncementExpiry id s
  | .gapEnd n => Sys2Proof.Machine.execGapEnd n s
  | .laneSet tag lane map debounce armTimeout passTimeout => Sys2Proof.Machine.execLaneSet tag lane map debounce armTimeout passTimeout s
  | .laneOpen tag lane => Sys2Proof.Machine.execLaneOpen tag lane s
  | .laneClose tag lane => Sys2Proof.Machine.execLaneClose tag lane s
  | .admitCar tag lane screen stall party => Sys2Proof.Machine.execAdmit tag lane screen stall party s
  | .refuse tag lane => Sys2Proof.Machine.execRefuse tag lane s
  | .attendantPass tag lane => Sys2Proof.Machine.execAttendantPass tag lane s
  | .loopRawChange loop occupied => Sys2Proof.Machine.execLoopRawChange loop occupied s
  | .arriveSettles k => Sys2Proof.Machine.execArriveSettles k s
  | .clearSettles k => Sys2Proof.Machine.execClearSettles k s
  | .exitSettles j => Sys2Proof.Machine.execExitSettles j s
  | .armupAsserted k level => Sys2Proof.Machine.execArmupAsserted k level s
  | .armdnAsserted k level => Sys2Proof.Machine.execArmdnAsserted k level s
  | .armTimeout k => Sys2Proof.Machine.execArmTimeout k s
  | .passTimeout k => Sys2Proof.Machine.execPassTimeout k s
  | .lotConfigLayout tag screen rows counts fill capacity => Sys2Proof.Machine.execLotConfigLayout tag screen rows counts fill capacity s
  | .lotConfigCapacity tag screen capacity => Sys2Proof.Machine.execLotConfigCapacity tag screen capacity s
  | .stallRead tag form screen row position => Sys2Proof.Machine.execStallRead tag form screen row position s
  | .stallBlock tag screen row position => Sys2Proof.Machine.execStallBlock tag screen row position s
  | .stallUnblock tag screen row position => Sys2Proof.Machine.execStallUnblock tag screen row position s
  | .depart tag screen row position => Sys2Proof.Machine.execDepart tag screen row position s
  | .sweep tag screen => Sys2Proof.Machine.execSweep tag screen s
  | .countersRead tag lane clear => Sys2Proof.Machine.execCountersRead tag lane clear s
  | .itemClassSet tag item station base perUnit => Sys2Proof.Machine.execItemClassSet tag item station base perUnit s
  | .stationSet tag station opened slots maxWait => Sys2Proof.Machine.execStationSet tag station opened slots maxWait s
  | .orderPlace tag screen row position mode lines => Sys2Proof.Machine.execOrderPlace tag screen row position mode lines s
  | .orderCancel tag number => Sys2Proof.Machine.execOrderCancel tag number s
  | .orderCollect tag number => Sys2Proof.Machine.execOrderCollect tag number s
  | .orderDelivered tag number => Sys2Proof.Machine.execOrderDelivered tag number s
  | .callRepeatDue number => Sys2Proof.Machine.execCallRepeatDue number s
  | .bump tag number station => Sys2Proof.Machine.execBump tag number station s
  | .buttonBump st => Sys2Proof.Machine.execButtonBump st s
  | .orderRead tag form number => Sys2Proof.Machine.execOrderRead tag form number s
  | .stationRead tag station first => Sys2Proof.Machine.execStationRead tag station first s
  | .orderPolicySet tag lead margin repeats interval limit => Sys2Proof.Machine.execOrderPolicySet tag lead margin repeats interval limit s
  | .rehearse tag unit setting auto => Sys2Proof.Machine.execRehearse tag unit setting auto s
  | .injectAnswer tag screen answer sequence => Sys2Proof.Machine.execInjectAnswer tag screen answer sequence s
  | .autoAnswer n => Sys2Proof.Machine.execAutoAnswer n s
  | .injectEnded tag screen content => Sys2Proof.Machine.execInjectEnded tag screen content s
  | .injectStall tag screen => Sys2Proof.Machine.execInjectStall tag screen s
  | .injectResume tag screen => Sys2Proof.Machine.execInjectResume tag screen s
  | .generatedFramePulse n => Sys2Proof.Machine.execGeneratedFramePulse n s
  | .injectLoop tag lane loop level => Sys2Proof.Machine.execInjectLoop tag lane loop level s
  | .injectJam tag lane action => Sys2Proof.Machine.execInjectJam tag lane action s
  | .simulatedArmTravelEnd k => Sys2Proof.Machine.execSimulatedArmTravelEnd k s
  | .injectBump tag station => Sys2Proof.Machine.execInjectBump tag station s
  | .startByteReceived => Sys2Proof.Machine.execStartByteReceived s

end Machine
end Sys2Proof
end

