-- ==== Sys2Proof/Machine/Tick.lean ====
section
/-! DEFINITION. One millisecond passes (log entry 3): every count of milliseconds moves on, and what falls due happens
by the same operations that the event commands call. -/

set_option autoImplicit false

namespace Sys2Proof
namespace Machine

/-- A timer one millisecond later: none is stopped, `some 0` is due. -/
def countDown (t : Option Nat) : Option Nat := t.map fun ms => ms - 1

/-! ### Counts move on -/

/-- A Show Controller's counts one millisecond later (R11, R13, R40, R179). `e` is the current entry. -/
def ShowCtl.pass (e : CueEntry) (c : ShowCtl) : ShowCtl :=
  let rate := (c.running.map ShowDesc.rate).getD 0
  let inEntry : Bool := c.state = .showing ∧ ¬ c.finalHalt
  let onTimebase : Bool := c.counting = .timebase ∨ (inEntry ∧ e.kind = .skip)
  let held := c.holdElapsed + (if inEntry ∧ e.kind = .hold then 1 else 0)
  { c with
    stallTimer := countDown c.stallTimer
    timebase := if onTimebase then c.timebase + rate else c.timebase
    generator := c.generator.map fun g => g + rate
    holdElapsed := held
    record := if inEntry ∧ e.kind = .hold then { c.record with progress := held / 1000 } else c.record
    waitLeft := countDown c.waitLeft
    waitSpent := if c.state = .laneWait then c.waitSpent + 1 else c.waitSpent }

/-- A Cue Line Unit's counts one millisecond later (R35, R36, R178). -/
def CueLine.pass (l : CueLine) : CueLine :=
  { l with
    unit := match l.unit with
      | .await x left => .await x (left - 1)
      | .backoff x left => .backoff x (left - 1)
      | u => u
    autoDue := l.autoDue.map fun d => (d.1, d.2 - 1) }

/-- A ticket's elapsed count one millisecond later (R163). -/
def Ticket.pass (t : Ticket) : Ticket := if t.cooking then { t with elapsed := t.elapsed + 1 } else t

/-- A station's counts one millisecond later (R163, R183). -/
def Station.pass (x : Station) : Station :=
  { x with queue := x.queue.map Ticket.pass, pressWait := x.pressWait - 1 }

/-- The house's clock and counts one millisecond later (R82, R150, R163, R198). -/
def House.pass (h : House) : House :=
  { h with
    clock := h.clock.next
    shows := Vector.ofFn fun n => (h.ctl n).pass (h.entry n)
    lines := h.lines.map CueLine.pass
    queues := h.queues.map fun q => q.map fun a => { a with wait := a.wait + 1 }
    orders := h.orders.map fun o => { o with due := countDown o.due }
    stations := h.stations.map Station.pass }

/-- A loop's settling timer one millisecond later (R94). -/
def Loop.pass (l : Loop) : Loop := { l with timer := countDown l.timer }

/-- An entry lane's timers one millisecond later (R102, R103, R107, R181). -/
def EntryLane.pass (l : EntryLane) : EntryLane :=
  { l with
    arrive := l.arrive.pass
    clear := l.clear.pass
    armTimer := countDown l.armTimer
    passTimer := countDown l.passTimer
    sim := { l.sim with travel := countDown l.sim.travel } }

/-- Everything's counts one millisecond later. -/
def State.pass (s : State) : State :=
  { s with
    house := s.house.pass
    lanes := s.lanes.map EntryLane.pass
    exits := s.exits.map fun x => { x with loop := x.loop.pass } }

/-! ### What falls due -/

/-- What falls due on an entry lane (R94, R102, R105, R107, R181). -/
def State.laneDue (s : State) (k : EntryId) : State :=
  let s1 := if (s.lane k).clear.timer = some 0 then s.clearSettles k else s
  let s2 := if (s1.lane k).arrive.timer = some 0 then s1.arriveSettles k else s1
  let s3 := if (s2.lane k).sim.travel = some 0 then s2.armTravelEnd k else s2
  let s4 := if (s3.lane k).armTimer = some 0 then s3.armTimeout k else s3
  if (s4.lane k).passTimer = some 0 then s4.passTimeout k else s4

/-- What falls due on an exit lane (R94). -/
def State.exitDue (s : State) (j : ExitId) : State :=
  if (s.exitLane j).loop.timer = some 0 then s.exitSettles j else s

/-- What falls due on a screen's cue line (R35, R36, R178). -/
def House.lineDue (n : Screen) (h : House) : House :=
  let h1 := match (h.line n).autoDue with
    | some (_, 0) => h.autoAnswered n
    | _ => h
  match (h1.line n).unit with
  | .await _ 0 => h1.answerTimeout n
  | .backoff _ 0 => h1.backoffEnd n
  | _ => h1

/-- The late admission window of a screen has run out (R25). -/
def House.lateOver (h : House) (n : Screen) : Bool :=
  match (h.row n).admission, (h.ctl n).record.featureStart with
  | .late, some t => decide (t.total + h.lateLimit * 1000 ≤ h.clock.total)
  | _, _ => false

/-- What falls due in a screen's show (R9, R11, R13, R25, R40, R179). R40 leaves open which of a pulse, a stall and a
timebase frame of one millisecond is taken first; the order here is log entry 3. -/
def House.showDue (n : Screen) (h : House) : House :=
  let h1 := if 1000 ≤ ((h.ctl n).generator.getD 0) then h.generatedPulse n else h
  let h2 := if (h1.ctl n).stallTimer = some 0 then h1.pictureStall n else h1
  let h3 := if 1000 ≤ (h2.ctl n).timebase ∧ (h2.ctl n).counting = .timebase then h2.timebaseFrame n else h2
  let h4 := if 1000 ≤ (h3.ctl n).timebase ∧ h3.running n .skip then h3.skipFrame n else h3
  let h5 :=
    if h4.running n .hold ∧ (h4.entry n).length * 1000 ≤ (h4.ctl n).holdElapsed then h4.holdOver n else h4
  let h6 := if (h5.ctl n).state = .laneWait ∧ (h5.ctl n).waitLeft = some 0 then h5.holdExpired n else h5
  let h7 := h6.evalStart n
  if h7.lateOver n then h7.lateWindowEnd n else h7

/-- What falls due on one screen. -/
def House.screenDue (h : House) (n : Screen) : House := ((h.lineDue n).showDue n).settleQueue n

/-- The calls that fall due, in placement order (R150). -/
def House.callsDue (h : House) : House :=
  ((h.orders.filter fun o => o.due = some 0).map Order.number).foldl House.repeatDue h

/-- One millisecond passes. -/
def State.tick (s : State) : State :=
  let s1 := ([0, 1] : List ExitId).foldl State.exitDue (allLanes.foldl State.laneDue s.pass)
  s1.onHouse fun h => (allScreens.foldl House.screenDue h).callsDue.clockDue

end Machine
end Sys2Proof
end

