-- ==== Sys2Proof/WellFormed.lean ====
section
/-! DEFINITION. Which commands can come: a request as a frame can carry it (R186, R195 to R197), an event as the lines
can bring it. Codes and ranges that a rule judges are no part of it: a frame can carry them, and the rule answers. -/

set_option autoImplicit false

namespace Sys2Proof

open Machine

/-- A value fits its field. -/
def Machine.Field.fits (f : Field) : Bool := decide (f.value < 256 ^ f.width)

/-- A number is a byte. -/
def isByte (b : Nat) : Bool := decide (b < 256)

/-- A 24-bit signed sample on both channels (R47). -/
def StereoFrame.inRange (f : StereoFrame) : Bool :=
  decide (-8388608 ≤ f.left ∧ f.left ≤ 8388607 ∧ -8388608 ≤ f.right ∧ f.right ≤ 8388607)

/-- A 16-bit signed clip sample (R70). -/
def isClipSample (v : Int) : Bool := decide (-32768 ≤ v ∧ v ≤ 32767)

/-- What a command must satisfy beside the widths of its fields: operands that the encoding repeats or leaves out, and
what the lines of an event can bring. -/
def Instr.shapeOk : Instr → Bool
  | .clipData _ _ _ samples => samples.all isClipSample
  | .callClipsSet _ _ _ digits => decide (digits.length = 10)
  | .lotConfigLayout _ _ rows counts _ _ => decide (counts.length = rows)
  | .injectAnswer _ _ answer sequence => decide (answer = 4 → sequence = 0)
  | .laneSet _ lane map _ arm pass => decide (lane = 0x21 ∨ lane = 0x22 → map = 0 ∧ arm = 0 ∧ pass = 0)
  | .unknownKind kind tag body => isByte kind && isByte tag && body.all isByte && decide (body.length ≤ Config.bodyRoom)
  | .linkBusyMark kind tag => isByte kind && isByte tag
  | .receiveFrameDiscarded bytes => bytes.all isByte
  | .cueLineReceived _ chars => chars.all fun c => isByte c.byte
  | .sampleFrame a b c d => a.inRange && b.inRange && c.inRange && d.inRange
  | .announcementExpiry id => decide (1 ≤ id ∧ id ≤ 65535)
  | .callRepeatDue number => decide (1 ≤ number ∧ number ≤ 999)
  | _ => true

/-- A well-formed command: every field of a request fits its width, its tag is a byte and its body fits a frame. -/
def Instr.wf (i : Instr) : Bool :=
  i.shapeOk &&
    (match requestFields i with
      | some (_, fs) => fs.all Field.fits && isByte i.tag && decide (fieldWidth fs ≤ Config.bodyRoom)
      | none => true)

end Sys2Proof
end

