-- ==== Sys2Proof/Safety.lean ====
section
/-! DEFINITION. The words in which claims about the 416 are said: when a request is taken and what its reply looks like,
which states a queue, a counter or a lane may be in, and the invariants a step keeps. -/

set_option autoImplicit false

namespace Sys2Proof
namespace Machine

/-! ### Taking a request (R189 to R192) -/

/-- A checked request frame that comes now is taken: the receive buffer holds fewer than 4 requests, and no taken SITE
RESET waits to take effect (R189, R201). -/
def State.accepting (s : State) : Prop := s.link.requests < 4 ∧ s.link.resetTaken = false

/-- The state in which the rule of a taken request acts: the framer is HUNTING again (R187), and an idle transmitter
has been given the reply to send (R192). -/
def State.taken (s : State) : State :=
  { s with
    link := { s.link with framer := .hunting }
    house := { s.house with out := s.house.out.startReply } }

/-- The state with a reply filled in at the end of the reply order: its status, the flag byte worked out now, and the
fields after them (R189 to R191). -/
def State.answered (kind tag : Nat) (status : Status) (fields : List Field) (s : State) : State :=
  { s with
    link := { s.link with
      buffer := s.link.buffer ++
        [{ kind := kind, tag := tag, busy := false, siteReset := false,
           reply := some { status := status, flags := s.flagByte, fields := fields } }] } }

/-- The state with its house replaced. -/
def State.withHouse (h : House) (s : State) : State := { s with house := h }

/-- A request accepted: the house its rule leaves, and its reply OK with the fields it returns (R190, R191). -/
def State.replied (h : House) (kind tag : Nat) (fields : List Field) (s : State) : State :=
  (s.taken.withHouse h).answered kind tag .ok fields

/-- A request refused: nothing but its reply, a status with its detail (R190, R191). -/
def State.turnedDown (kind tag : Nat) (status : Status) (detail : List Field) (s : State) : State :=
  s.taken.answered kind tag status detail

/-- The request kinds of R195. -/
def requestKinds : List Nat :=
  [0x10, 0x11, 0x12, 0x13, 0x14]
    ++ [0x20, 0x21, 0x22, 0x23, 0x24, 0x25, 0x26, 0x27, 0x28, 0x29, 0x2A, 0x2B, 0x2C, 0x2D, 0x2E]
    ++ [0x30, 0x31, 0x32, 0x33, 0x34, 0x35, 0x36, 0x37, 0x38, 0x39, 0x3A, 0x3B, 0x3C, 0x3D, 0x3E]
    ++ [0x40, 0x41, 0x42, 0x43, 0x44, 0x45, 0x46, 0x47, 0x48, 0x49, 0x4A, 0x4B, 0x4C]
    ++ [0x50, 0x51, 0x52, 0x53, 0x54, 0x55, 0x56, 0x57, 0x58, 0x59]
    ++ [0x60, 0x61, 0x62, 0x63, 0x64, 0x65, 0x66, 0x67]

/-- The request kinds whose body is one byte under R197: a unit, an index, an id or an option. -/
def oneByteKinds : List Nat :=
  [0x11, 0x21, 0x23, 0x24, 0x25, 0x26, 0x27, 0x28, 0x29, 0x2C, 0x2D, 0x31, 0x33, 0x37, 0x38, 0x41, 0x42, 0x44, 0x45,
   0x4B, 0x63, 0x64, 0x67]

/-! ### Frames of a change -/

/-- A house keeps the settings of another: tables that requests set, and the counters that numbers come from. -/
structure House.settingsKept (h h0 : House) : Prop where
  mask : h.out.mask = h0.out.mask
  cues : h.cues = h0.cues
  policy : h.policy = h0.policy
  maxLaneHold : h.maxLaneHold = h0.maxLaneHold
  lateLimit : h.lateLimit = h0.lateLimit
  callClips : h.callClips = h0.callClips
  classes : h.classes = h0.classes
  gap : h.gap = h0.gap
  routes : h.routes = h0.routes
  nextNumber : h.nextNumber = h0.nextNumber
  nextSequence : h.nextSequence = h0.nextSequence
  orderPolicy : h.orderPolicy = h0.orderPolicy
  items : h.items = h0.items

/-- The screens other than `n` keep their Show Controller, their cue line and their gain. -/
def House.othersKept (n : Screen) (h h0 : House) : Prop :=
  ∀ m, m ≠ n → h.ctl m = h0.ctl m ∧ h.line m = h0.line m ∧ h.gain m = h0.gain m

/-- What a change of show `n` keeps: the settings, the clock, and the other screens. -/
structure House.showKept (n : Screen) (h h0 : House) : Prop where
  settings : h.settingsKept h0
  clock : h.clock = h0.clock
  others : h.othersKept n h0

/-- What orders and announcements keep: the settings, the clock, and every show, cue line and gain. -/
structure House.salesKept (h h0 : House) : Prop where
  settings : h.settingsKept h0
  clock : h.clock = h0.clock
  shows : h.shows = h0.shows
  lines : h.lines = h0.lines
  gains : h.gains = h0.gains

/-- What an event at entry lane `k` keeps: every other lane, and everything but the house, the lanes and the present
count; of the house the settings and the clock. -/
structure State.laneKept (k : EntryId) (t s : State) : Prop where
  rest : t = { s with house := t.house, lanes := t.lanes, present := t.present }
  lanes : ∀ j, j ≠ k → t.lane j = s.lane j
  settings : t.house.settingsKept s.house
  clock : t.house.clock = s.house.clock

/-! ### The moments of the manual -/

/-- The show on a screen is running an entry of a kind, its entries not yet finished (R12, R13). -/
def House.inEntry (h : House) (n : Screen) (k : EntryKind) (d : ShowDesc) (i : Nat) : Prop :=
  (h.ctl n).state = .showing ∧ (h.ctl n).finalHalt = false ∧ (h.ctl n).running = some d
    ∧ (h.ctl n).record.current = some i ∧ (h.cue i).kind = k

/-- The current entry is the last of its show (R15). -/
def House.lastEntry (h : House) (d : ShowDesc) (i : Nat) : Prop := (h.cue i).last = true ∨ d.start + d.count ≤ i + 1

/-- The Show Controller `n` runs entry `i` of show `d` from now on, or waits for lanes before it (R10, R12). -/
def House.entryBegun (n : Screen) (d : ShowDesc) (i : Nat) (h0 h : House) : Prop :=
  (h.ctl n).running = some d ∧ (h.ctl n).record.current = some i
    ∧ (if (h0.cue i).laneHold = true ∧ 0 < h0.maxLaneHold ∧ 0 < tget h0.backlog n then
        (h.ctl n).state = .laneWait ∧ (h.ctl n).waitLeft = some (h0.maxLaneHold * 1000)
      else (h.ctl n).state = .showing ∧ (h.ctl n).record.progress = 0)

/-- The show `d` is promoted from the pending slot (R16): the screen is ARMED under a zeroed record, and an AT_TIME show
whose start time has come starts at once, with its late-start seconds (R9). -/
def House.promoted (n : Screen) (d : ShowDesc) (h0 h : House) : Prop :=
  (h.ctl n).running = some d ∧ (h.ctl n).waiting = none
    ∧ (d.mode = .onCommand → (h.ctl n).state = .armed ∧ (h.ctl n).record = .zeroed d.showId)
    ∧ ∀ t, d.mode = .atTime t →
        (h0.clock.total < t.total → (h.ctl n).state = .armed ∧ (h.ctl n).record = .zeroed d.showId)
        ∧ (t.total ≤ h0.clock.total → House.entryBegun n d d.start h0 h
            ∧ (h.ctl n).record.lateStart = (h0.clock.total - t.total) / 1000)

/-- Entry `i` of show `d` has ended (R15, R16): the next one begins; or, after the last, the show waits for its H, or
completes, a show that waits in the pending slot then being promoted. -/
def House.entryEnded (n : Screen) (d : ShowDesc) (i : Nat) (h0 h : House) : Prop :=
  (¬ h0.lastEntry d i → House.entryBegun n d (i + 1) h0 h
      ∧ (h.ctl n).record.completed = (h0.ctl n).record.completed + 1)
    ∧ (h0.lastEntry d i → ((h0.line n).showHalt = true ∨ (h0.ctl n).halted = false) →
      (h.ctl n).state = .showing ∧ (h.ctl n).finalHalt = true ∧ (h.line n).showHalt = true
        ∧ (h.ctl n).record.completed = (h0.ctl n).record.completed + 1)
    ∧ (h0.lastEntry d i → (h0.line n).showHalt = false → (h0.ctl n).halted = true → (h0.ctl n).waiting = none →
      (h.ctl n).state = .idle ∧ (h.ctl n).running = none
        ∧ (h.ctl n).record.completed = (h0.ctl n).record.completed + 1
        ∧ (h.ctl n).record.outcome =
            if (h0.ctl n).record.faults = 0 then .complete else .completeWithFaults)
    ∧ ∀ next, h0.lastEntry d i → (h0.line n).showHalt = false → (h0.ctl n).halted = true →
        (h0.ctl n).waiting = some next → House.promoted n next h0 h

/-- The single H of STOPPING is under way, and nothing else waits on the cue line (R19). -/
def House.stoppingHalt (n : Screen) (h : House) : Prop :=
  (h.line n).waitingPlace = none
    ∧ ∃ x, (h.line n).unit.exchange? = some x ∧ x.verb = .h ∧ x.pass = false ∧ x.allowed = 1 ∧ x.used = 1

/-- A line of one letter and a sequence digit, with its carriage return, as it comes over CRX-n (R30, R31). -/
def answerLine (letter seq : Nat) : List CueChar :=
  [letter, 0x20, if seq < 10 then 0x30 + seq else 0x37 + seq, 0x0D].map fun b => { byte := b }

/-! ### A millisecond (R198, log entry 3) -/

/-- The state a command leaves. -/
def State.after (c : Instr) (s : State) : State :=
  match exec c s with
  | .next t => t
  | _ => s

/-- A command, and the condition that its count has run out. -/
abbrev Timer := Instr × (State → Bool)

/-- Of rows that share a timer, the one whose count has run out happens. -/
def State.fallsDue (s : State) (rows : List Timer) : State :=
  match rows.find? fun r => r.2 s with
  | some r => s.after r.1
  | none => s

/-- The timers of an entry lane, in the order of log entry 3 (R94, R102, R103, R107, R181). -/
def laneTimers (k : EntryId) : List (List Timer) :=
  [[(.clearSettles k, fun s => (s.lane k).clear.timer = some 0)],
   [(.arriveSettles k, fun s => (s.lane k).arrive.timer = some 0)],
   [(.simulatedArmTravelEnd k, fun s => (s.lane k).sim.travel = some 0)],
   [(.armTimeout k, fun s => (s.lane k).armTimer = some 0)],
   [(.passTimeout k, fun s => (s.lane k).passTimer = some 0)]]

/-- The timer of an exit lane (R94). -/
def exitTimers (j : ExitId) : List (List Timer) := [[(.exitSettles j, fun s => (s.exitLane j).loop.timer = some 0)]]

/-- An ARMED AT_TIME show's start time has come (R9). -/
def House.startReached (h : House) (n : Screen) : Bool :=
  match (h.ctl n).state, (h.ctl n).running with
  | .armed, some d =>
    match d.mode with
    | .atTime t => decide (t.total ≤ h.clock.total)
    | .onCommand => false
  | _, _ => false

/-- The automatic answer is due (R178). -/
def CueLine.autoOver (l : CueLine) : Bool :=
  match l.autoDue with
  | some (_, 0) => true
  | _ => false

/-- The answer timer has run out (R35). -/
def CueLine.awaitOver (l : CueLine) : Bool :=
  match l.unit with
  | .await _ 0 => true
  | _ => false

/-- The retry interval has passed (R36). -/
def CueLine.backoffOver (l : CueLine) : Bool :=
  match l.unit with
  | .backoff _ 0 => true
  | _ => false

/-- The timers of a screen, in the order of log entry 3: its cue line (R35, R36, R178), and its show (R9, R11, R13, R25,
R40, R179). -/
def screenTimers (n : Screen) : List (List Timer) :=
  [[(.autoAnswer n, fun s => (s.house.line n).autoOver)],
   [(.answerTimeout n, fun s => (s.house.line n).awaitOver), (.backoffEnd n, fun s => (s.house.line n).backoffOver)],
   [(.generatedFramePulse n, fun s => 1000 ≤ ((s.house.ctl n).generator.getD 0))],
   [(.pictureStall n, fun s => (s.house.ctl n).stallTimer = some 0)],
   [(.timebaseFrame n, fun s => 1000 ≤ (s.house.ctl n).timebase ∧ (s.house.ctl n).counting = .timebase)],
   [(.skipTimebaseFrame n, fun s => 1000 ≤ (s.house.ctl n).timebase ∧ s.house.running n .skip)],
   [(.holdEntryElapsed n,
     fun s => s.house.running n .hold ∧ (s.house.entry n).length * 1000 ≤ (s.house.ctl n).holdElapsed)],
   [(.holdExpired n, fun s => (s.house.ctl n).state = .laneWait ∧ (s.house.ctl n).waitLeft = some 0)],
   [(.showStartTimeReached n, fun s => s.house.startReached n)],
   [(.lateWindowEnd n, fun s => s.house.lateOver n)]]

/-- The hand-outs of the clock (R198). -/
def clockTimers : List (List Timer) :=
  [[(.wholeSecond, fun s => s.house.clock.wholeSecond)], [(.expirySweep, fun s => s.house.clock.wholeMinute)]]

/-- The rows whose counts have run out happen, in the order of log entry 3; the announcements whose wait is over expire
with their screen (R82), and the calls due are made in placement order (R150). -/
def State.runTimers (s : State) : State :=
  let s1 := (allLanes.flatMap laneTimers ++ ([0, 1] : List ExitId).flatMap exitTimers).foldl State.fallsDue s
  let s2 := allScreens.foldl
    (fun u n => ((screenTimers n).foldl State.fallsDue u).onHouse fun h => h.settleQueue n) s1
  let s3 := ((s2.house.orders.filter fun o => o.due = some 0).map Order.number).foldl
    (fun u number => u.after (.callRepeatDue number)) s2
  clockTimers.foldl State.fallsDue s3

/-- Every count of milliseconds of `p` is that of `s` one millisecond later, and nothing else differs: stopped timers
stay stopped, running ones fall by 1 (R11, R13, R35, R36, R40, R82, R94, R102, R103, R150, R163, R178, R179, R181, R183,
R198). -/
structure State.counted (p s : State) : Prop where
  rest : p = { s with house := p.house, lanes := p.lanes, exits := p.exits }
  house : p.house = { s.house with
    clock := p.house.clock, shows := p.house.shows, lines := p.house.lines, queues := p.house.queues
    orders := p.house.orders, stations := p.house.stations }
  clock : p.house.clock = s.house.clock.next
  shows : ∀ n, p.house.ctl n = { s.house.ctl n with
    stallTimer := (s.house.ctl n).stallTimer.map (· - 1)
    waitLeft := (s.house.ctl n).waitLeft.map (· - 1)
    waitSpent := (s.house.ctl n).waitSpent + if (s.house.ctl n).state = .laneWait then 1 else 0
    timebase := (p.house.ctl n).timebase, generator := (p.house.ctl n).generator
    holdElapsed := (p.house.ctl n).holdElapsed, record := (p.house.ctl n).record }
  frames : ∀ n d, (s.house.ctl n).running = some d →
    (p.house.ctl n).generator = (s.house.ctl n).generator.map (· + d.rate)
      ∧ (p.house.ctl n).timebase = (s.house.ctl n).timebase
          + if (s.house.ctl n).counting = .timebase ∨ s.house.running n .skip = true then d.rate else 0
  hold : ∀ n, (p.house.ctl n).holdElapsed = (s.house.ctl n).holdElapsed + (if s.house.running n .hold then 1 else 0)
    ∧ (p.house.ctl n).record = (if s.house.running n .hold then
        { (s.house.ctl n).record with progress := ((s.house.ctl n).holdElapsed + 1) / 1000 }
      else (s.house.ctl n).record)
  line : ∀ n, p.house.line n = { s.house.line n with
    unit := (p.house.line n).unit, autoDue := (s.house.line n).autoDue.map fun d => (d.1, d.2 - 1) }
  unit : ∀ n, (p.house.line n).unit = match (s.house.line n).unit with
    | .await x left => .await x (left - 1)
    | .backoff x left => .backoff x (left - 1)
    | u => u
  waits : ∀ n, p.house.queue n = (s.house.queue n).map fun a => { a with wait := a.wait + 1 }
  calls : p.house.orders = s.house.orders.map fun o => { o with due := o.due.map (· - 1) }
  tickets : ∀ st, p.house.station st = { s.house.station st with
    pressWait := (s.house.station st).pressWait - 1
    queue := (s.house.station st).queue.map fun t =>
      if t.state = .cooking ∨ t.state = .void then { t with elapsed := t.elapsed + 1 } else t }
  lane : ∀ k, p.lane k = { s.lane k with
    arrive := { (s.lane k).arrive with timer := (s.lane k).arrive.timer.map (· - 1) }
    clear := { (s.lane k).clear with timer := (s.lane k).clear.timer.map (· - 1) }
    armTimer := (s.lane k).armTimer.map (· - 1), passTimer := (s.lane k).passTimer.map (· - 1)
    sim := { (s.lane k).sim with travel := (s.lane k).sim.travel.map (· - 1) } }
  exit : ∀ j, p.exitLane j = { s.exitLane j with
    loop := { (s.exitLane j).loop with timer := (s.exitLane j).loop.timer.map (· - 1) } }

/-! ### Cue lines, the mix and announcements -/

/-- The line of an ENDED report, as it comes over CRX-n (R30, R41). -/
def endedLine (content : Nat) : List CueChar :=
  ([0x45, 0x20] ++ ([content / 4096 % 16, content / 256 % 16, content / 16 % 16, content % 16].map fun d =>
    if d < 10 then 0x30 + d else 0x37 + d) ++ [0x0D]).map fun b => { byte := b }

/-- The show on a screen is stopped by a fault: STOPPING with its single H, outcome STOPPED (R17, R19). -/
def House.stoppedBy (n : Screen) (cause : Cause) (h0 h : House) : Prop :=
  (h.ctl n).state = .stopping ∧ (h.ctl n).stopAbort = false ∧ (h.ctl n).record.outcome = .stopped
    ∧ (h.ctl n).record.faults = bumpTo 255 (h0.ctl n).record.faults
    ∧ (h.ctl n).record.firstCause = (h0.ctl n).record.firstCause.or (some cause)
    ∧ h.fade n = true ∧ h.stoppingHalt n ∧ h.showKept n h0

/-- The single H of STOPPING has ended, accepted, or failed for a cause (R17 to R19): a failure is counted, and with the
programme gain at 0 the screen leaves STOPPING, to IDLE after an abort, else to HELD. -/
def House.haltEnded (n : Screen) (cause : Option Cause) (h0 h : House) : Prop :=
  let record : ShowRecord := match cause with
    | some c => { (h0.ctl n).record with
        faults := bumpTo 255 (h0.ctl n).record.faults, firstCause := (h0.ctl n).record.firstCause.or (some c) }
    | none => (h0.ctl n).record
  (h.line n).unit = .quiet ∧ (h.ctl n).record = record ∧ h.showKept n h0
    ∧ ((h0.gain n).gp ≠ 0 → h.ctl n = { h0.ctl n with
        record := record, stopHaltEnded := true, halted := (h0.ctl n).halted || cause.isNone })
    ∧ ((h0.gain n).gp = 0 → (h.ctl n).state = if (h0.ctl n).stopAbort then .idle else .held)

/-- The bytes of a line that passes for one of the forms of R31: D, N or W with a digit, or E with four. -/
def lineOfR31 (bytes : List Nat) : Prop :=
  (∃ v d, bytes = [v, 0x20, d] ∧ (v = 0x44 ∨ v = 0x4E ∨ v = 0x57) ∧ (hexDigit d).isSome = true)
    ∨ ∃ a b c d, bytes = [0x45, 0x20, a, b, c, d] ∧ ∀ x ∈ [a, b, c, d], (hexDigit x).isSome = true

/-- A garbled line, as it comes over CRX-n (R29, R31): characters up to a carriage return that hold a bad one, are more
than 16, or make none of the forms. -/
def garbledLine (chars : List CueChar) : Prop :=
  ∃ body : List CueChar, chars = body ++ [{ byte := 0x0D }] ∧ body ≠ []
    ∧ (∀ c ∈ body, c.byte ≠ 0x0A ∧ c.byte ≠ 0x0D)
    ∧ ((∃ c ∈ body, c.framingError = true ∨ 128 ≤ c.byte) ∨ 16 < body.length ∨ ¬ lineOfR31 (body.map CueChar.byte))

/-- The house after a fault that does not stop the show of a screen has been counted (R17). -/
def House.faulted (n : Screen) (cause : Cause) (h : House) : House :=
  h.onCtl n fun c =>
    { c with record := { c.record with
        faults := bumpTo 255 c.record.faults, firstCause := c.record.firstCause.or (some cause) } }

/-- The cue line's fault record once an exchange has failed (R42): filled when it was empty, else marked further. -/
def LineFault.after (old : Option LineFault) (x : Exchange) (entry : Option Nat) (cause : LineCause) (now : SiteTime) :
    Option LineFault :=
  match old with
  | some f => some { f with further := true }
  | none =>
    some { verb := x.verb, content := if x.verb = .l then x.content else 0, entry := entry, cause := cause,
           attempts := x.used, time := now, further := false }

/-- A run of samples of one channel at constant gains, each residue carried into the next sample (R54). -/
def mixRun (gp ga : Nat) : Int → List (Int × Int) → List Mixed
  | _, [] => []
  | r, x :: rest => let m := mixSample x.1 gp x.2 ga r; m :: mixRun gp ga m.residue rest

/-- Nobody on a screen's queue has waited its class's max wait (R82). -/
def House.nobodyExpires (n : Screen) (h : House) : Prop := ∀ a ∈ h.queue n, a.wait < (h.classRow a.cls).maxWait * 1000

/-! ### Bounds (R30, R32, R80, R138, R140, R164, R189, R193) -/

/-- The bounds of the receive side of the site link (R189). -/
def Link.bounded (l : Link) : Prop :=
  l.requests ≤ 4 ∧ l.busyMarks ≤ 4 ∧ l.linkErrors ≤ 65535 ∧ l.busyCount ≤ 65535

/-- The bounds of the notice side (R193, R194). -/
def Outbox.bounded (o : Outbox) : Prop := o.notices.length ≤ 32 ∧ o.lostCount ≤ 255 ∧ o.mask < 4194304

/-- The bounds of a cue line: the next sequence number, the settings, and the line under construction (R29, R30,
R32). -/
def CueLine.bounded (l : CueLine) : Prop :=
  l.seq < 16 ∧ 100 ≤ l.answerTimeout ∧ l.answerTimeout ≤ 2000 ∧ l.retries ≤ 3 ∧ l.rx.chars.length ≤ 16

/-- The orders of the table have different numbers from 1 to 999, and there are at most 192 of them (R138, R140). -/
def House.ordersFine (h : House) : Prop :=
  h.orders.length ≤ 192 ∧ (h.orders.map Order.number).Nodup ∧ (∀ o ∈ h.orders, 1 ≤ o.number ∧ o.number ≤ 999)
    ∧ 1 ≤ h.nextNumber ∧ h.nextNumber ≤ 999

/-- A station holds at most 48 tickets (R164), with different join numbers, all given before the next one (R163). -/
def Station.ticketsFine (next : Nat) (x : Station) : Prop :=
  x.queue.length ≤ 48 ∧ (x.queue.map Ticket.joined).Nodup ∧ ∀ t ∈ x.queue, t.joined < next

/-- No announcement queue holds more than 12 announcements, no station more than 48 tickets, and no two tickets of a
station have the same join number (R80, R163, R164). -/
def House.queuesFine (h : House) : Prop :=
  (∀ n, (h.queue n).length ≤ 12) ∧ ∀ st, (h.station st).ticketsFine h.nextJoin

/-- Every gain is at most unity, and so is the duck gain of every phase row (R24, R57). -/
def House.gainsFine (h : House) : Prop := (∀ n, (h.gain n).gp ≤ 32768) ∧ ∀ p, (tget h.policy p).duck ≤ 32768

/-- The bounds of the house taken together. -/
structure House.bounded (h : House) : Prop where
  orders : h.ordersFine
  queues : h.queuesFine
  gains : h.gainsFine
  lines : ∀ n, (h.line n).bounded
  out : h.out.bounded

/-- Both residues of a channel pair are from 0 to 32,767 (R54). -/
def Channel.residuesFine (c : Channel) : Prop :=
  0 ≤ c.residueL ∧ c.residueL ≤ 32767 ∧ 0 ≤ c.residueR ∧ c.residueR ≤ 32767

/-! ### Deferred orders (R145 to R147) -/

/-- A DEFERRED order that a release attempt can release: the only one of the table, with every station it touches open
and with room (R146, R147). -/
def House.releasable (o : Order) (h : House) : Prop :=
  h.ordersFine ∧ o ∈ h.orders ∧ o.state = .deferred ∧ (∀ p ∈ h.orders, p.state = .deferred → p = o)
    ∧ ∀ st ∈ h.touched o.lines, (h.station st).opened = true ∧ (h.station st).queue.length < 48

/-- The order `o` of `h0` has been released in `h` (R145, R147): it is QUEUED, or COOKING where a ticket has started,
with its promised time, and its tickets stand in the queues of the stations it touches. -/
def House.released (o : Order) (h0 h : House) : Prop :=
  (∃ p ∈ h.orders, p.number = o.number ∧ (p.state = .queued ∨ p.state = .cooking) ∧ p.lines = o.lines
      ∧ p.tickets = h0.touched o.lines ∧ p.promised = some (h0.promise (largestWait (h0.waits o.lines))))
    ∧ ∀ st ∈ h0.touched o.lines, ∃ t ∈ (h.station st).queue, t.order = o.number ∧ t.lines = h0.linesFor o.lines st
        ∧ t.prep = h0.prepFor o.lines st ∧ (t.state = .queued ∨ t.state = .cooking)

/-- The orders of a screen may be released: intake OPEN in its phase row, or its countdown within the lead (R146). -/
def House.mayReleaseNow (h : House) (n : Screen) : Prop :=
  (h.row n).intake = .open ∨ ∃ c, (h.ctl n).countdown = some c ∧ c ≤ h.orderPolicy.lead

/-- The order of a ticket that has become DONE at station `st` follows it (R148): COOKING while another ticket of it is
QUEUED or COOKING, else READY with its ready time and its LATE flag; a PICKUP order is then called (R149), its call joining
the queue of its screen where there is room. -/
def House.followsTicket (st : StationId) (t : Ticket) (h0 h : House) : Prop :=
  ∀ o, h0.order? t.order = some o → o.state = .queued ∨ o.state = .cooking →
    let other (x : StationId) (u : Ticket) : Prop :=
      u ∈ (h0.station x).queue ∧ u.order = t.order ∧ (u.state = .queued ∨ u.state = .cooking)
        ∧ ¬ (x = st ∧ u.joined = t.joined)
    ((∃ x u, other x u) → h.order? t.order = some { o with state := .cooking })
    ∧ ((¬ ∃ x u, other x u) → ∃ p, h.order? t.order = some p
      ∧ p.state = .ready ∧ p.ready = some h0.clock ∧ p.age = 0
      ∧ (p.late = true ↔ ∃ w, o.promised = some w ∧ w.total < h0.clock.total)
      ∧ (o.mode = .runner → p.call = o.call ∧ p.callWaiting = o.callWaiting ∧ p.notCalled = o.notCalled)
      ∧ (o.mode = .pickup → h0.callClips = none → p.notCalled = true)
      ∧ ∀ cc, o.mode = .pickup → h0.callClips = some cc → (h0.queue o.screen).length < 12 →
          h0.nobodyExpires o.screen → 0 < (h0.classRow .orderCall).maxWait →
          (∀ b ∈ h0.queue o.screen, b.origin ≠ .order t.order) →
          ∃ b ∈ h.queue o.screen, p.call = some b.id ∧ b.cls = .orderCall ∧ b.origin = .order t.order
            ∧ b.clips = cc.compose t.order)

/-! ### Lanes (R97, R130, R132, R135, R136) -/

/-- The last notice made from `s` to `t` is `m`, and the only one unless a show leaves LANE_WAIT by its backlog (R11,
R126). -/
def State.told (m : Notice) (s t : State) : Prop :=
  ∃ o : Outbox, t.house.out = o.push m ∧ ((∀ n, (s.house.ctl n).state ≠ .laneWait) → o = s.house.out)

/-- A car has arrived at lane `k`: WAITING, one more arrival, and VEHICLE_WAITING (R98, R99, R107). -/
def State.arrivedAt (k : EntryId) (s t : State) : Prop :=
  (t.lane k).state = .waiting
    ∧ (t.lane k).counters = { (s.lane k).counters with arrivals := bumpTo 65535 (s.lane k).counters.arrivals }
    ∧ State.told { kind := .vehicleWaiting, time := s.house.clock, fields := [u8 (entryCode k)] } s t

/-- The findings of a verdict (R135): BALANCED, or EXTRA_VEHICLES with n, UNSEEN_PASSES with m, or both, behind their
count (log entry 12). -/
def findingsOf (c : Counters) : List Field :=
  match c.tailgates + c.unpaid, c.attendant with
  | 0, 0 => [u8 1, u8 1]
  | 0, m + 1 => [u8 1, u8 3, u16 (m + 1)]
  | n + 1, 0 => [u8 1, u8 2, u24 (n + 1)]
  | n + 1, m + 1 => [u8 2, u8 2, u24 (n + 1), u8 3, u16 (m + 1)]

/-- The LANE_CLOSED notice of a close-out (R135, R136): the findings, the saturated mark, the times and the eleven
counters. -/
def closeOut (k : EntryId) (c : Counters) (now : SiteTime) : Notice :=
  { kind := .laneClosed, time := now
    fields := u8 (entryCode k) :: (findingsOf c
      ++ [uBool (decide (c.tailgates = 65535 ∨ c.unpaid = 65535 ∨ c.attendant = 65535))]
      ++ uTime (some now) ++ uTime c.clearedAt ++ c.fields) }

/-- A close has taken effect on lane `k` (R111): CLOSED, with its close-out on the counters as they stand (R135, R136). -/
def State.closedOut (k : EntryId) (s t : State) : Prop :=
  (t.lane k).state = .closed ∧ (t.lane k).closePending = false ∧ (t.lane k).refused = false
    ∧ State.told (closeOut k (t.lane k).counters s.house.clock) s t

/-- A lane holds a grant exactly in RAISING and PASSING (R97). -/
def EntryLane.grantFine (l : EntryLane) : Prop := l.grant.isSome ↔ l.state = .raising ∨ l.state = .passing

/-- The four outcomes of a grant added up, with the grant in flight (R132). -/
def EntryLane.settled (l : EntryLane) : Nat :=
  l.counters.admitted + l.counters.attendant + l.counters.backouts + l.counters.lapses + (if l.grant.isSome then 1 else 0)

/-- None of the five counters of R132 has reached its limit. -/
def Counters.exact (c : Counters) : Prop :=
  c.grants < 65535 ∧ c.admitted < 65535 ∧ c.attendant < 65535 ∧ c.backouts < 65535 ∧ c.lapses < 65535

/-- The balance of R132: with no counter at its limit, grants equals the settled grants and the one in flight. -/
def EntryLane.balanced (l : EntryLane) : Prop :=
  l.grantFine ∧ (l.counters.exact → l.counters.grants = l.settled)

end Machine
end Sys2Proof
end

