-- ==== Sys2Proof/Certificates/Slice0/Obligations.lean ====
section
/-! DEFINITION. What the 416 does, stated from the rules of the manual for the provers: `Obligations.<Name> : Prop`. A
request is said to be taken under `State.accepting`; its rule acts on `s.taken`, its reply is `State.answered`
(Safety.lean). -/

set_option autoImplicit false

open Sys2Proof Sys2Proof.Machine

/-! ### The step, the tick and what every command keeps -/

/-- The step executes the command at the front of the queue with the queue's rest (the model's own queue, log entry
1). -/
def Obligations.StepRunsFrontCommand : Prop :=
  ∀ (c : Instr) (rest : List Instr) (s : State), s.pending = c :: rest → step s = exec c { s with pending := rest }

/-- With no command waiting the step is one millisecond of site time (the model's choice, log entry 3): every count of
milliseconds moves on by 1 and nothing else, and then each row whose count has run out happens, by the command of that
row, in the order of log entry 3; the clock advances by 1 ms (section 11.6), and the queue, the audio DRAM, the link, the
channel pairs and the settings stay. -/
def Obligations.IdleStepIsOneMillisecond : Prop :=
  ∀ s : State, s.pending = [] →
    ∃ p t : State, p.counted s ∧ t = p.runTimers ∧ step s = .next t ∧ t.house.clock = SiteTime.ofTotal (s.house.clock.total + 1)
      ∧ t.house.timeUnset = s.house.timeUnset ∧ t.pending = [] ∧ t.dram = s.dram ∧ t.link = s.link
      ∧ t.channels = s.channels ∧ t.units = s.units ∧ t.monitor = s.monitor ∧ t.mon = s.mon
      ∧ t.house.settingsKept s.house ∧ ∀ n, (t.house.gain n).gp = (s.house.gain n).gp

/-- Every command answers a next state and leaves the queue of waiting commands, the model's own queue (log entry 1), as it
is. -/
def Obligations.EveryCommandCompletes : Prop :=
  ∀ (c : Instr) (s : State), ∃ t, exec c s = .next t ∧ t.pending = s.pending

/-! ### Invariants of every step -/

/-- The audio DRAM keeps its canonical form, and the residues of the mix stay from 0 to 32,767 (R54), under every
step. -/
def Obligations.StepKeepsAudioState : Prop :=
  ∀ s t : State, step s = .next t →
    (s.dram.wf = true → t.dram.wf = true)
      ∧ ((∀ n, (s.channel n).residuesFine) → ∀ n, (t.channel n).residuesFine)

/-- The receive buffer never holds more than 4 requests or 4 busy marks, and its counters hold at 65,535 (R189). -/
def Obligations.StepKeepsLinkBounds : Prop :=
  ∀ s t : State, s.link.bounded → step s = .next t → t.link.bounded

/-- The bounds of the house are kept by every step: at most 32 notices, 255 lost, 22 mask bits (R193, R194); queues of
at most 12 announcements and 48 tickets, no two tickets of a station with one join number (R80, R163, R164); at most 192
orders with different numbers 1 to 999 (R138, R140);
gains of at most unity (R57); cue line settings, sequence numbers and lines in range (R29, R30, R32). -/
def Obligations.StepKeepsHouseBounds : Prop :=
  ∀ s t : State, s.house.bounded → step s = .next t → t.house.bounded

/-- The balance of an entry lane is kept by every step (R132, R97): a lane holds a grant exactly in RAISING and
PASSING, and while none of the five counters stands at 65,535, grants equals admitted + attendant + backouts + lapses
+ the grant in flight. -/
def Obligations.StepKeepsLaneBalance : Prop :=
  ∀ s t : State, (∀ k, (s.lane k).balanced) → step s = .next t → ∀ k, (t.lane k).balanced

/-- The state after power-on reset satisfies every invariant above. -/
def Obligations.ResetMeetsInvariants : Prop :=
  State.reset.dram.wf = true ∧ State.reset.link.bounded ∧ State.reset.house.bounded
    ∧ (∀ n, (State.reset.channel n).residuesFine) ∧ ∀ k, (State.reset.lane k).balanced

/-! ### The site link -/

/-- Decoding the body that encodes a well-formed request gives the request back, for every request of R195 with every
operand at every value its field admits. The layouts of the bodies are those of R195 to R197, and log entries 11 and 12
where the manual leaves them open. -/
def Obligations.DecodeOfEncodeIsTheRequest : Prop :=
  ∀ (i : Instr) (kind : Nat) (body : List Nat), i.wf = true → encodeRequest i = some (kind, body) →
    decodeRequest kind i.tag body = .request i

/-- The receive framer (R186 to R188): 0xC3 in HUNTING starts a frame; a frame built by R186 gives its kind, tag and body
back, and with another CRC fails; a gap of more than 20 ms inside a frame, or bytes that fail their length or CRC, return
the framer to HUNTING with one link error; a line break returns it to HUNTING with none. -/
def Obligations.FramerChecksFrames : Prop :=
  (∀ (kind tag : Nat) (body : List Nat), kind < 256 → tag < 256 → (∀ b ∈ body, b < 256) → body.length ≤ 240 →
    judgeFrame ((frameBytes kind tag body).drop 1) = .checked kind tag body
      ∧ ∀ hi lo : Nat, hi < 256 → lo < 256 → hi * 256 + lo ≠ crc16 ((body.length + 2) :: kind :: tag :: body) →
        judgeFrame (((body.length + 2) :: kind :: tag :: body) ++ [hi, lo]) = .badCrc)
  ∧ ∀ s : State,
    exec .startByteReceived s = .next { s with link := { s.link with framer := .collecting } }
      ∧ exec .lineBreak s = .next { s with link := { s.link with framer := .hunting } }
      ∧ (s.link.framer = .collecting → exec .frameGapTimeout s = .next
          { s with link := { s.link with framer := .hunting, linkErrors := bumpTo 65535 s.link.linkErrors } })
      ∧ ∀ bytes, (judgeFrame bytes = .badLength ∨ judgeFrame bytes = .badCrc) →
          exec (.receiveFrameDiscarded bytes) s = .next
            { s with link := { s.link with framer := .hunting, linkErrors := bumpTo 65535 s.link.linkErrors } }

/-- While the receive buffer holds 4 requests, a request frame of any row, or LINK_BUSY_MARK, draws a busy mark with
its LINK_BUSY reply and is counted; with 4 busy marks too it is discarded as a link error. No rule of a request acts
(R189). That the count and the reply's flag byte are taken when the mark is made is the model's reading (log entry 27). -/
def Obligations.FullBufferMarksBusy : Prop :=
  ∀ (i : Instr) (kind : Nat) (s : State),
    ((∃ fields, requestFields i = some (kind, fields)) ∨ i = .linkBusyMark kind i.tag) → 4 ≤ s.link.requests →
    exec i s = .next (
      if s.link.busyMarks < 4 then
        { s.taken with
          link :=
            { s.link with
              framer := .hunting
              busyCount := bumpTo 65535 s.link.busyCount
              buffer := s.link.buffer ++
                [{ kind := kind, tag := i.tag, busy := true, siteReset := false,
                   reply := some { status := .linkBusy, flags := s.flagByte, fields := [] } }] } }
      else
        { s with link := { s.link with framer := .hunting, linkErrors := bumpTo 65535 s.link.linkErrors } })

/-- A checked frame whose kind R195 does not list is answered BAD_KIND, and a body of the wrong length BAD_LENGTH (for
the kinds whose body is one byte, and for PHASE POLICY SET with no byte after its form byte, whatever that byte says), and
nothing else changes (R190, R195). A presence byte of ADMIT that names nothing is BAD_VALUE, with the block of the entry
lane the body names (R93, R197; log entries 12 and 25). -/
def Obligations.UnknownKindIsAnswered : Prop :=
  ∀ (kind tag : Nat) (body : List Nat) (s : State), s.accepting → body.length ≤ 240 →
    (kind ∉ requestKinds → exec (.unknownKind kind tag body) s = .next (s.taken.answered kind tag .badKind []))
      ∧ (kind ∈ oneByteKinds → body.length ≠ 1 →
          exec (.unknownKind kind tag body) s = .next (s.taken.answered kind tag .badLength []))
      ∧ (∀ form, exec (.unknownKind 0x2A tag [form]) s = .next (s.taken.answered 0x2A tag .badLength []))
      ∧ ∀ (lane : Nat) (k : EntryId) (screen presence row position high low : Nat), entryOfCode lane = some k →
          1 < presence → exec (.unknownKind 0x43 tag [lane, screen, presence, row, position, high, low]) s =
            .next (s.taken.answered 0x43 tag .badValue (s.lane k).block)

/-- The last byte of a frame on SLTX (R192), be it a reply, which leaves the receive buffer, or a notice: next comes the
reply then at the head of the reply order, and only when none stands there or it is not yet filled in, the oldest notice,
which leaves its queue. -/
def Obligations.TransmitterTakesRepliesFirst : Prop :=
  ∀ (s : State) (rest : List LinkEntry),
    ((∃ e, s.house.out.tx = .reply ∧ s.link.buffer = e :: rest ∧ e.siteReset = false)
      ∨ ∃ m, s.house.out.tx = .notice m ∧ s.link.buffer = rest) →
    (∀ (f : LinkEntry) (more : List LinkEntry), rest = f :: more → f.reply.isSome = true →
      exec .transmitFrameEnd s = .next
        { s with
          link := { s.link with buffer := rest }
          house := { s.house with out := { s.house.out with tx := .reply } } })
    ∧ ((∀ (f : LinkEntry) (more : List LinkEntry), rest = f :: more → f.reply = none) →
        (s.house.out.notices = [] → exec .transmitFrameEnd s = .next
          { s with
            link := { s.link with buffer := rest }
            house := { s.house with out := { s.house.out with tx := .idle } } })
        ∧ ∀ (m : Notice) (ms : List Notice), s.house.out.notices = m :: ms →
            exec .transmitFrameEnd s = .next
              { s with
                link := { s.link with buffer := rest }
                house := { s.house with out := { s.house.out with tx := .notice m, notices := ms } } })

/-- HELLO answers the identity of the part, the link rate in use and the largest body, and changes nothing (R199). -/
def Obligations.HelloAnswersIdentity : Prop :=
  ∀ (tag : Nat) (s : State), s.accepting →
    exec (.hello tag) s = .next (s.taken.answered 0x10 tag .ok
      [u16 0x46A1, u16 0x0416, u8 0x02, u8 s.link.rate, u8 240])

/-- SITE STATUS answers the state of the site, and clears NOTICE_LOST and the lost count after its reply is filled in;
with its clear option also the link error and LINK_BUSY counters (R193, R200); an option above 1 is refused BAD_VALUE (the
model's choice, log entry 25). NOTICE MASK sets the 22 switches; a mask with a higher bit is refused BAD_VALUE (R194). A
notice whose switch is off is not queued; one that comes to a full queue is dropped, counted and sets NOTICE_LOST; any
other joins the end of the queue (R193, R194), from which an idle transmitter takes the oldest (R192). -/
def Obligations.SiteStatusAndNoticeMask : Prop :=
  (∀ (n : Notice) (o : Outbox),
    (o.mask.testBit n.kind.bit = false → o.push n = o)
    ∧ (o.mask.testBit n.kind.bit = true → 32 ≤ o.notices.length →
        o.push n = { o with noticeLost := true, lostCount := bumpTo 255 o.lostCount })
    ∧ (o.mask.testBit n.kind.bit = true → o.notices.length < 32 →
        (o.tx ≠ .idle → o.push n = { o with notices := o.notices ++ [n] })
        ∧ (o.tx = .idle → o.notices = [] → o.push n = { o with tx := .notice n })))
  ∧ ∀ (tag : Nat) (s : State), s.accepting →
    exec (.siteStatus tag 0) s = .next (
      let t := s.taken.answered 0x11 tag .ok s.siteStatus
      { t with house := { t.house with out := { t.house.out with noticeLost := false, lostCount := 0 } } })
    ∧ exec (.siteStatus tag 1) s = .next (
      let t := s.taken.answered 0x11 tag .ok s.siteStatus
      { t with
        house := { t.house with out := { t.house.out with noticeLost := false, lostCount := 0 } }
        link := { t.link with linkErrors := 0, busyCount := 0 } })
    ∧ (∀ clear, 1 < clear → exec (.siteStatus tag clear) s = .next (s.turnedDown 0x11 tag .badValue []))
    ∧ ∀ mask,
      (mask < 4194304 → exec (.noticeMask tag mask) s = .next (s.replied
        { s.taken.house with out := { s.taken.house.out with mask := mask } } 0x14 tag []))
      ∧ (4194304 ≤ mask → exec (.noticeMask tag mask) s = .next (s.turnedDown 0x14 tag .badValue []))

/-- TIME SET with a time in range sets the clock, clears TIME_UNSET and answers OK with the old time; out of range it
is refused BAD_VALUE and changes nothing; no setting of the house changes. No other command but power-on reset moves the
clock or touches TIME_UNSET (R198, R203). -/
def Obligations.OnlyTimeSetSetsClock : Prop :=
  (∀ (tag day ms : Nat) (s : State), s.accepting →
    (day < 65536 → ms < 86400000 → ∃ h : House,
      exec (.timeSet tag day ms) s = .next (s.replied h 0x13 tag (uTime (some s.house.clock)))
        ∧ h.clock = { day := day, ms := ms } ∧ h.timeUnset = false ∧ h.settingsKept s.house)
    ∧ (65536 ≤ day ∨ 86400000 ≤ ms → exec (.timeSet tag day ms) s = .next (s.turnedDown 0x13 tag .badValue [])))
  ∧ ∀ (c : Instr) (s t : State), exec c s = .next t → (∀ tag d m, c ≠ .timeSet tag d m) →
      (∀ b1 b0, c ≠ .powerOnReset b1 b0) →
      t.house.clock = s.house.clock ∧ t.house.timeUnset = s.house.timeUnset

/-! ### Resets and the clock -/

/-- Power-on reset brings every block to its power-on values, samples the BAUD pins, takes the loops' raw levels as
their debounced states, and lets a verb line being sent finish (R203, R28, R46, R67, R91, R113, R129, R137, R160,
R176). Values the manual does not give are the model's (log entry 4); the queue of waiting commands (log entry 1), the
input levels (log entry 23) and the count of free values drawn (log entry 9) stay. -/
def Obligations.PowerOnResetSetsEverything : Prop :=
  ∀ (b1 b0 : Bool) (s : State), ∃ t, exec (.powerOnReset b1 b0) s = .next t
    ∧ t.house.clock = { day := 0, ms := 0 } ∧ t.house.timeUnset = true ∧ t.house.out = .reset
    ∧ (∀ i, t.house.cue i = .blank) ∧ t.house.policy = defaultPolicy ∧ t.house.maxLaneHold = 300
    ∧ t.house.lateLimit = 900
    ∧ (∀ n, t.house.ctl n = .reset ∧ t.house.gain n = .reset ∧ t.house.queue n = [] ∧ t.house.player n = .quiet
        ∧ t.house.lot n = .reset ∧ t.channel n = .reset
        ∧ t.house.line n = { CueLine.reset with sendingLines := (s.house.line n).sendingLines.take 1 })
    ∧ (∀ id, t.house.clip id = .blank) ∧ t.house.callClips = none ∧ t.house.classes = defaultClasses
    ∧ t.house.gap = 120 ∧ (∀ c, tget t.house.routes c = allScreens)
    ∧ t.house.nextAnn = 1 ∧ (∀ n, tget t.house.backlog n = 0)
    ∧ t.house.orders = [] ∧ t.house.nextNumber = 1 ∧ t.house.nextSequence = 1 ∧ t.house.orderPolicy = .initial
    ∧ (∀ c, t.house.item? c = none) ∧ (∀ st, t.house.station st = .reset) ∧ t.house.nextJoin = 1 ∧ t.house.nextCook = 1
    ∧ (∀ k, t.lane k = .reset (s.lane k).arrive.raw (s.lane k).clear.raw (s.lane k).armUp (s.lane k).armDn)
    ∧ (∀ j, t.exitLane j = .reset (s.exitLane j).loop.raw)
    ∧ t.present = 0 ∧ t.units = 16 ∧ t.stagedUnits = none ∧ t.monitor = none ∧ t.stagedMonitor = none ∧ t.mon = .zero
    ∧ t.dram = [] ∧ t.draws = s.draws
    ∧ t.link = .reset (2 * (if b1 then 1 else 0) + (if b0 then 1 else 0)) ∧ t.pending = s.pending

/-- SITE RESET (R201): its request is answered OK and closes the link to further requests, whose frames keep their place
and draw no reply; the reset takes effect with the last byte of its own reply. -/
def Obligations.SiteResetWaitsForItsReply : Prop :=
  ∀ (tag : Nat) (s : State),
    (s.accepting → exec (.siteReset tag) s = .next
      { s.taken with
        link :=
          { s.link with
            framer := .hunting
            resetTaken := true
            buffer := s.link.buffer ++
              [{ kind := 0x12, tag := tag, busy := false, siteReset := true,
                 reply := some { status := .ok, flags := s.flagByte, fields := [] } }] } })
    ∧ (∀ (i : Instr) (kind : Nat) (fields : List Field), requestFields i = some (kind, fields) → s.link.requests < 4 →
        s.link.resetTaken = true → exec i s = .next
          { s with
            link :=
              { s.link with
                framer := .hunting
                buffer := s.link.buffer ++
                  [{ kind := kind, tag := i.tag, busy := false, siteReset := false, reply := none }] } })
    ∧ (∀ (e : LinkEntry) (rest : List LinkEntry), s.house.out.tx = .reply → s.link.buffer = e :: rest →
        e.siteReset = true → s.link.resetTaken = true →
          exec .transmitFrameEnd s = exec .siteResetTakesEffect s)

/-- What SITE RESET leaves when it takes effect (R201, R28, R67, R73, R91, R92, R113, R129, R137, R160, R176): shows,
cues, policy with the longest lane hold and the late limit (R28), orders, kitchen, lanes with their marks and timers, lot
and the link's receive side at their reset values; the clock, the clips with their pages and the references of the
call-clip roles (R73), the call-clip configuration, classes, gap, routes, partition, rate and the audio DRAM kept; the
channel pairs, where a SCREEN RESET still waiting is joined by it (log entry 22), and the monitor follow at the next block
start, up to which a clip that was playing is heard (log entry 31). RAISE-k is released over a vacant clear loop (R96), and
a lane that was rehearsing takes its loops' raw levels (R184). The first sequence numbers, the join and cook ones among
them, are the model's (log entries 4 and 30). That it acts whenever a SITE RESET has been taken, replies still waiting or
not, is the model's (log entry 6); so is what BUMP-s does after a rehearsal ended so (log entry 32). -/
def Obligations.SiteResetTakesEffect : Prop :=
  ∀ s : State, s.link.resetTaken = true → ∃ t, exec .siteResetTakesEffect s = .next t
    ∧ t.house.clock = s.house.clock ∧ t.house.timeUnset = s.house.timeUnset ∧ t.house.out = .reset
    ∧ (∀ i, t.house.cue i = .blank) ∧ t.house.policy = defaultPolicy ∧ t.house.maxLaneHold = 300
    ∧ t.house.lateLimit = 900
    ∧ (∀ n, t.house.ctl n = .reset ∧ t.house.queue n = [] ∧ t.house.player n = .quiet ∧ t.house.lot n = .reset
        ∧ t.house.gain n = s.house.gain n
        ∧ t.channel n = { s.channel n with
            staged := none
            stagedReset := some (match (s.channel n).stagedReset with
              | some .screen | some .both => .both
              | some .site | none => .site)
            tail := ((s.house.playingClip n).map fun c =>
              { pages := c.pages, length := c.length, sample := (s.house.player n).sample }).or (s.channel n).tail }
        ∧ t.house.line n = { CueLine.reset with sendingLines := (s.house.line n).sendingLines.take 1 })
    ∧ (∀ id, (t.house.clip id).state = (s.house.clip id).state ∧ (t.house.clip id).length = (s.house.clip id).length
        ∧ (t.house.clip id).pages = (s.house.clip id).pages
        ∧ (1 ≤ id → id ≤ 127 →
            (t.house.clip id).refs = ((s.house.callClips.map CallClips.roles).getD []).count id))
    ∧ t.house.callClips = s.house.callClips ∧ t.house.classes = s.house.classes ∧ t.house.gap = s.house.gap
    ∧ t.house.routes = s.house.routes
    ∧ t.house.nextAnn = 1 ∧ (∀ n, tget t.house.backlog n = 0)
    ∧ t.house.orders = [] ∧ t.house.nextNumber = 1 ∧ t.house.nextSequence = 1 ∧ t.house.orderPolicy = .initial
    ∧ (∀ c, t.house.item? c = none) ∧ t.house.nextJoin = 1 ∧ t.house.nextCook = 1
    ∧ (∀ st, t.house.station st = { Station.reset with
        pressWait := if (s.house.station st).rehearsal = true then 40 else (s.house.station st).pressWait })
    ∧ (∀ k, (t.lane k).state = .closed ∧ (t.lane k).grant = none ∧ (t.lane k).settings = .initial
        ∧ (t.lane k).counters = .zero ∧ (t.lane k).rehearsal = false ∧ (t.lane k).demand = false
        ∧ (t.lane k).closePending = false ∧ (t.lane k).refused = false ∧ (t.lane k).armTimer = none
        ∧ (t.lane k).passTimer = none
        ∧ (t.lane k).raise = ((t.lane k).clear.occupied && (s.lane k).raise)
        ∧ ((s.lane k).rehearsal = false → (t.lane k).arrive = (s.lane k).arrive ∧ (t.lane k).clear = (s.lane k).clear)
        ∧ ((s.lane k).rehearsal = true → (t.lane k).arrive = .settled (s.lane k).arrive.raw
            ∧ (t.lane k).clear = .settled (s.lane k).clear.raw))
    ∧ (∀ j, t.exitLane j = { s.exitLane j with debounce := 150, exits := 0, clearedAt := none })
    ∧ t.present = 0 ∧ t.units = s.units ∧ t.stagedUnits = s.stagedUnits ∧ t.monitor = s.monitor
    ∧ t.stagedMonitor = some none ∧ t.dram = s.dram
    ∧ t.link = { s.link with buffer := [], resetTaken := false, linkErrors := 0, busyCount := 0 }
    ∧ t.pending = s.pending

/-- A whole second recomputes every countdown (R26) and tries the DEFERRED orders: one that may be released and whose
stations are open with room is released, and with none that may be released nothing else changes (R146, R147); a whole
minute ages the READY and CALLED orders by 1, and those that reach the limit leave the table (R156). -/
def Obligations.ClockHandsOut : Prop :=
  ∀ s : State,
    (∃ h, exec .wholeSecond s = .next (s.withHouse h) ∧ h.settingsKept s.house
      ∧ h.clock = s.house.clock ∧ h.lines = s.house.lines ∧ h.gains = s.house.gains
      ∧ (∀ n, h.ctl n = { s.house.ctl n with countdown := s.house.countdownOf n })
      ∧ (∀ o, s.house.releasable o → { s.house with shows := h.shows }.mayReleaseNow o.screen →
          House.released o s.house h)
      ∧ ((∀ o ∈ s.house.orders, o.state = .deferred → ¬ { s.house with shows := h.shows }.mayReleaseNow o.screen) →
          h = { s.house with shows := h.shows }))
    ∧ (∃ h, exec .expirySweep s = .next (s.withHouse h) ∧ h.salesKept s.house
      ∧ ∀ o ∈ s.house.orders, o.state = .ready ∨ o.state = .called → s.house.orderPolicy.limit ≤ o.age + 1 →
          ∀ o' ∈ h.orders, o'.number ≠ o.number)
    ∧ ((∀ o ∈ s.house.orders, o.state = .ready ∨ o.state = .called → o.age + 1 < s.house.orderPolicy.limit) →
        exec .expirySweep s = .next (s.withHouse
          { s.house with
            orders := s.house.orders.map fun o =>
              if o.state = .ready ∨ o.state = .called then { o with age := o.age + 1 } else o }))

/-! ### Phase policy -/

/-- PHASE POLICY SET replaces a row, SAFETY always among its classes (the reply says whether it had to be kept), or the
two site-wide values; every admission state is worked out again, and a DEFERRED order on a screen whose phase row opens
its intake is released (R146, R147); a value out of range is refused BAD_VALUE (R24, R25).
The end of a LATE window closes admission, and under another admission setting changes nothing (R25). -/
def Obligations.PhasePolicySetsRows : Prop :=
  ∀ (tag : Nat) (s : State), s.accepting →
    (∀ (phase adm intake allowed duck : Nat) (p : Phase) (a : Admit) (i : Intake), Phase.ofCode phase = some p →
      Admit.ofCode adm = some a → Intake.ofCode intake = some i → allowed < 32 → duck ≤ 32768 → ∃ h,
        exec (.phasePolicySetRow tag phase adm intake allowed duck) s =
            .next (s.replied h 0x2A tag [uBool (!allowed.testBit 0)])
          ∧ (tget h.policy p.index).admission = a ∧ (tget h.policy p.index).intake = i
          ∧ (tget h.policy p.index).duck = duck
          ∧ (∀ c, c ∈ (tget h.policy p.index).allowed ↔ (allowed.testBit c.index.val = true ∨ c = .safety))
          ∧ (∀ q, q ≠ p.index → tget h.policy q = tget s.house.policy q)
          ∧ (∀ n, (h.lot n).admission = h.admissionOf n)
          ∧ h.shows = s.house.shows ∧ h.lines = s.house.lines ∧ h.gains = s.house.gains
          ∧ ∀ o, s.house.releasable o → (∀ n, s.house.nobodyExpires n) → s.house.phase o.screen = p → i = .open →
              House.released o s.house h)
    ∧ (∀ maxHold lateLimit : Nat, maxHold ≤ 900 → lateLimit ≤ 3600 → ∃ h,
        exec (.phasePolicySetLimits tag maxHold lateLimit) s = .next (s.replied h 0x2A tag [])
          ∧ h.maxLaneHold = maxHold ∧ h.lateLimit = lateLimit ∧ h.policy = s.house.policy
          ∧ (∀ n, (h.lot n).admission = h.admissionOf n)
          ∧ h.shows = s.house.shows ∧ h.lines = s.house.lines ∧ h.gains = s.house.gains)
    ∧ (∀ phase adm intake allowed duck : Nat, Phase.ofCode phase = none ∨ Admit.ofCode adm = none
        ∨ Intake.ofCode intake = none ∨ 32 ≤ allowed ∨ 32768 < duck →
        exec (.phasePolicySetRow tag phase adm intake allowed duck) s =
          .next (s.turnedDown 0x2A tag .badValue []))
    ∧ (∀ maxHold lateLimit : Nat, 900 < maxHold ∨ 3600 < lateLimit →
        exec (.phasePolicySetLimits tag maxHold lateLimit) s = .next (s.turnedDown 0x2A tag .badValue []))
    ∧ ∀ n, ((s.house.row n).admission ≠ .late → exec (.lateWindowEnd n) s = .next s)
        ∧ ((s.house.row n).admission = .late → (s.house.ctl n).running.isSome = true →
            (s.house.ctl n).record.featureStart.isSome = true →
            exec (.lateWindowEnd n) s = .next (s.withHouse (s.house.onLot n fun l => { l with admission := false })))

/-! ### Cue table and shows -/

/-- CUE WRITE: the two checks of R2 in their order, and then the entry with exactly the contents sent; nothing else
changes, no clip reference among it. Of the flags byte, LAST and LANE_HOLD are kept (R1); its other bits have no meaning in
the manual and are dropped (log entry 37). -/
def Obligations.CueWriteSetsEntry : Prop :=
  ∀ (tag index kind content length phaseTag flags startClip : Nat) (s : State), s.accepting → index < 256 →
    ((3 < kind ∨ (kind ≠ 0 ∧ (phaseTag = 0 ∨ 4 < phaseTag))) →
      exec (.cueWrite tag index kind content length phaseTag flags startClip) s =
        .next (s.turnedDown 0x20 tag .badValue []))
    ∧ (kind ≤ 3 → (kind = 0 ∨ (1 ≤ phaseTag ∧ phaseTag ≤ 4)) →
      ((∃ (n : Screen) (d : ShowDesc), ((s.house.ctl n).running = some d ∨ (s.house.ctl n).waiting = some d)
          ∧ d.start ≤ index ∧ index < d.start + d.count) →
        exec (.cueWrite tag index kind content length phaseTag flags startClip) s =
          .next (s.turnedDown 0x20 tag .inUse []))
      ∧ ((∀ (n : Screen) (d : ShowDesc), (s.house.ctl n).running = some d ∨ (s.house.ctl n).waiting = some d →
            ¬ (d.start ≤ index ∧ index < d.start + d.count)) →
          ∃ e : CueEntry,
            exec (.cueWrite tag index kind content length phaseTag flags startClip) s = .next (s.replied
              { s.taken.house with cues := s.house.cues.setIfInBounds index e } 0x20 tag [])
              ∧ e.kind.code = kind
              ∧ (kind ≠ 0 → e.content = content ∧ e.length = length ∧ e.tag.code = phaseTag
                  ∧ e.last = flags.testBit 0 ∧ e.laneHold = flags.testBit 1 ∧ e.startClip = startClip)))

/-- The reading requests answer the fields of their rules and change nothing but the link (R3, R27, R43, R74, R86,
R128, R159, R175), in the layouts of log entry 12; the lists of R74, R86, R159 and R175 fit the body of a frame
(R190). -/
def Obligations.ReadsAnswerAndChangeNothing : Prop :=
  ∀ (tag : Nat) (s : State), s.accepting →
    (∀ index, exec (.cueRead tag index) s = .next (s.taken.answered 0x21 tag .ok
      ((s.house.cue index).fields ++ allScreens.map (s.house.protection index))))
    ∧ (∀ (code : Nat) (n : Screen), screenOfCode code = some n →
        exec (.screenStatus tag code) s = .next (s.taken.answered 0x28 tag .ok (s.house.screenStatus n))
        ∧ exec (.faultRead tag code) s = .next (s.taken.answered 0x2C tag .ok (faultFields (s.house.line n).fault))
        ∧ (∀ first, 1 ≤ first → exec (.queueRead tag code first) s =
            .next (s.taken.answered 0x3E tag .ok (s.house.queueRead n first))
            ∧ fieldWidth (s.house.queueRead n first) ≤ 238)
        ∧ (∀ row position, 1 ≤ row → row ≤ 16 → 1 ≤ position → position ≤ 120 →
            exec (.stallRead tag 1 code row position) s = .next (s.taken.answered 0x47 tag .ok
              (s.house.lotSummary n ++ stallFields row position (s.house.stall? n row position)))
            ∧ exec (.stallRead tag 2 code row position) s =
                .next (s.taken.answered 0x47 tag .ok (s.house.stallRow n row position))))
    ∧ (∀ first, 1 ≤ first → first ≤ 127 →
        exec (.clipList tag first) s = .next (s.taken.answered 0x38 tag .ok (s.clipList first))
          ∧ fieldWidth (s.clipList first) ≤ 238)
    ∧ (∀ number, 1 ≤ number → number ≤ 999 →
        exec (.orderRead tag 1 number) s = .next (match s.house.order? number with
          | some o => s.taken.answered 0x57 tag .ok (o.record o.state.code ++ [u32 (o.due.getD 0xFFFFFFFF)])
          | none => s.taken.answered 0x57 tag .notFound [])
        ∧ exec (.orderRead tag 2 number) s = .next (s.taken.answered 0x57 tag .ok (s.house.orderList number))
        ∧ fieldWidth (s.house.orderList number) ≤ 238)
    ∧ (∀ (code first : Nat) (st : StationId), stationOfCode code = some st → 1 ≤ first → first ≤ 48 →
        exec (.stationRead tag code first) s = .next (s.taken.answered 0x58 tag .ok ((s.house.station st).fields first))
        ∧ fieldWidth ((s.house.station st).fields first) ≤ 238)

/-- SHOW LOAD that passes the checks of R4 takes the running slot of an IDLE screen with an empty slot, ARMED under a
zeroed record, or else the pending slot, and takes the references of its start clips (R5); an AT_TIME show whose start time
has come starts at once (R9); the checks refuse in their order (R4). That a start time of 86,400,000 ms or more is refused
is the model's reading (log entry 14). -/
def Obligations.ShowLoadTakesSlot : Prop :=
  ∀ (tag screen showId start count rate policy mode day ms : Nat) (s : State) (n : Screen), s.accepting →
    screenOfCode screen = some n →
    (loadedShow showId start count rate policy mode day ms = none →
      exec (.showLoad tag screen showId start count rate policy mode day ms) s =
        .next (s.turnedDown 0x22 tag .badValue [u8 0, u8 0]))
    ∧ ∀ d, loadedShow showId start count rate policy mode day ms = some d →
      (d.mode.timed = true → s.house.timeUnset = true →
        exec (.showLoad tag screen showId start count rate policy mode day ms) s =
          .next (s.turnedDown 0x22 tag .badState []))
      ∧ ((d.mode.timed = true → s.house.timeUnset = false) →
        (s.house.slotOpen n = false → (s.house.ctl n).waiting.isSome = true →
          exec (.showLoad tag screen showId start count rate policy mode day ms) s =
            .next (s.turnedDown 0x22 tag .full []))
        ∧ ((s.house.slotOpen n = true ∨ (s.house.ctl n).waiting = none) →
          (∀ i, d.start ≤ i → i < d.start + d.count → (∀ j, d.start ≤ j → j < i → s.house.loadable j = true) →
            s.house.loadable i = false →
              exec (.showLoad tag screen showId start count rate policy mode day ms) s =
                .next (s.turnedDown 0x22 tag .badValue [u8 1, u8 i]))
          ∧ ((∀ i, d.start ≤ i → i < d.start + d.count → s.house.loadable i = true) →
            (s.house.slotOpen n = false →
              exec (.showLoad tag screen showId start count rate policy mode day ms) s = .next (s.replied
                ((s.taken.house.takeRefs (s.house.startClips d)).onCtl n fun c => { c with waiting := some d })
                0x22 tag [u8 2]))
            ∧ (s.house.slotOpen n = true → d.mode = .onCommand → ∃ h,
              exec (.showLoad tag screen showId start count rate policy mode day ms) s =
                  .next (s.replied h 0x22 tag [u8 1])
                ∧ (h.ctl n).state = .armed ∧ (h.ctl n).running = some d ∧ (h.ctl n).record = .zeroed d.showId
                ∧ (h.ctl n).waiting = (s.house.ctl n).waiting ∧ h.showKept n s.house
                ∧ (s.house.nobodyExpires n → h.clips = (s.house.takeRefs (s.house.startClips d)).clips))
            ∧ (s.house.slotOpen n = true → ∀ t, d.mode = .atTime t → ∃ h,
              exec (.showLoad tag screen showId start count rate policy mode day ms) s =
                  .next (s.replied h 0x22 tag [u8 1])
                ∧ (h.ctl n).running = some d ∧ (h.ctl n).waiting = (s.house.ctl n).waiting ∧ h.showKept n s.house
                ∧ (s.house.clock.total < t.total → (h.ctl n).state = .armed ∧ (h.ctl n).record = .zeroed d.showId
                    ∧ (s.house.nobodyExpires n → h.clips = (s.house.takeRefs (s.house.startClips d)).clips))
                ∧ (t.total ≤ s.house.clock.total → House.entryBegun n d d.start s.house h
                    ∧ (h.ctl n).record.lateStart = (s.house.clock.total - t.total) / 1000)))))

/-- An ARMED show starts at SHOW START or at its start time: its first entry begins, with the late-start seconds, and
in any other state SHOW START is refused BAD_STATE (R8 to R10; the command of a start time not yet reached starts the show
with 0 seconds, the model's choice, log entry 6). The expiry of the hold timer ends LANE_WAIT: its
seconds join the record and the entry runs (R11). -/
def Obligations.ShowsStart : Prop :=
  ∀ (s : State) (n : Screen),
    (∀ tag screen, s.accepting → screenOfCode screen = some n →
      (∀ d, (s.house.ctl n).state = .armed → (s.house.ctl n).running = some d → ∃ h,
        exec (.showStart tag screen) s = .next (s.replied h 0x23 tag []) ∧ House.entryBegun n d d.start s.house h
          ∧ (h.ctl n).record.lateStart = 0 ∧ h.showKept n s.house)
      ∧ ((s.house.ctl n).state ≠ .armed →
          exec (.showStart tag screen) s = .next (s.turnedDown 0x23 tag .badState [])))
    ∧ (∀ d t, (s.house.ctl n).state = .armed → (s.house.ctl n).running = some d → d.mode = .atTime t → ∃ h,
        exec (.showStartTimeReached n) s = .next (s.withHouse h) ∧ House.entryBegun n d d.start s.house h
          ∧ (h.ctl n).record.lateStart = (s.house.clock.total - t.total) / 1000 ∧ h.showKept n s.house)
    ∧ ((s.house.ctl n).state = .laneWait → ∃ h, exec (.holdExpired n) s = .next (s.withHouse h)
        ∧ (h.ctl n).state = .showing ∧ (h.ctl n).running = (s.house.ctl n).running ∧ (h.ctl n).waitLeft = none
        ∧ (h.ctl n).record.current = (s.house.ctl n).record.current ∧ (h.ctl n).record.progress = 0
        ∧ (h.ctl n).record.laneHoldSecs =
            (s.house.ctl n).record.laneHoldSecs + (s.house.ctl n).waitSpent / 1000
        ∧ h.showKept n s.house)

/-- A HOLD ends by SHOW NEXT or when its length has elapsed (R13, R14), with the consequences of R15 and R16; SHOW NEXT
at any other entry or in any other state is refused BAD_STATE. -/
def Obligations.HoldEntryEnds : Prop :=
  ∀ (s : State) (n : Screen),
    (∀ d i, s.house.inEntry n .hold d i →
      (∀ tag screen, s.accepting → screenOfCode screen = some n → ∃ h,
        exec (.showNext tag screen) s = .next (s.replied h 0x24 tag []) ∧ House.entryEnded n d i s.house h
          ∧ h.showKept n s.house)
      ∧ ∃ h, exec (.holdEntryElapsed n) s = .next (s.withHouse h) ∧ House.entryEnded n d i s.house h
          ∧ h.showKept n s.house)
    ∧ ∀ tag screen, s.accepting → screenOfCode screen = some n →
        ((s.house.ctl n).state ≠ .showing ∨ (s.house.entry n).kind ≠ .hold ∨ (s.house.ctl n).finalHalt = true) →
        exec (.showNext tag screen) s = .next (s.turnedDown 0x24 tag .badState [])

/-- Frames (R13, R40, R179): of FRAME-n, or of a rehearsing screen's generator, while frame counting is on, which then
counts pulses with the stall timer at 400 ms; of the timebase in a stalled PLAY or in a SKIP. A frame before the last
adds 1 to the progress, and the one that brings it to the entry's length ends the entry, with the consequences of R15 and
R16. A rehearsing screen ignores FRAME-n. The timebase and the generator are kept in thousandths of a frame, of which a
frame takes 1,000 (log entry 24). -/
def Obligations.FramesCountProgress : Prop :=
  ∀ (s : State) (n : Screen) (k : EntryKind) (d : ShowDesc) (i : Nat), s.house.inEntry n k d i →
    ((s.house.ctl n).rehearsal = true → exec (.framePulse n) s = .next s)
    ∧ ((s.house.ctl n).record.progress + 1 < (s.house.cue i).length →
      ((s.house.ctl n).rehearsal = false → (s.house.ctl n).counting ≠ .off →
        exec (.framePulse n) s = .next (s.withHouse (s.house.onCtl n fun c =>
          { c with
            counting := .pulses, stallTimer := some 400, timebase := 0
            record := { c.record with progress := c.record.progress + 1 } })))
      ∧ (∀ g, (s.house.ctl n).rehearsal = true → (s.house.ctl n).generator = some g →
          (s.house.ctl n).counting ≠ .off →
          exec (.generatedFramePulse n) s = .next (s.withHouse (s.house.onCtl n fun c =>
            { c with
              generator := some (g - 1000), counting := .pulses, stallTimer := some 400, timebase := 0
              record := { c.record with progress := c.record.progress + 1 } })))
      ∧ ((s.house.ctl n).counting = .timebase →
          exec (.timebaseFrame n) s = .next (s.withHouse (s.house.onCtl n fun c =>
            { c with
              timebase := c.timebase - 1000, record := { c.record with progress := c.record.progress + 1 } })))
      ∧ (k = .skip → exec (.skipTimebaseFrame n) s = .next (s.withHouse (s.house.onCtl n fun c =>
            { c with
              timebase := c.timebase - 1000, record := { c.record with progress := c.record.progress + 1 } }))))
    ∧ ((s.house.cue i).length ≤ (s.house.ctl n).record.progress + 1 →
      ((s.house.ctl n).rehearsal = false → (s.house.ctl n).counting ≠ .off → ∃ h,
        exec (.framePulse n) s = .next (s.withHouse h) ∧ House.entryEnded n d i s.house h ∧ h.showKept n s.house)
      ∧ ((s.house.ctl n).rehearsal = true → (s.house.ctl n).generator.isSome = true →
          (s.house.ctl n).counting ≠ .off → ∃ h,
          exec (.generatedFramePulse n) s = .next (s.withHouse h) ∧ House.entryEnded n d i s.house h
            ∧ h.showKept n s.house)
      ∧ ((s.house.ctl n).counting = .timebase → ∃ h,
          exec (.timebaseFrame n) s = .next (s.withHouse h) ∧ House.entryEnded n d i s.house h ∧ h.showKept n s.house)
      ∧ (k = .skip → ∃ h, exec (.skipTimebaseFrame n) s = .next (s.withHouse h)
          ∧ House.entryEnded n d i s.house h ∧ h.showKept n s.house))

/-- The stall timer of a PLAY raises PICTURE_STALL, counted and reported; under RUN_THROUGH the timebase counts on,
under STOP_ON_FAULT the screen enters STOPPING with outcome STOPPED (R17 to R19, R40). The cause's code is that of log
entry 11. -/
def Obligations.PictureStallIsAFault : Prop :=
  ∀ (s : State) (n : Screen) (d : ShowDesc), (s.house.ctl n).counting = .pulses →
    (s.house.ctl n).stallTimer.isSome = true → (s.house.ctl n).state = .showing →
    (s.house.ctl n).running = some d →
    (d.policy = .runThrough → ∃ h, exec (.pictureStall n) s = .next (s.withHouse h)
      ∧ h = { s.house with shows := h.shows, out := h.out } ∧ h.othersKept n s.house
      ∧ h.ctl n = { s.house.ctl n with
          counting := .timebase, stallTimer := none, timebase := 0
          record := { (s.house.ctl n).record with
            faults := bumpTo 255 (s.house.ctl n).record.faults
            firstCause := (s.house.ctl n).record.firstCause.or (some .pictureStall) } }
      ∧ h.out = s.house.out.push
          { kind := .screenFault, time := s.house.clock,
            fields := [u8 (screenCode n), u16 (s.house.ctl n).record.showId, u8 Cause.pictureStall.code]
              ++ uOpt 1 (s.house.ctl n).record.current })
    ∧ (d.policy = .stopOnFault → ∃ h, exec (.pictureStall n) s = .next (s.withHouse h)
      ∧ House.stoppedBy n .pictureStall s.house h)

/-- SHOW ABORT by the screen's state (R20): refused BAD_STATE in IDLE; ARMED and LANE_WAIT go to IDLE with outcome
ABORTED; SHOWING enters STOPPING with outcome ABORTED; STOPPING ends as an abort; HELD goes to IDLE. The pending show
stays. A change of phase that it brings releases a DEFERRED order of the screen whose new phase row opens its intake (R146,
R147). -/
def Obligations.ShowAbortByState : Prop :=
  ∀ (tag screen : Nat) (s : State) (n : Screen), s.accepting → screenOfCode screen = some n →
    ((s.house.ctl n).state = .idle →
      exec (.showAbort tag screen) s = .next (s.turnedDown 0x25 tag .badState []))
    ∧ ((s.house.ctl n).state = .stopping → exec (.showAbort tag screen) s = .next
        (s.replied (s.taken.house.onCtl n fun c => { c with stopAbort := true }) 0x25 tag []))
    ∧ (((s.house.ctl n).state = .armed ∨ (s.house.ctl n).state = .laneWait ∨ (s.house.ctl n).state = .held) → ∃ h,
        exec (.showAbort tag screen) s = .next (s.replied h 0x25 tag [])
          ∧ (h.ctl n).state = .idle ∧ (h.ctl n).running = none ∧ (h.ctl n).waiting = (s.house.ctl n).waiting
          ∧ ((s.house.ctl n).state ≠ .held → (h.ctl n).record.outcome = .aborted) ∧ h.fade n = false
          ∧ h.showKept n s.house
          ∧ ∀ o, s.house.releasable o → s.house.nobodyExpires n → o.screen = n → (s.house.ctl n).state = .armed →
              (tget s.house.policy Phase.dark.index).intake = .open → House.released o s.house h)
    ∧ ((s.house.ctl n).state = .showing → ∃ h, exec (.showAbort tag screen) s = .next (s.replied h 0x25 tag [])
        ∧ (h.ctl n).state = .stopping ∧ (h.ctl n).stopAbort = true ∧ (h.ctl n).record.outcome = .aborted
        ∧ (h.ctl n).waiting = (s.house.ctl n).waiting ∧ h.fade n = true ∧ h.stoppingHalt n ∧ h.showKept n s.house)

/-- SHOW RELEASE empties the slot of a HELD screen and SHOW PROMOTE acts on an IDLE screen with an empty slot: a pending
show is promoted and the screen ARMED, an AT_TIME show whose start time has come starting at once (R9); without one the
first leaves the screen IDLE, the second is refused NOT_FOUND; in any other state both are refused BAD_STATE (R16, R21,
R22). -/
def Obligations.ReleaseAndPromote : Prop :=
  ∀ (tag screen : Nat) (s : State) (n : Screen), s.accepting → screenOfCode screen = some n →
    ((s.house.ctl n).state = .held →
      ((s.house.ctl n).waiting = none → ∃ h, exec (.showRelease tag screen) s = .next (s.replied h 0x26 tag [])
        ∧ (h.ctl n).state = .idle ∧ (h.ctl n).running = none ∧ h.fade n = false ∧ h.showKept n s.house)
      ∧ (∀ d, (s.house.ctl n).waiting = some d → ∃ h,
          exec (.showRelease tag screen) s = .next (s.replied h 0x26 tag [])
            ∧ House.promoted n d s.house h ∧ ((h.ctl n).state = .armed → h.fade n = false) ∧ h.showKept n s.house))
    ∧ ((s.house.ctl n).state ≠ .held →
        exec (.showRelease tag screen) s = .next (s.turnedDown 0x26 tag .badState []))
    ∧ (s.house.slotOpen n = true → ∀ d, (s.house.ctl n).waiting = some d → ∃ h,
        exec (.showPromote tag screen) s = .next (s.replied h 0x27 tag [])
          ∧ House.promoted n d s.house h ∧ h.showKept n s.house)
    ∧ (s.house.slotOpen n = true → (s.house.ctl n).waiting = none →
        exec (.showPromote tag screen) s = .next (s.turnedDown 0x27 tag .notFound []))
    ∧ (s.house.slotOpen n = false →
        exec (.showPromote tag screen) s = .next (s.turnedDown 0x27 tag .badState []))

/-- SCREEN RESET returns the Show Controller to its reset values but for the rehearsal settings, empties its slots with
their clip references, abandons the exchange and empties the fault record at once; the channel pair, the queue, the player
and the order calls are left to the next block start (R28, R46, R66, R91, R158, R184, R202). That a SITE RESET still
waiting there is joined by it, and not replaced, is log entry 22 (DEDUCED). -/
def Obligations.ScreenResetReturnsScreen : Prop :=
  ∀ (tag screen : Nat) (s : State), s.accepting →
    (screenOfCode screen = none → exec (.screenReset tag screen) s = .next (s.turnedDown 0x29 tag .badValue []))
    ∧ ∀ n, screenOfCode screen = some n → ∃ h, exec (.screenReset tag screen) s = .next
        (({ s.taken with
            house := h
            channels := tmod s.channels n fun c =>
              { c with stagedReset := some (match c.stagedReset with
                  | some .site | some .both => .both
                  | some .screen | none => .screen) } } : State).answered
          0x29 tag .ok [])
        ∧ h.ctl n = { ShowCtl.reset with
            rehearsal := (s.house.ctl n).rehearsal, autoAnswer := (s.house.ctl n).autoAnswer
            stallMark := (s.house.ctl n).stallMark }
        ∧ h.line n = { s.house.line n with
            unit := .quiet, waitingPlace := none, sendingLines := (s.house.line n).sendingLines.take 1
            autoDue := none, fault := none }
        ∧ h.gain n = s.house.gain n ∧ (h.lot n).admission = h.admissionOf n ∧ h.showKept n s.house
        ∧ (s.house.phase n = .dark ∨ s.house.nobodyExpires n →
            h.clips = (s.house.dropRefs ((((s.house.ctl n).running.map s.house.startClips).getD [])
              ++ (((s.house.ctl n).waiting.map s.house.startClips).getD []))).clips)
        ∧ (s.house.phase n = .dark → h.queues = s.house.queues ∧ h.players = s.house.players
            ∧ h.orders = s.house.orders)
        ∧ (s.house.nobodyExpires n → (s.house.player n).state = .playing ∨ (s.house.player n).state = .gap →
            h.queues = s.house.queues ∧ h.players = s.house.players)

/-! ### Cue lines -/

/-- CUE LINE SET, FAULT CLEAR and PROJECTOR PASS (R32, R43, R44): settings in range are taken and the record is emptied,
nothing else changing; a pass on a QUIET line of a screen that is not SHOWING begins its exchange with the settings'
retries, and its reply gives the sequence number; otherwise BUSY. -/
def Obligations.CueLineRequests : Prop :=
  ∀ (tag screen : Nat) (s : State) (n : Screen), s.accepting → screenOfCode screen = some n →
    (∀ timeout retries,
      (100 ≤ timeout ∧ timeout ≤ 2000 ∧ retries ≤ 3 → exec (.cueLineSet tag screen timeout retries) s = .next
        (s.replied (s.taken.house.onLine n fun l => { l with answerTimeout := timeout, retries := retries })
          0x2B tag []))
      ∧ (timeout < 100 ∨ 2000 < timeout ∨ 3 < retries → exec (.cueLineSet tag screen timeout retries) s =
          .next (s.turnedDown 0x2B tag .badValue [])))
    ∧ exec (.faultClear tag screen) s = .next
        (s.replied (s.taken.house.onLine n fun l => { l with fault := none }) 0x2D tag [])
    ∧ ∀ verb content quiet,
        (passRequest verb content quiet = none →
          exec (.projectorPass tag screen verb content quiet) s = .next (s.turnedDown 0x2E tag .badValue []))
        ∧ ∀ r, passRequest verb content quiet = some r →
          (((s.house.ctl n).state = .showing ∨ (s.house.line n).unit ≠ .quiet) →
            exec (.projectorPass tag screen verb content quiet) s = .next (s.turnedDown 0x2E tag .busy []))
          ∧ ((s.house.ctl n).state ≠ .showing → (s.house.line n).unit = .quiet → ∃ h x,
            exec (.projectorPass tag screen verb content quiet) s =
                .next (s.replied h 0x2E tag [u8 (s.house.line n).seq])
              ∧ h = { s.taken.house with lines := h.lines } ∧ h.othersKept n s.house
              ∧ x = { pass := true, quiet := decide (quiet = 1), verb := r.verb, content := r.content,
                      firstSeq := (s.house.line n).seq, seq := (s.house.line n).seq, used := 1,
                      allowed := (s.house.line n).retries + 1, timeout := (s.house.line n).answerTimeout }
              ∧ (h.line n).seq = ((s.house.line n).seq + 1) % 16
              ∧ ((s.house.ctl n).rehearsal = false → (h.line n).unit = .sending x
                  ∧ (h.line n).sendingLines = (s.house.line n).sendingLines
                      ++ [{ verb := r.verb, content := r.content, seq := (s.house.line n).seq }])
              ∧ ((s.house.ctl n).rehearsal = true → (h.line n).unit = .await x x.timeout
                  ∧ (h.line n).sendingLines = (s.house.line n).sendingLines))

/-- The attempts of an exchange (R34 to R36, R38): the end of its own verb line starts the answer timer; a line of an
abandoned attempt only gives way to the next line; an answer timeout with an attempt left starts the 300 ms retry
interval, whose end makes the next attempt under the next sequence number. With no attempt left the exchange fails: the
fault record takes it (R42), a PROJECTOR PASS reports NO_ANSWER and, unless quiet, a SCREEN_FAULT (R45), and the show of a
SHOWING screen stops with CUE_NO_ANSWER (R17, R18, R37); the single H of STOPPING has then ended with that fault (R17 to
R19). Codes and layouts are those of log entries 11 and 12. -/
def Obligations.AttemptsMoveOn : Prop :=
  ∀ (s : State) (n : Screen) (x : Exchange),
    (∀ v, (s.house.line n).unit = .sending x → (s.house.line n).sendingLines = [v] →
      exec (.verbLineSent n) s = .next (s.withHouse (s.house.onLine n fun l =>
        { l with sendingLines := [], unit := .await x x.timeout })))
    ∧ (∀ v w rest, (s.house.line n).unit = .sending x → (s.house.line n).sendingLines = v :: w :: rest →
      exec (.verbLineSent n) s = .next (s.withHouse (s.house.onLine n fun l => { l with sendingLines := w :: rest })))
    ∧ (∀ left, (s.house.line n).unit = .await x left → x.used < x.allowed →
      exec (.answerTimeout n) s = .next (s.withHouse (s.house.onLine n fun l => { l with unit := .backoff x 300 })))
    ∧ (∀ left, (s.house.line n).unit = .backoff x left → (s.house.ctl n).rehearsal = false →
      exec (.backoffEnd n) s = .next (s.withHouse (s.house.onLine n fun l =>
        { l with
          seq := (l.seq + 1) % 16
          unit := .sending { x with seq := l.seq, used := x.used + 1 }
          sendingLines := l.sendingLines ++ [{ verb := x.verb, content := x.content, seq := l.seq }] })))
    ∧ (∀ left, (s.house.line n).unit = .await x left → x.allowed ≤ x.used → (s.house.line n).waitingPlace = none →
        x.pass = true →
        let h0 := (s.house.onLine n fun l =>
          { l with unit := .quiet, fault := LineFault.after l.fault x none .noAnswer s.house.clock }).notify .passResult
            [u8 (screenCode n), u8 x.verb.code, u16 (if x.verb = .l then x.content else 0), u8 x.firstSeq, u8 x.used, u8 3]
        (x.quiet = true → exec (.answerTimeout n) s = .next (s.withHouse h0))
        ∧ (x.quiet = false → exec (.answerTimeout n) s = .next (s.withHouse (h0.notify .screenFault
            ([u8 (screenCode n), u8 Cause.cueNoAnswer.code, u16 0] ++ uOpt 1 none)))))
    ∧ (∀ left, (s.house.line n).unit = .await x left → x.allowed ≤ x.used → x.pass = false →
        (s.house.ctl n).state = .showing → ∃ h, exec (.answerTimeout n) s = .next (s.withHouse h)
          ∧ House.stoppedBy n .cueNoAnswer s.house h
          ∧ (h.line n).fault = LineFault.after (s.house.line n).fault x (s.house.ctl n).record.current .noAnswer
              s.house.clock)
    ∧ (∀ left, (s.house.line n).unit = .await x left → x.allowed ≤ x.used → x.pass = false →
        (s.house.ctl n).state = .stopping → (s.house.line n).waitingPlace = none → ∃ h,
        exec (.answerTimeout n) s = .next (s.withHouse h) ∧ House.haltEnded n (some .cueNoAnswer) s.house h
          ∧ (h.line n).fault = LineFault.after (s.house.line n).fault x (s.house.ctl n).record.current .noAnswer
              s.house.clock)

/-- What a line from the projector does (R31, R35, R37, R39 to R42, R45): in AWAIT, W with an attempt left starts the
retry interval, and a line with another number is ignored; D and N end a PROJECTOR PASS of any verb with its result, an H
or G setting or clearing picture halted, N filling the fault record; N to a SHOWING screen's show exchange stops the show
with CUE_REFUSED; D to a show's L in a PLAY brings its G, D to that G starts frame counting, and D to the H after the last
entry completes the show, one that waits being promoted (R15, R16). D and N to the single H of STOPPING end it (R17 to
R19). A garbled line ends the attempt: the retry interval with an attempt left, else the exchange fails as GARBLED_LAST
(R35, R42). An ENDED report of the running content before its length is EARLY_END: it stops the
show under STOP_ON_FAULT, and ends the entry under RUN_THROUGH. Codes are those of log entry 11. -/
def Obligations.AnswersEndAttempts : Prop :=
  ∀ (s : State) (n : Screen), (s.house.ctl n).rehearsal = false → (s.house.line n).rx = .blank →
    (∀ (x : Exchange) (left : Nat), (s.house.line n).unit = .await x left → x.seq < 16 →
      (x.used < x.allowed → exec (.cueLineReceived n (answerLine 0x57 x.seq)) s =
        .next (s.withHouse (s.house.onLine n fun l => { l with unit := .backoff x 300 })))
      ∧ (∀ letter q, letter = 0x44 ∨ letter = 0x4E ∨ letter = 0x57 → q < 16 → q ≠ x.seq →
          exec (.cueLineReceived n (answerLine letter q)) s = .next s)
      ∧ (x.pass = true → (s.house.line n).waitingPlace = none →
          exec (.cueLineReceived n (answerLine 0x44 x.seq)) s = .next (s.withHouse
            (((s.house.onLine n fun l => { l with unit := .quiet }).onCtl n fun c =>
              { c with halted := match x.verb with
                | .h => true
                | .g => false
                | .l | .q => c.halted }).notify .passResult [u8 (screenCode n), u8 x.verb.code, u16 (if x.verb = .l then x.content else 0), u8 x.firstSeq, u8 x.used, u8 1]))
          ∧ (let h0 := (s.house.onLine n fun l =>
              { l with unit := .quiet, fault := LineFault.after l.fault x none .refused s.house.clock }).notify
                .passResult [u8 (screenCode n), u8 x.verb.code, u16 (if x.verb = .l then x.content else 0), u8 x.firstSeq, u8 x.used, u8 2]
            (x.quiet = true → exec (.cueLineReceived n (answerLine 0x4E x.seq)) s = .next (s.withHouse h0))
            ∧ (x.quiet = false → exec (.cueLineReceived n (answerLine 0x4E x.seq)) s = .next (s.withHouse
                (h0.notify .screenFault ([u8 (screenCode n), u8 Cause.cueRefused.code, u16 0] ++ uOpt 1 none))))))
      ∧ (x.pass = false → (s.house.ctl n).state = .showing → ∃ h,
          exec (.cueLineReceived n (answerLine 0x4E x.seq)) s = .next (s.withHouse h)
            ∧ House.stoppedBy n .cueRefused s.house h
            ∧ (h.line n).fault = LineFault.after (s.house.line n).fault x (s.house.ctl n).record.current .refused
                s.house.clock)
      ∧ (x.pass = false → (s.house.ctl n).state = .showing → (s.house.line n).waitingPlace = none →
          (x.verb = .l → (s.house.entry n).kind = .play → (s.house.ctl n).finalHalt = false → ∃ h y,
            exec (.cueLineReceived n (answerLine 0x44 x.seq)) s = .next (s.withHouse h)
              ∧ (h.line n).unit = .sending y ∧ y.verb = .g ∧ y.pass = false
              ∧ y.allowed = (s.house.line n).retries + 1 ∧ h = { s.house with lines := h.lines }
              ∧ h.othersKept n s.house)
          ∧ (x.verb = .g → (s.house.entry n).kind = .play → (s.house.ctl n).finalHalt = false →
              exec (.cueLineReceived n (answerLine 0x44 x.seq)) s = .next (s.withHouse
                ((s.house.onLine n fun l => { l with unit := .quiet }).onCtl n fun c =>
                  { c with halted := false, counting := .pulses, stallTimer := some 400, timebase := 0 })))
          ∧ (x.verb = .h → (s.house.ctl n).finalHalt = true → (s.house.ctl n).waiting = none → ∃ h,
              exec (.cueLineReceived n (answerLine 0x44 x.seq)) s = .next (s.withHouse h)
                ∧ (h.ctl n).state = .idle ∧ (h.ctl n).running = none ∧ (h.ctl n).halted = true
                ∧ (h.line n).unit = .quiet ∧ h.showKept n s.house
                ∧ (h.ctl n).record.outcome =
                    if (s.house.ctl n).record.faults = 0 then .complete else .completeWithFaults)
          ∧ (∀ next, x.verb = .h → (s.house.ctl n).finalHalt = true → (s.house.ctl n).waiting = some next → ∃ h,
              exec (.cueLineReceived n (answerLine 0x44 x.seq)) s = .next (s.withHouse h)
                ∧ House.promoted n next s.house h ∧ (h.ctl n).halted = true ∧ h.showKept n s.house))
      ∧ (x.pass = false → x.verb = .h → (s.house.ctl n).state = .stopping → (s.house.line n).waitingPlace = none →
          (∃ h, exec (.cueLineReceived n (answerLine 0x44 x.seq)) s = .next (s.withHouse h)
            ∧ House.haltEnded n none s.house h)
          ∧ ∃ h, exec (.cueLineReceived n (answerLine 0x4E x.seq)) s = .next (s.withHouse h)
            ∧ House.haltEnded n (some .cueRefused) s.house h))
    ∧ (∀ (x : Exchange) (left : Nat) (line : List CueChar), (s.house.line n).unit = .await x left → garbledLine line →
      (x.used < x.allowed → exec (.cueLineReceived n line) s =
        .next (s.withHouse (s.house.onLine n fun l => { l with unit := .backoff x 300 })))
      ∧ (x.allowed ≤ x.used → (s.house.line n).waitingPlace = none →
          (x.pass = true →
            let h0 := (s.house.onLine n fun l =>
              { l with unit := .quiet, fault := LineFault.after l.fault x none .garbledLast s.house.clock }).notify
                .passResult [u8 (screenCode n), u8 x.verb.code, u16 (if x.verb = .l then x.content else 0), u8 x.firstSeq, u8 x.used, u8 4]
            (x.quiet = true → exec (.cueLineReceived n line) s = .next (s.withHouse h0))
            ∧ (x.quiet = false → exec (.cueLineReceived n line) s = .next (s.withHouse
                (h0.notify .screenFault ([u8 (screenCode n), u8 Cause.cueNoAnswer.code, u16 0] ++ uOpt 1 none)))))
          ∧ (x.pass = false → (s.house.ctl n).state = .showing ∨ (s.house.ctl n).state = .stopping → ∃ h,
            exec (.cueLineReceived n line) s = .next (s.withHouse h)
              ∧ ((s.house.ctl n).state = .showing → House.stoppedBy n .cueNoAnswer s.house h)
              ∧ ((s.house.ctl n).state = .stopping → House.haltEnded n (some .cueNoAnswer) s.house h)
              ∧ (h.line n).fault = LineFault.after (s.house.line n).fault x (s.house.ctl n).record.current
                  .garbledLast s.house.clock)))
    ∧ ∀ (d : ShowDesc) (i : Nat), s.house.inEntry n .play d i → (s.house.ctl n).counting ≠ .off →
        (s.house.cue i).content < 65536 → (s.house.ctl n).record.progress < (s.house.cue i).length →
        ∃ h, exec (.cueLineReceived n (endedLine (s.house.cue i).content)) s = .next (s.withHouse h)
          ∧ h.showKept n s.house
          ∧ (d.policy = .stopOnFault → House.stoppedBy n .earlyEnd s.house h)
          ∧ (d.policy = .runThrough → House.entryEnded n d i (s.house.faulted n .earlyEnd) h)

/-! ### The programme mix -/

/-- The arithmetic of R54 with the saturation of R55: the total is the output sample times 32,768 plus a residue from 0
to 32,767, or the output saturates and the residue is 0; totals stay below 2^40; and over a run of samples without
saturation the outputs carry exactly what went in. -/
def Obligations.MixCarriesItsResidue : Prop :=
  (∀ (p a r : Int) (gp ga : Nat), ∃ m, mixSample p gp a ga r = m
    ∧ (-8388608 * 32768 ≤ p * gp + a * ga + r → p * gp + a * ga + r < 8388608 * 32768 →
        m.out * 32768 + m.residue = p * gp + a * ga + r ∧ 0 ≤ m.residue ∧ m.residue ≤ 32767 ∧ m.saturated = false)
    ∧ (8388608 * 32768 ≤ p * gp + a * ga + r → m = { out := 8388607, residue := 0, saturated := true })
    ∧ (p * gp + a * ga + r < -8388608 * 32768 → m = { out := -8388608, residue := 0, saturated := true })
    ∧ (p.natAbs ≤ 8388608 → a.natAbs ≤ 8388608 → gp ≤ 32768 → ga ≤ 32768 → 0 ≤ r → r ≤ 32767 →
        (p * gp + a * ga + r).natAbs < 2 ^ 40))
  ∧ ∀ (gp ga : Nat) (r : Int) (xs : List (Int × Int)), (∀ m ∈ mixRun gp ga r xs, m.saturated = false) →
      ((mixRun gp ga r xs).map Mixed.out).sum * 32768 + ((mixRun gp ga r xs).getLast?.map Mixed.residue).getD r
        = (xs.map fun x => x.1 * (gp : Int) + x.2 * (ga : Int)).sum + r

/-- SAMPLE_FRAME on every channel pair (R47, R50, R53 to R55, R64): the frame received joins the block coming in, the
oldest of a whole block enters the delay line, and the mix of its delayed frame with the player's clip sample joins
the block going out, each residue carried on; MON carries the selected screen's output. Nothing outside the channel
pairs, MON and the house changes; the peaks of the block rise to the largest magnitude of its programme and output
samples (R59), and of the house neither settings, clock nor gains. Each player advances by a frame: at its clip's end
it goes on to its next clip behind the inter-clip gap, or its announcement departs as played or removed, with its
notice, its references and the report to its order, and a player that finds nothing eligible releases (R83, R88, R89,
R150), the players one after another (log entry 35). With a gap of 0 the next clip starts at once (log entry 36), and
a SITE RESET leaves a clip to the end of the block (log entry 31). The layout of the notice is log entry 12. -/
def Obligations.SampleFrameMixes : Prop :=
  (∀ (h : House) (n : Screen) (x : Ann), (h.player n).state = .playing → h.heldAnn n = some x →
    let length := (h.clip (x.clips.getD (x.position - 1) 0)).length
    ((h.player n).sample + 1 < length →
      h.advancePlayer n = h.onPlayer n fun p => { p with sample := p.sample + 1 })
    ∧ (length ≤ (h.player n).sample + 1 → x.removed = false → 1 ≤ x.position →
        x.position < x.clips.length → h.suspends n x = false →
        h.nobodyExpires n → ∃ g, h.advancePlayer n = g ∧ g = { h with queues := g.queues, players := g.players }
          ∧ g.queue n = (h.queue n).map (fun b => if b.id = x.id then { b with position := b.position + 1 } else b)
          ∧ (∀ m, m ≠ n → g.queue m = h.queue m ∧ g.player m = h.player m)
          ∧ (g.player n).held = some x.id
          ∧ (0 < h.gap → (g.player n).state = .gap ∧ (g.player n).gapLeft = h.gap * 48)
          ∧ (h.gap = 0 → (g.player n).state = .playing ∧ (g.player n).sample = 0))
    ∧ (length ≤ (h.player n).sample + 1 → x.removed = true ∨ x.clips.length ≤ x.position →
        (∀ o ∈ h.orders, o.screen = n → o.callWaiting = false) → h.nobodyExpires n →
        (∀ b ∈ h.queue n, b.id ≠ x.id → h.eligible n b = false) → ∃ g, h.advancePlayer n = g
          ∧ g.queue n = (h.queue n).filter (fun b => b.id ≠ x.id) ∧ (g.player n).state = .release
          ∧ (g.player n).held = none ∧ (∀ m, m ≠ n → g.queue m = h.queue m ∧ g.player m = h.player m)
          ∧ g.clips = (h.dropRefs x.clips).clips
          ∧ g.out = h.out.push
              { kind := .announceDone, time := h.clock,
                fields := [u8 (screenCode n), u16 x.id, u8 x.cls.code, u8 x.origin.code, u16 x.origin.number]
                  ++ (if x.removed then [u8 2] ++ uOpt 1 none else [u8 1] ++ uOpt 1 (some x.clips.length)) }
          ∧ g.orders = h.orders.map (fun o =>
              if o.call = some x.id then
                { o with
                  call := none, made := o.made + 1, remaining := o.remaining - 1
                  due := if o.remaining - 1 = 0 then none else some (h.orderPolicy.interval * 1000) }
              else o)))
  ∧ ∀ (a b c d : StereoFrame) (s : State), ∃ t, exec (.sampleFrame a b c d) s = .next t
    ∧ t.house = allScreens.foldl (fun h n => h.advancePlayer n) s.house
    ∧ t = { s with house := t.house, channels := t.channels, mon := t.mon } ∧ t.house.salesKept s.house
    ∧ (t.mon = match s.monitor with
        | some n => (t.channel n).fmx
        | none => .zero)
    ∧ ∀ n : Screen,
      let x := s.channel n
      let y := t.channel n
      let whole : Bool := x.inFrames.length = 48
      let f : StereoFrame := if whole then x.inFrames.headD .zero else .zero
      let p : StereoFrame := if s.units = 0 then f else (y.line).getD x.settings.delay .zero
      let clip : Int := (s.clipSample n).getD 0 * 256
      let ga : Nat := if s.clipSample n = none then 0 else x.level
      let l := mixSample p.left (s.house.gain n).gp clip ga x.residueL
      let r := mixSample p.right (s.house.gain n).gp clip ga x.residueR
      y.line = (f :: x.line).take (s.units * 2048)
        ∧ y.inFrames = (if whole then x.inFrames.drop 1 else x.inFrames) ++ [tget #v[a, b, c, d] n]
        ∧ y.outFrames = (if x.outFrames.length = 48 then x.outFrames.drop 1 else x.outFrames)
            ++ [{ left := l.out, right := r.out }]
        ∧ y.fmx = (if x.outFrames.length = 48 then x.outFrames.headD .zero else .zero)
        ∧ y.residueL = l.residue ∧ y.residueR = r.residue
        ∧ y.peakIn = max x.peakIn (max p.left.natAbs p.right.natAbs)
        ∧ y.peakOut = max x.peakOut (max l.out.natAbs r.out.natAbs)
        ∧ y.clips = x.clips + (if l.saturated then 1 else 0) + (if r.saturated then 1 else 0)
        ∧ y.settings = x.settings ∧ y.target = x.target ∧ y.level = x.level ∧ y.staged = x.staged
        ∧ y.tail = x.tail.bind ClipTail.next

/-- BLOCK_START (R48, R51, R56, R57, R65, R66): what is staged comes into force, counts begin afresh, a fading
screen's target is 0 by the fade step, that of a screen whose player is DUCKING, PLAYING or GAP the phase's duck gain
by the duck step, and any other's unity by the release step, and every gain moves toward its target by at most the
step. The level of the class of the announcement that the player holds is latched (R53). Then the reports of R58: at
or below the duck gain a DUCKING player plays (R87), at its target a RELEASE player goes IDLE (R90), and at 0 a
STOPPING show whose single H has ended becomes HELD, or IDLE after an abort (R19). A staged SCREEN RESET empties the
queue and the player (R91). Gains and players are told of an order table that is within the bounds of R138 and R140,
which every step keeps. That the last block's clip count goes to 0 with a reset is the model's (log entry 34). -/
def Obligations.BlockStartMovesGains : Prop :=
  ∀ s : State, ∃ t, exec .blockStart s = .next t
    ∧ t.units = s.latestUnits ∧ t.stagedUnits = none ∧ t.monitor = s.stagedMonitor.getD s.monitor
    ∧ t.stagedMonitor = none ∧ t.dram = s.dram ∧ t.link = s.link ∧ t.lanes = s.lanes ∧ t.exits = s.exits
    ∧ t.present = s.present ∧ t.mon = s.mon ∧ t.pending = s.pending ∧ t.house.settingsKept s.house
    ∧ ∀ n : Screen,
      let x := s.channel n
      let y := t.channel n
      let g : Nat := if x.stagedReset.isSome then 32768 else (s.house.gain n).gp
      y.settings = x.latest ∧ y.staged = none ∧ y.stagedReset = none ∧ y.stagedZero = false
        ∧ y.clips = 0 ∧ y.peakIn = 0 ∧ y.peakOut = 0
        ∧ y.tail = none
        ∧ (x.stagedReset.isSome = true → y.residueL = 0 ∧ y.residueR = 0 ∧ y.line = [] ∧ y.summary = false
            ∧ y.silent = false ∧ y.hot = false ∧ y.clipped = false ∧ y.lastClips = 0
            ∧ (t.house.gain n).silenceRun = 0)
        ∧ (x.stagedReset = none → x.stagedZero = false → y.line = x.line ∧ y.residueL = x.residueL
            ∧ y.residueR = x.residueR)
        ∧ (s.house.ordersFine →
          (x.stagedReset = some .screen ∨ x.stagedReset = some .both →
            t.house.queue n = [] ∧ t.house.player n = .quiet)
          ∧ ∃ step : Nat,
            (if s.house.fade n then y.target = 0 ∧ step = y.settings.fade
              else if (s.house.player n).state.ducked ∧ x.stagedReset ≠ some .screen ∧ x.stagedReset ≠ some .both then
                y.target = (s.house.row n).duck ∧ step = y.settings.duck
              else y.target = 32768 ∧ step = y.settings.release)
            ∧ (if g ≤ y.target + step ∧ y.target ≤ g + step then (t.house.gain n).gp = y.target
              else if y.target < g then (t.house.gain n).gp = g - step else (t.house.gain n).gp = g + step)
            ∧ (∀ a, s.house.heldAnn n = some a → x.stagedReset ≠ some .screen → x.stagedReset ≠ some .both →
                y.level = (s.house.classRow a.cls).level)
            ∧ ((s.house.player n).state = .ducking → x.stagedReset ≠ some .screen → x.stagedReset ≠ some .both →
                (t.house.gain n).gp ≤ (s.house.row n).duck →
                (t.house.player n).state = .playing ∧ (t.house.player n).sample = 0)
            ∧ ((s.house.player n).state = .release → s.house.firstEligible n = none → s.house.nobodyExpires n →
                (s.house.ctl n).state ≠ .stopping → (t.house.gain n).gp = y.target → t.house.player n = .quiet)
            ∧ ((s.house.ctl n).state = .stopping → (s.house.ctl n).stopHaltEnded = true → (t.house.gain n).gp = 0 →
                (t.house.ctl n).state = if (s.house.ctl n).stopAbort then .idle else .held))

/-- BLOCK_END (R59 to R61): the three flags and the clip count from this block alone, the clip summary kept or set, and
the silence run of a screen SHOWING a PLAY tagged FEATURE, 0 in every other case. Settings, the clock and programme
gains stay. The screens come one after another (log entry 35): a summary that becomes set sends LEVEL_ALERT with CLIPPED
(R60); a run that reaches its limit is reported once, with LEVEL_ALERT PROGRAMME_SILENT after the fault of the Show
Controller, which raises one fault in an entry (R17, R18, R62). Codes and layouts are those of log entries 11 and 12; that
a threshold of 8,388,608 makes every block SILENT, one with a sample of −8,388,608 too, is log entry 41. -/
def Obligations.BlockEndJudgesBlock : Prop :=
  (∀ (u : State) (n : Screen),
    let c := u.channel n
    let listening : Prop := (u.house.ctl n).state = .showing ∧ (u.house.entry n).kind = .play
      ∧ (u.house.entry n).tag = .feature ∧ (c.peakIn < c.settings.silence ∨ 8388608 ≤ c.settings.silence)
    let run := bumpTo 60000 (u.house.gain n).silenceRun
    let told : Outbox := if 0 < c.clips ∧ c.summary = false then u.house.out.push
        { kind := .levelAlert, time := u.house.clock, fields := [u8 (screenCode n), u8 1, u8 c.clips] }
      else u.house.out
    let alert : Notice :=
      { kind := .levelAlert, time := u.house.clock
        fields := [u8 (screenCode n), u8 2, u8 ((u.house.ctl n).record.current.getD 0)] }
    (¬ listening → (u.endScreen n).house =
      { u.house.onGain n fun g => { g with silenceRun := 0, reported := false } with out := told })
    ∧ (listening → run < c.settings.limit * 1000 ∨ (u.house.gain n).reported = true →
        (u.endScreen n).house = { u.house.onGain n fun g => { g with silenceRun := run } with out := told })
    ∧ (listening → c.settings.limit * 1000 ≤ run → (u.house.gain n).reported = false → ∃ h o,
        (u.endScreen n).house = h ∧ h.out = o.push alert
          ∧ h.gain n = { u.house.gain n with silenceRun := run, reported := true }
          ∧ ((u.house.ctl n).silentRaised = true → o = told ∧ h.ctl n = u.house.ctl n)
          ∧ ∀ d, (u.house.ctl n).silentRaised = false → (u.house.ctl n).running = some d →
              (d.policy = .stopOnFault → (h.ctl n).state = .stopping ∧ (h.ctl n).record.outcome = .stopped
                ∧ (h.ctl n).record.faults = bumpTo 255 (u.house.ctl n).record.faults)
              ∧ (d.policy = .runThrough →
                  h.ctl n = { (u.house.faulted n .programmeSilent).ctl n with silentRaised := true }
                  ∧ o = told.push
                    { kind := .screenFault, time := u.house.clock
                      fields := [u8 (screenCode n), u16 (u.house.ctl n).record.showId, u8 Cause.programmeSilent.code]
                        ++ uOpt 1 (u.house.ctl n).record.current })))
  ∧ ∀ s : State, ∃ t, exec .blockEnd s = .next t ∧ t = allScreens.foldl State.endScreen s
    ∧ t = { s with house := t.house, channels := t.channels } ∧ t.house.settingsKept s.house
    ∧ t.house.clock = s.house.clock
    ∧ ∀ n : Screen, t.channel n = { s.channel n with
          silent := decide ((s.channel n).peakIn < (s.channel n).settings.silence
            ∨ 8388608 ≤ (s.channel n).settings.silence)
          hot := (s.channel n).settings.hot ≤ (s.channel n).peakOut
          clipped := 0 < (s.channel n).clips
          lastClips := (s.channel n).clips
          summary := (s.channel n).summary || decide (0 < (s.channel n).clips) }
        ∧ (t.house.gain n).gp = (s.house.gain n).gp
        ∧ (t.house.gain n).silenceRun =
            if (s.house.ctl n).state = .showing ∧ (s.house.entry n).kind = .play ∧ (s.house.entry n).tag = .feature
                ∧ ((s.channel n).peakIn < (s.channel n).settings.silence ∨ 8388608 ≤ (s.channel n).settings.silence) then
              bumpTo 60000 (s.house.gain n).silenceRun
            else 0

/-- MIX SET, PARTITION SET, LEVEL READ and MONITOR SELECT (R51, R52, R63, R65): accepted settings and selections are
staged for the next block start, with the delay clamped to the partition; a PARTITION SET of the units there are changes
nothing; each refusal in its order. That the units there are are those last accepted, in force or still staged, is log
entry 38; that MIX SET compares and PARTITION SET clamps the delay last staged is log entry 16,
and 0 for OFF log entry 12. -/
def Obligations.MixRequestsStage : Prop :=
  ∀ (tag : Nat) (s : State), s.accepting →
    (∀ (screen : Nat) (n : Screen) (m : MixSettings), screenOfCode screen = some n →
      let taken : MixSettings := { m with delay := min m.delay (s.latestUnits * 2048 - 1) }
      (m.inRange = false →
        exec (.mixSet tag screen m.delay m.fade m.duck m.release m.silence m.hot m.limit) s =
          .next (s.turnedDown 0x30 tag .badValue []))
      ∧ (m.inRange = true → taken.delay ≠ (s.channel n).latest.delay →
          ((s.house.ctl n).state = .showing ∨ (s.house.ctl n).state = .stopping) →
          exec (.mixSet tag screen m.delay m.fade m.duck m.release m.silence m.hot m.limit) s =
            .next (s.turnedDown 0x30 tag .badState []))
      ∧ (m.inRange = true → (taken.delay = (s.channel n).latest.delay
            ∨ ((s.house.ctl n).state ≠ .showing ∧ (s.house.ctl n).state ≠ .stopping)) →
          exec (.mixSet tag screen m.delay m.fade m.duck m.release m.silence m.hot m.limit) s = .next
            (State.answered 0x30 tag .ok [u24 taken.delay]
              { s.taken with channels := tmod s.channels n fun c => { c with staged := some taken } })))
    ∧ (∀ units : Nat,
        (64 < units → exec (.partitionSet tag units) s = .next (s.turnedDown 0x31 tag .badValue []))
        ∧ (units ≤ 64 → (∃ n, (s.house.ctl n).state ≠ .idle) →
            exec (.partitionSet tag units) s = .next (s.turnedDown 0x31 tag .badState []))
        ∧ (units ≤ 64 → (∀ n, (s.house.ctl n).state = .idle) →
            ((∃ p ∈ s.house.heldPages, 16 * s.latestUnits ≤ p ∧ p < 16 * units) →
              exec (.partitionSet tag units) s = .next (s.turnedDown 0x31 tag .inUse []))
            ∧ (units = s.latestUnits → exec (.partitionSet tag units) s = .next
                (s.taken.answered 0x31 tag .ok ([u24 (units * 2048), u16 (8192 - 16 * units)] ++ allScreens.map fun n =>
                  u24 (s.channel n).latest.delay)))
            ∧ ((∀ p ∈ s.house.heldPages, ¬ (16 * s.latestUnits ≤ p ∧ p < 16 * units)) → units ≠ s.latestUnits →
              exec (.partitionSet tag units) s = .next
                (State.answered 0x31 tag .ok
                  ([u24 (units * 2048), u16 (8192 - 16 * units)] ++ allScreens.map fun n =>
                    u24 (min (s.channel n).latest.delay (units * 2048 - 1)))
                  { s.taken with
                    stagedUnits := some units, channels := s.channels.map (Channel.repartition units) }))))
    ∧ (∀ (screen : Nat) (n : Screen), screenOfCode screen = some n →
        exec (.levelRead tag screen 0) s = .next (s.taken.answered 0x32 tag .ok (s.levelRead n))
        ∧ exec (.levelRead tag screen 1) s = .next
            { s.taken.answered 0x32 tag .ok (s.levelRead n) with
              channels := tmod s.channels n fun c => { c with summary := false } }
        ∧ exec (.monitorSelect tag screen) s = .next
            (State.answered 0x33 tag .ok [] { s.taken with stagedMonitor := some (some n) }))
    ∧ exec (.monitorSelect tag 0) s = .next (State.answered 0x33 tag .ok [] { s.taken with stagedMonitor := some none })
    ∧ ∀ selection, selection ≠ 0 → screenOfCode selection = none →
        exec (.monitorSelect tag selection) s = .next (s.turnedDown 0x33 tag .badValue [])

/-! ### Clips -/

/-- CLIP BEGIN takes the lowest free pages of the clip region for an EMPTY record, whose samples then count as never
written, and every other byte of the audio DRAM stays; CLIP END makes a LOADING record READY exactly when the CRC
matches, else BAD (R69, R71); an id that names no record and a length out of range are refused BAD_VALUE. Which pages are
free while a partition waits for its block start is the model's choice (log entry 15). -/
def Obligations.ClipBeginAndEnd : Prop :=
  ∀ (tag id : Nat) (s : State), s.accepting →
    (id = 0 ∨ 127 < id → (∀ length, exec (.clipBegin tag id length) s = .next (s.turnedDown 0x34 tag .badValue []))
      ∧ ∀ crc, exec (.clipEnd tag id crc) s = .next (s.turnedDown 0x36 tag .badValue []))
    ∧ (∀ length, length = 0 ∨ 4194304 < length →
        exec (.clipBegin tag id length) s = .next (s.turnedDown 0x34 tag .badValue []))
    ∧ (1 ≤ id → id ≤ 127 →
    (∀ length, 1 ≤ length → length ≤ 4194304 → (s.house.clip id).state = .empty →
      (s.freePages.length < ceilDiv length 2048 →
        exec (.clipBegin tag id length) s = .next (s.turnedDown 0x34 tag .full [u16 s.freePages.length]))
      ∧ (ceilDiv length 2048 ≤ s.freePages.length → ∃ pages m,
        exec (.clipBegin tag id length) s = .next (State.answered 0x34 tag .ok [u16 pages.length]
          { s.taken with
            house := s.taken.house.setClip id { state := .loading, length := length, pages := pages, refs := 0 }
            dram := m })
          ∧ pages = s.freePages.take (ceilDiv length 2048)
          ∧ ∀ a, readByte m a = if pages.contains (pageOf a) then 0 else readByte s.dram a))
    ∧ (∀ length, 1 ≤ length → length ≤ 4194304 → (s.house.clip id).state ≠ .empty →
        exec (.clipBegin tag id length) s = .next (s.turnedDown 0x34 tag .badState []))
    ∧ (∀ crc, (s.house.clip id).state = .loading →
        let computed := clipCrc s.dram (s.house.clip id).pages (s.house.clip id).length
        let verdict : ClipState := if computed = crc then .ready else .bad
        exec (.clipEnd tag id crc) s = .next (s.replied
          (s.taken.house.setClip id { s.house.clip id with state := verdict }) 0x36 tag
          [u8 verdict.code, u16 computed]))
    ∧ (∀ crc, (s.house.clip id).state = .empty →
        exec (.clipEnd tag id crc) s = .next (s.turnedDown 0x36 tag .notFound []))
    ∧ ∀ crc, (s.house.clip id).state = .ready ∨ (s.house.clip id).state = .bad →
        exec (.clipEnd tag id crc) s = .next (s.turnedDown 0x36 tag .badState []))

/-- CLIP DATA writes its samples at consecutive positions of a LOADING clip, high byte first, and nothing else (R70):
each sample reads back, and every byte of the audio DRAM outside the samples' bytes stays. -/
def Obligations.ClipDataWritesItsSamples : Prop :=
  ∀ (tag id offset : Nat) (samples : List Int) (s : State), s.accepting → 1 ≤ id → id ≤ 127 →
    samples ≠ [] → samples.length ≤ 112 →
    ((s.house.clip id).state = .empty →
      exec (.clipData tag id offset samples) s = .next (s.turnedDown 0x35 tag .notFound []))
    ∧ (((s.house.clip id).state = .ready ∨ (s.house.clip id).state = .bad) →
      exec (.clipData tag id offset samples) s = .next (s.turnedDown 0x35 tag .badState []))
    ∧ ((s.house.clip id).state = .loading → (s.house.clip id).length < offset + samples.length →
      exec (.clipData tag id offset samples) s = .next (s.turnedDown 0x35 tag .badValue []))
    ∧ ((s.house.clip id).state = .loading → offset + samples.length ≤ (s.house.clip id).length → ∃ m,
      exec (.clipData tag id offset samples) s = .next (State.answered 0x35 tag .ok [] { s.taken with dram := m })
        ∧ (∀ a, (∀ i < samples.length, a ≠ sampleAddress (s.house.clip id).pages (offset + i)
              ∧ a ≠ sampleAddress (s.house.clip id).pages (offset + i) + 1) → readByte m a = readByte s.dram a)
        ∧ (s.dram.wf = true → (s.house.clip id).pages.Nodup → (s.house.clip id).length ≤ (s.house.clip id).pages.length * 2048 →
            ∀ (i : Nat) (v : Int), samples[i]? = some v → -32768 ≤ v → v ≤ 32767 →
              readSample m (s.house.clip id).pages (offset + i) = v))

/-- CLIP FREE: an id outside 1 to 127 is refused BAD_VALUE, an EMPTY record NOT_FOUND, a referenced clip IN_USE with its
count; otherwise the record becomes EMPTY, in any state of its load, and later CLIP DATA and CLIP END for the id are
refused NOT_FOUND. -/
def Obligations.ClipFreeEmptiesRecord : Prop :=
  ∀ (tag id : Nat) (s : State), s.accepting →
    ((id = 0 ∨ 127 < id) → exec (.clipFree tag id) s = .next (s.turnedDown 0x37 tag .badValue []))
    ∧ (1 ≤ id → id ≤ 127 →
      ((s.house.clip id).state = .empty → exec (.clipFree tag id) s = .next (s.turnedDown 0x37 tag .notFound []))
      ∧ ((s.house.clip id).state ≠ .empty →
        (0 < (s.house.clip id).refs →
          exec (.clipFree tag id) s = .next (s.turnedDown 0x37 tag .inUse [u32 (s.house.clip id).refs]))
        ∧ ((s.house.clip id).refs = 0 → ∃ h,
          exec (.clipFree tag id) s = .next (s.replied h 0x37 tag [])
            ∧ h = { s.taken.house with clips := h.clips } ∧ h.clip id = .blank
            ∧ (∀ j, j ≠ id → h.clip j = s.house.clip j)
            ∧ (∀ p ∈ (s.house.clip id).pages, (∀ j, j ≠ id → p ∉ (s.house.clip j).pages) → p ∉ h.heldPages)
            ∧ ∀ (u : State) (tag2 offset crc : Nat) (samples : List Int), u.accepting → u.house.clip id = .blank →
                samples ≠ [] → samples.length ≤ 112 →
                exec (.clipData tag2 id offset samples) u = .next (u.turnedDown 0x35 tag2 .notFound [])
                ∧ exec (.clipEnd tag2 id crc) u = .next (u.turnedDown 0x36 tag2 .notFound []))))

/-! ### Announcements -/

/-- CALL CLIPS SET, CLASS SET and ROUTE SET (R73, R75, R77, R78): values in range replace what they name and nothing
else of the settings, the roles' references being taken and the old ones released; a value out of range and a code that
names no class are refused BAD_VALUE, and a role whose clip is not READY NOT_READY, the first such one named. The codes of
the roles are log entry 11. -/
def Obligations.SoundTablesSet : Prop :=
  ∀ (tag : Nat) (s : State), s.accepting →
    (∀ (preamble postamble : Nat) (digits : List Nat), digits.length = 10 →
      let cc : CallClips := { preamble := preamble, postamble := postamble, digits := digits }
      (∀ c ∈ cc.roles, 1 ≤ c ∧ c ≤ 127 ∧ (s.house.clip c).state = .ready) →
        exec (.callClipsSet tag preamble postamble digits) s = .next (s.replied
          { (s.taken.house.takeRefs cc.roles).dropRefs ((s.house.callClips.map CallClips.roles).getD []) with
            callClips := some cc } 0x39 tag []))
    ∧ (∀ (preamble postamble : Nat) (digits : List Nat), digits.length = 10 →
      let named : List (Nat × Nat) := (1, preamble) ::
        ((if postamble = 0 then [] else [(2, postamble)]) ++ List.zip (List.range' 3 10) digits)
      ((∃ r ∈ named, r.2 = 0 ∨ 127 < r.2) → exec (.callClipsSet tag preamble postamble digits) s =
        .next (s.turnedDown 0x39 tag .badValue []))
      ∧ ∀ before r after, (∀ q ∈ named, 1 ≤ q.2 ∧ q.2 ≤ 127) → named = before ++ r :: after →
          (∀ q ∈ before, (s.house.clip q.2).state = .ready) → (s.house.clip r.2).state ≠ .ready →
          exec (.callClipsSet tag preamble postamble digits) s = .next (s.turnedDown 0x39 tag .notReady [u8 r.1]))
    ∧ (∀ cls, AnnClass.ofCode cls = none →
      (∀ priority level maxWait, exec (.classSetRow tag cls priority level maxWait) s =
        .next (s.turnedDown 0x3A tag .badValue []))
      ∧ ∀ screens, exec (.routeSet tag cls screens) s = .next (s.turnedDown 0x3B tag .badValue []))
    ∧ exec (.callClipsUnconfigure tag) s = .next (s.replied
        { s.taken.house.dropRefs ((s.house.callClips.map CallClips.roles).getD []) with callClips := none } 0x39 tag [])
    ∧ (∀ (cls priority level maxWait : Nat) (c : AnnClass), AnnClass.ofCode cls = some c →
        ((if c = .safety then priority = 0 else 1 ≤ priority ∧ priority ≤ 7) ∧ level ≤ 32768 ∧ 10 ≤ maxWait
            ∧ maxWait ≤ 3600 → ∃ h,
          exec (.classSetRow tag cls priority level maxWait) s = .next (s.replied h 0x3A tag [])
            ∧ h.classRow c = { priority := priority, level := level, maxWait := maxWait }
            ∧ (∀ e, e ≠ c → h.classRow e = s.house.classRow e) ∧ h.gap = s.house.gap ∧ h.routes = s.house.routes
            ∧ h.shows = s.house.shows ∧ h.lines = s.house.lines ∧ h.gains = s.house.gains)
        ∧ ((if c = .safety then priority ≠ 0 else priority = 0 ∨ 7 < priority) ∨ 32768 < level ∨ maxWait < 10
            ∨ 3600 < maxWait →
          exec (.classSetRow tag cls priority level maxWait) s = .next (s.turnedDown 0x3A tag .badValue [])))
    ∧ (∀ gap, (gap ≤ 500 → exec (.classSetGap tag gap) s = .next (s.replied { s.taken.house with gap := gap } 0x3A tag []))
        ∧ (500 < gap → exec (.classSetGap tag gap) s = .next (s.turnedDown 0x3A tag .badValue [])))
    ∧ ∀ (cls screens : Nat) (c : AnnClass), AnnClass.ofCode cls = some c →
        (screens < 16 → exec (.routeSet tag cls screens) s = .next (s.replied
          { s.taken.house with
            routes := tset s.house.routes c.index (allScreens.filter fun n => screens.testBit n.val) } 0x3B tag []))
        ∧ (16 ≤ screens → exec (.routeSet tag cls screens) s = .next (s.turnedDown 0x3B tag .badValue []))

/-- ANNOUNCE to one screen (R76, R79, R80): a full queue with nothing less urgent to displace refuses FULL; with room the
announcement gets the next id, no id queued on the site, takes its clips' references (R73) and joins the queue after every
one of the same or a more urgent priority, a queue in order of priority staying so; nobody else's queue changes. At a full
queue a less urgent announcement, the last of the least urgent priority that the player does not hold, is displaced with its
notice (R81, R83; the notice's layout is log entry 12, the code of DISPLACED log entry 11). ANNOUNCE to ALL over an empty
route is refused NOT_FOUND; over any other it puts a copy of its own, with its own id and references, on each screen of the
route that has room, and answers OK if one was placed and FULL if none, with each screen's outcome (R79; the bytes of an
outcome are log entry 12). A value out of range is BAD_VALUE, and a clip not READY NOT_READY, the first such one named. -/
def Obligations.AnnounceQueues : Prop :=
  ∀ (tag screen cls : Nat) (clips : List Nat) (s : State), s.accepting →
    (AnnClass.ofCode cls = none ∨ (screen ≠ 0x0F ∧ screenOfCode screen = none) ∨ clips = [] ∨ 6 < clips.length
        ∨ (∃ x ∈ clips, x = 0 ∨ 127 < x) →
      exec (.announce tag screen cls clips) s = .next (s.turnedDown 0x3C tag .badValue []))
    ∧ ∀ c : AnnClass, AnnClass.ofCode cls = some c → screen = 0x0F ∨ (screenOfCode screen).isSome = true →
    clips ≠ [] → clips.length ≤ 6 → (∀ x ∈ clips, 1 ≤ x ∧ x ≤ 127) →
    (∀ before x after, clips = before ++ x :: after → (∀ y ∈ before, (s.house.clip y).state = .ready) →
      (s.house.clip x).state ≠ .ready →
      exec (.announce tag screen cls clips) s = .next (s.turnedDown 0x3C tag .notReady [u8 x]))
    ∧ ((∀ x ∈ clips, (s.house.clip x).state = .ready) →
    (screen = 0x0F → tget s.house.routes c.index = [] →
      exec (.announce tag screen cls clips) s = .next (s.turnedDown 0x3C tag .notFound []))
    ∧ (screen = 0x0F →
      let route := tget s.house.routes c.index
      let placed (n : Screen) : Bool := (s.house.queue n).length < 12
      route ≠ [] → route.Nodup → s.house.queuesFine → 0 < (s.house.classRow c).maxWait →
      (∀ n ∈ route, s.house.nobodyExpires n
        ∧ (placed n = true ∨ s.house.victim n (s.house.classRow c).priority = none)) → ∃ (h : House) (ids : Screen → Nat),
        let outcomes : List Field := u8 route.length :: route.flatMap fun n =>
          if placed n then [u8 (screenCode n), u8 Status.ok.code, u16 (ids n)]
          else [u8 (screenCode n), u8 Status.full.code, u16 0]
        (route.any placed = true →
            exec (.announce tag screen cls clips) s = .next (s.replied h 0x3C tag outcomes))
          ∧ (route.any placed = false →
            exec (.announce tag screen cls clips) s = .next (s.turnedDown 0x3C tag .full outcomes))
          ∧ (∀ n ∈ route, placed n = true →
            h.queue n = insertAnn
                { id := ids n, cls := c, priority := (s.house.classRow c).priority, clips := clips, origin := .manual,
                  enqueued := s.house.clock, wait := 0, position := 1, removed := false } (s.house.queue n)
              ∧ (∀ m, ∀ a ∈ s.house.queue m, a.id ≠ ids n)
              ∧ ∀ m ∈ route, placed m = true → m ≠ n → ids m ≠ ids n)
          ∧ (∀ n, ¬ (n ∈ route ∧ placed n = true) → h.queue n = s.house.queue n)
          ∧ h.clips = ((route.filter placed).foldl (fun g _ => g.takeRefs clips) s.house).clips
          ∧ h.orders = s.house.orders ∧ h.salesKept s.house)
    ∧ ∀ n, screenOfCode screen = some n →
      (12 ≤ (s.house.queue n).length → s.house.victim n (s.house.classRow c).priority = none →
        exec (.announce tag screen cls clips) s = .next (s.turnedDown 0x3C tag .full []))
      ∧ (s.house.queuesFine → (s.house.queue n).length < 12 → s.house.nobodyExpires n → 0 < (s.house.classRow c).maxWait → ∃ h id before after,
        exec (.announce tag screen cls clips) s = .next (s.replied h 0x3C tag [u16 id])
          ∧ id = s.house.freeAnnId ∧ (∀ m, ∀ a ∈ s.house.queue m, a.id ≠ id)
          ∧ h.clips = (s.house.takeRefs clips).clips
          ∧ s.house.queue n = before ++ after
          ∧ h.queue n = before ++
              { id := id, cls := c, priority := (s.house.classRow c).priority, clips := clips, origin := .manual,
                enqueued := s.house.clock, wait := 0, position := 1, removed := false } :: after
          ∧ (∀ a ∈ before, a.priority ≤ (s.house.classRow c).priority)
          ∧ (∀ a, after.head? = some a → (s.house.classRow c).priority < a.priority)
          ∧ ((s.house.queue n).Pairwise (fun a b => a.priority ≤ b.priority) →
              (h.queue n).Pairwise fun a b => a.priority ≤ b.priority)
          ∧ (∀ m, m ≠ n → h.queue m = s.house.queue m) ∧ h.orders = s.house.orders ∧ h.salesKept s.house)
      ∧ ∀ v, 12 ≤ (s.house.queue n).length → s.house.victim n (s.house.classRow c).priority = some v →
          s.house.nobodyExpires n → 0 < (s.house.classRow c).maxWait →
          (∀ o ∈ s.house.orders, o.call ≠ some v.id ∧ (o.screen = n → o.callWaiting = false)) → ∃ h id,
          exec (.announce tag screen cls clips) s = .next (s.replied h 0x3C tag [u16 id])
            ∧ v ∈ s.house.queue n ∧ (s.house.player n).held ≠ some v.id ∧ (s.house.classRow c).priority < v.priority
            ∧ (∀ b ∈ s.house.queue n, (s.house.player n).held ≠ some b.id → b.priority ≤ v.priority)
            ∧ id = (s.house.takeOut n v).freeAnnId
            ∧ h.queue n = insertAnn
                { id := id, cls := c, priority := (s.house.classRow c).priority, clips := clips, origin := .manual,
                  enqueued := s.house.clock, wait := 0, position := 1, removed := false }
                ((s.house.queue n).filter fun b => b.id ≠ v.id)
            ∧ h.clips = ((s.house.dropRefs v.clips).takeRefs clips).clips
            ∧ h.out = s.taken.house.out.push
                { kind := .announceDropped, time := s.house.clock,
                  fields := [u8 (screenCode n), u16 v.id, u8 v.cls.code, u8 v.origin.code, u16 v.origin.number, u8 2] }
            ∧ (∀ m, m ≠ n → h.queue m = s.house.queue m) ∧ h.orders = s.house.orders ∧ h.salesKept s.house)

/-- ANNOUNCE CANCEL and the end of the wait take an announcement that no clip plays from its queue, and mark the one
that plays for removal at its clip's end, as which a second request finds it no more (R82 to R85); after the departure
the call-waiting order that has waited longest is called (R152); a GAP ends with the next clip at its first sample
(R89). GAP_END outside GAP changes nothing (the model's choice, log entry 6). -/
def Obligations.AnnouncementsEnd : Prop :=
  ∀ (s : State) (n : Screen) (a : Ann),
    (s.house.findAnn a.id = some (n, a) → a.removed = false →
      (∀ tag, s.accepting → (s.house.player n).state = .playing → (s.house.player n).held = some a.id →
        exec (.announceCancel tag a.id) s = .next (s.replied
          (s.taken.house.onQueue n fun q => q.map fun b => if b.id = a.id then { b with removed := true } else b)
          0x3D tag [u8 0]))
      ∧ ((∀ o ∈ s.house.orders, o.screen = n → o.callWaiting = false) →
        (∀ tag, s.accepting → ((s.house.player n).state ≠ .playing ∨ (s.house.player n).held ≠ some a.id) → ∃ h,
          exec (.announceCancel tag a.id) s = .next (s.replied h 0x3D tag [u8 1])
            ∧ (∀ b ∈ h.queue n, b.id ≠ a.id) ∧ h.salesKept s.house)
        ∧ ((s.house.player n).held ≠ some a.id → ∃ h,
          exec (.announcementExpiry a.id) s = .next (s.withHouse h)
            ∧ (∀ b ∈ h.queue n, b.id ≠ a.id) ∧ h.salesKept s.house)))
    ∧ (∀ (o : Order) (cc : CallClips), s.house.findAnn a.id = some (n, a) → (s.house.player n).held ≠ some a.id →
        (∀ b ∈ s.house.queue n, b.id ≠ a.id → b.wait < (s.house.classRow b.cls).maxWait * 1000) →
        (s.house.queue n).length ≤ 12 → 0 < (s.house.classRow .orderCall).maxWait →
        s.house.oldestWaiting n = some o → s.house.order? o.number = some o → o.call = none →
        s.house.callClips = some cc → (∀ b ∈ s.house.queue n, b.origin ≠ .order o.number) → ∃ h id,
        exec (.announcementExpiry a.id) s = .next (s.withHouse h)
          ∧ (∃ b ∈ h.queue n, b.id = id ∧ b.cls = .orderCall ∧ b.origin = .order o.number
              ∧ b.clips = cc.compose o.number)
          ∧ h.order? o.number = some { o with call := some id, callWaiting := false } ∧ h.salesKept s.house)
    ∧ (s.house.findAnn a.id = some (n, a) → a.removed = true → ∀ tag, s.accepting →
        exec (.announceCancel tag a.id) s = .next (s.turnedDown 0x3D tag .notFound []))
    ∧ (∀ tag id, s.accepting → s.house.findAnn id = none →
        exec (.announceCancel tag id) s = .next (s.turnedDown 0x3D tag .notFound []))
    ∧ ((s.house.player n).state = .gap → s.house.heldAnn n = some a → s.house.suspends n a = false → ∃ h,
        exec (.gapEnd n) s = .next (s.withHouse h)
          ∧ h.player n = { state := .playing, held := some a.id, sample := 0, gapLeft := 0 } ∧ h.salesKept s.house)
    ∧ ((s.house.player n).state ≠ .gap → exec (.gapEnd n) s = .next s)

/-! ### Lanes -/

/-- LANE SET, LANE OPEN and LANE CLOSE (R93, R95, R98, R111): settings of a CLOSED lane or of an exit lane; a CLOSED or
JAMMED lane with RAISE released opens into IDLE, or into WAITING with a car on the loop; an IDLE or JAMMED lane closes at
once, one with a car under way when it is done. A close that takes effect makes the close-out: LANE_CLOSED with the verdict
of the lane's counters, which it leaves as they are (R135, R136). Every reply returns the lane's block. The layouts of block
and verdict, the block's place, and the byte that says whether a close took effect, are log entry 12, the codes of the
findings log entry 11. That a LANE SET with a value out of range is BAD_VALUE in every state of the lane is the model's
choice (log entry 43). -/
def Obligations.LanesOpenAndClose : Prop :=
  ∀ (tag lane : Nat) (s : State), s.accepting →
    (∀ (j : ExitId) (map debounce arm pass : Nat), exitOfCode lane = some j → 50 ≤ debounce → debounce ≤ 500 →
      exec (.laneSet tag lane map debounce arm pass) s = .next (State.answered 0x40 tag .ok []
        { s.taken with exits := tmod s.exits j fun x => { x with debounce := debounce } }))
    ∧ ∀ k : EntryId, entryOfCode lane = some k →
      (∀ (map debounce arm pass : Nat) (t : LaneSettings), entrySettings map debounce arm pass = some t →
        ((s.lane k).state ≠ .closed → exec (.laneSet tag lane map debounce arm pass) s =
          .next (s.turnedDown 0x40 tag .badState (s.lane k).block))
        ∧ ((s.lane k).state = .closed → exec (.laneSet tag lane map debounce arm pass) s =
          .next (State.answered 0x40 tag .ok ({ s.lane k with settings := t } : EntryLane).block
            { s.taken with lanes := tmod s.lanes k fun l => { l with settings := t } })))
      ∧ (∀ map debounce arm pass : Nat, entrySettings map debounce arm pass = none →
          exec (.laneSet tag lane map debounce arm pass) s =
            .next (s.turnedDown 0x40 tag .badValue (s.lane k).block))
      ∧ (((s.lane k).state = .closed ∨ (s.lane k).state = .jammed) →
        ((s.lane k).raised = true →
          exec (.laneOpen tag lane) s = .next (s.turnedDown 0x41 tag .busy (s.lane k).block))
        ∧ ((s.lane k).raised = false → ∃ t, exec (.laneOpen tag lane) s = .next
              (t.answered 0x41 tag .ok (u8 (t.lane k).state.code :: (t.lane k).block))
            ∧ State.laneKept k t s.taken ∧ t.present = s.present ∧ (t.lane k).closePending = false
            ∧ ((s.lane k).arrive.occupied = true → State.arrivedAt k s.taken t)
            ∧ ((s.lane k).arrive.occupied = false → (t.lane k).state = .idle
                ∧ (t.lane k).counters = (s.lane k).counters)))
      ∧ ((s.lane k).state ≠ .closed → (s.lane k).state ≠ .jammed →
          exec (.laneOpen tag lane) s = .next (State.answered 0x41 tag .ok
            (u8 (s.lane k).state.code :: ({ s.lane k with closePending := false } : EntryLane).block)
            { s.taken with lanes := tmod s.lanes k fun l => { l with closePending := false } }))
      ∧ ((s.lane k).state = .closed →
          exec (.laneClose tag lane) s = .next (s.turnedDown 0x42 tag .badState (s.lane k).block))
      ∧ (((s.lane k).state = .idle ∨ (s.lane k).state = .jammed) → ∃ t,
          exec (.laneClose tag lane) s = .next (t.answered 0x42 tag .ok (u8 1 :: (t.lane k).block))
            ∧ State.laneKept k t s.taken ∧ t.present = s.present ∧ State.closedOut k s.taken t
            ∧ (t.lane k).counters = (s.lane k).counters)
      ∧ ((s.lane k).state ≠ .closed → (s.lane k).state ≠ .idle → (s.lane k).state ≠ .jammed →
          exec (.laneClose tag lane) s = .next (State.answered 0x42 tag .ok
            (u8 0 :: ({ s.lane k with closePending := true } : EntryLane).block)
            { s.taken with lanes := tmod s.lanes k fun l => { l with closePending := true } }))

/-- ADMIT in WAITING (R101, R102, R120): the checks of the lot refuse with their status; a stall that is given and FREE,
or the first FREE one in fill order, becomes ASSIGNED to the lane, the grant is counted and in flight, and the arm
rises; an arm found up takes the lane on to PASSING. ANY with no FREE stall left is FULL. In IDLE it is refused
NO_VEHICLE, in other states BAD_STATE. The layout of the reply is log entry 12. -/
def Obligations.AdmitGrantsAStall : Prop :=
  ∀ (tag lane screen party : Nat) (stall : Option (Nat × Nat)) (s : State) (k : EntryId) (n : Screen), s.accepting →
    entryOfCode lane = some k → screenOfCode screen = some n → (∀ p, stall = some p → stallInRange p.1 p.2 = true) →
    ((s.lane k).state = .idle →
      exec (.admitCar tag lane screen stall party) s = .next (s.turnedDown 0x43 tag .noVehicle (s.lane k).block))
    ∧ ((s.lane k).state ≠ .idle → (s.lane k).state ≠ .waiting →
      exec (.admitCar tag lane screen stall party) s = .next (s.turnedDown 0x43 tag .badState (s.lane k).block))
    ∧ ((s.lane k).state = .waiting →
      (∀ m, (s.lane k).settings.map = some m → m ≠ n →
        exec (.admitCar tag lane screen stall party) s = .next (s.turnedDown 0x43 tag .badValue (s.lane k).block))
      ∧ (((s.lane k).settings.map = none ∨ (s.lane k).settings.map = some n) →
        ((s.house.lot n).admission = false →
          exec (.admitCar tag lane screen stall party) s = .next (s.turnedDown 0x43 tag .closed (s.lane k).block))
        ∧ ((s.house.lot n).admission = true → (s.house.lot n).capacity ≤ (s.house.lot n).occupancy →
          exec (.admitCar tag lane screen stall party) s = .next (s.turnedDown 0x43 tag .full (s.lane k).block))
        ∧ ((s.house.lot n).admission = true → (s.house.lot n).occupancy < (s.house.lot n).capacity →
          (∀ p, stall = some p → s.house.stallState n p.1 p.2 ≠ some .free →
            exec (.admitCar tag lane screen stall party) s = .next (s.turnedDown 0x43 tag .taken (s.lane k).block))
          ∧ (stall = none → (s.house.lot n).anyStall = none →
            exec (.admitCar tag lane screen stall party) s = .next (s.turnedDown 0x43 tag .full (s.lane k).block))
          ∧ (∀ p, (stall = some p ∨ (stall = none ∧ (s.house.lot n).anyStall = some p)) →
            s.house.stallState n p.1 p.2 = some .free →
            ((s.lane k).upSense = true → (s.lane k).arrive.occupied = true) → ∃ t x,
              exec (.admitCar tag lane screen stall party) s = .next (t.answered 0x43 tag .ok
                  ([u8 (screenCode n), u8 p.1, u8 p.2] ++ (t.lane k).block))
                ∧ State.laneKept k t s.taken ∧ t.present = s.present
                ∧ (t.lane k).refused = false ∧ (t.lane k).demand = true ∧ (t.lane k).raised = true
                ∧ ((s.lane k).upSense = false → (t.lane k).state = .raising
                    ∧ (t.lane k).armTimer = some ((s.lane k).settings.armTimeout * 1000))
                ∧ ((s.lane k).upSense = true → (t.lane k).state = .passing ∧ (t.lane k).armTimer = none
                    ∧ (t.lane k).passTimer = some ((s.lane k).settings.passTimeout * 1000))
                ∧ (t.lane k).grant = some { screen := n, row := p.1, position := p.2, party := party,
                                            time := s.house.clock, seen := false }
                ∧ (t.lane k).counters =
                    { (s.lane k).counters with grants := bumpTo 65535 (s.lane k).counters.grants }
                ∧ t.house.stall? n p.1 p.2 = some x ∧ x.state = .assigned ∧ x.party = party ∧ x.lane = some k
                ∧ x.admitTime = none))))

/-- REFUSE sets the refused mark of a WAITING lane and changes nothing else; ATTENDANT PASS settles the grant of a
PASSING lane as an attendant pass: its stall is ADMITTED, the present count rises but for a rehearsing lane, and the lane
lowers its arm. In IDLE both are refused NO_VEHICLE, in the other states BAD_STATE (R100, R106, R121, R127). -/
def Obligations.RefuseAndAttendantPass : Prop :=
  ∀ (tag lane : Nat) (s : State) (k : EntryId), s.accepting → entryOfCode lane = some k →
    ((s.lane k).state = .waiting → exec (.refuse tag lane) s = .next
      (State.answered 0x44 tag .ok ({ s.lane k with refused := true } : EntryLane).block
        { s.taken with lanes := tmod s.lanes k fun l => { l with refused := true } }))
    ∧ ((s.lane k).state = .idle →
        exec (.refuse tag lane) s = .next (s.turnedDown 0x44 tag .noVehicle (s.lane k).block)
        ∧ exec (.attendantPass tag lane) s = .next (s.turnedDown 0x45 tag .noVehicle (s.lane k).block))
    ∧ ((s.lane k).state ≠ .waiting → (s.lane k).state ≠ .idle →
        exec (.refuse tag lane) s = .next (s.turnedDown 0x44 tag .badState (s.lane k).block))
    ∧ ((s.lane k).state ≠ .passing → (s.lane k).state ≠ .idle →
        exec (.attendantPass tag lane) s = .next (s.turnedDown 0x45 tag .badState (s.lane k).block))
    ∧ ∀ g, (s.lane k).state = .passing → (s.lane k).grant = some g → (s.lane k).downSense = false → ∃ t,
        exec (.attendantPass tag lane) s = .next (t.answered 0x45 tag .ok (t.lane k).block)
          ∧ State.laneKept k t s.taken
          ∧ t.present = (if (s.lane k).rehearsal then s.present else bumpTo 65535 s.present)
          ∧ (t.lane k).state = .lowering ∧ (t.lane k).grant = none ∧ (t.lane k).demand = false
          ∧ (t.lane k).counters =
              { (s.lane k).counters with attendant := bumpTo 65535 (s.lane k).counters.attendant }
          ∧ (∀ x, s.house.stall? g.screen g.row g.position = some x → ∃ y,
              t.house.stall? g.screen g.row g.position = some y ∧ y.state = .admitted
                ∧ y.admitTime = some s.house.clock)

/-- The loops (R94, R96, R99, R103, R104, R108, R109, R112, R127): a raw level starts or cancels the settling timer; the
settled arrival loop brings a car to an IDLE lane and takes it from a WAITING one, counted by the refused mark; in PASSING
a car that leaves it with no clear-seen mark is a backout, and a close pending takes effect with its close-out (R111, R135,
R136). An occupied clear loop in CLOSED, IDLE, WAITING or JAMMED is an
unpaid crossing, in LOWERING a tailgate, in RAISING and PASSING the clear-seen mark; a vacated one completes the pass that
has its mark, and elsewhere releases a RAISE whose demand is off. An exit is counted when a noted vehicle leaves the exit
loop. -/
def Obligations.LoopsSettle : Prop :=
  ∀ s : State,
    (∀ (k : EntryId) (level : Bool), (s.lane k).rehearsal = false →
      exec (.loopRawChange (.arrive k) level) s = .next { s with lanes := tmod s.lanes k fun l =>
        { l with arrive := { l.arrive with
            raw := level
            timer := if level = l.arrive.occupied then none else l.arrive.timer.or (some l.settings.debounce) } } }
      ∧ exec (.loopRawChange (.clear k) level) s = .next { s with lanes := tmod s.lanes k fun l =>
        { l with clear := { l.clear with
            raw := level
            timer := if level = l.clear.occupied then none else l.clear.timer.or (some l.settings.debounce) } } })
    ∧ (∀ (j : ExitId) (level : Bool), exec (.loopRawChange (.exit j) level) s =
        .next { s with exits := tmod s.exits j fun x =>
          { x with loop := { x.loop with
              raw := level
              timer := if level = x.loop.occupied then none else x.loop.timer.or (some x.debounce) } } })
    ∧ (∀ k : EntryId, (s.lane k).arrive.timer.isSome = true →
      ((s.lane k).state = .idle → (s.lane k).arrive.occupied = false → ∃ t,
        exec (.arriveSettles k) s = .next t ∧ State.laneKept k t s ∧ t.present = s.present
          ∧ State.arrivedAt k s t ∧ (t.lane k).arrive.occupied = true ∧ (t.lane k).arrive.timer = none)
      ∧ ((s.lane k).state = .waiting → (s.lane k).arrive.occupied = true → ∃ t,
        exec (.arriveSettles k) s = .next t ∧ State.laneKept k t s ∧ t.present = s.present
          ∧ (t.lane k).state = (if (s.lane k).closePending then .closed else .idle) ∧ (t.lane k).refused = false
          ∧ ((s.lane k).closePending = true → State.closedOut k s t)
          ∧ (t.lane k).counters =
              (if (s.lane k).refused then
                { (s.lane k).counters with refusals := bumpTo 65535 (s.lane k).counters.refusals }
              else { (s.lane k).counters with leftUnpaid := bumpTo 65535 (s.lane k).counters.leftUnpaid })))
    ∧ (∀ k : EntryId, (s.lane k).clear.timer.isSome = true → (s.lane k).clear.occupied = false →
      ((s.lane k).state = .closed ∨ (s.lane k).state = .idle ∨ (s.lane k).state = .waiting
          ∨ (s.lane k).state = .jammed) → ∃ t,
        exec (.clearSettles k) s = .next t ∧ State.laneKept k t s
          ∧ t.present = (if (s.lane k).rehearsal then s.present else bumpTo 65535 s.present)
          ∧ t.house.out = s.house.out.push { kind := .unpaidCrossing, time := s.house.clock,
                                             fields := [u8 (entryCode k), u8 (s.lane k).state.code] }
          ∧ t.lane k = { s.lane k with
              clear := { (s.lane k).clear with occupied := true, timer := none }
              counters := { (s.lane k).counters with unpaid := bumpTo 65535 (s.lane k).counters.unpaid } })
    ∧ (∀ (k : EntryId) (g : Grant), (s.lane k).state = .passing → (s.lane k).grant = some g →
      ((s.lane k).arrive.timer.isSome = true → (s.lane k).arrive.occupied = true →
        (g.seen = true → exec (.arriveSettles k) s = .next (s.onLane k fun l =>
          { l with arrive := { l.arrive with occupied := false, timer := none } }))
        ∧ (g.seen = false → (s.lane k).downSense = false → ∃ t,
          exec (.arriveSettles k) s = .next t ∧ State.laneKept k t s ∧ t.present = s.present
            ∧ (t.lane k).state = .lowering ∧ (t.lane k).grant = none ∧ (t.lane k).demand = false
            ∧ (t.lane k).passTimer = none
            ∧ (t.lane k).counters = { (s.lane k).counters with backouts := bumpTo 65535 (s.lane k).counters.backouts }
            ∧ ∀ x, s.house.stall? g.screen g.row g.position = some x →
                t.house.stall? g.screen g.row g.position = some .vacant))
      ∧ ((s.lane k).clear.timer.isSome = true → (s.lane k).clear.occupied = true →
        (g.seen = false → exec (.clearSettles k) s = .next (s.onLane k fun l =>
          { l with clear := { l.clear with occupied := false, timer := none } }))
        ∧ (g.seen = true → (s.lane k).downSense = false → ∃ t,
          exec (.clearSettles k) s = .next t ∧ State.laneKept k t s
            ∧ t.present = (if (s.lane k).rehearsal then s.present else bumpTo 65535 s.present)
            ∧ (t.lane k).state = .lowering ∧ (t.lane k).grant = none ∧ (t.lane k).demand = false
            ∧ (t.lane k).raised = false ∧ (t.lane k).passTimer = none
            ∧ (t.lane k).counters = { (s.lane k).counters with admitted := bumpTo 65535 (s.lane k).counters.admitted }
            ∧ ∀ x, s.house.stall? g.screen g.row g.position = some x → ∃ y,
                t.house.stall? g.screen g.row g.position = some y ∧ y.state = .admitted
                  ∧ y.admitTime = some s.house.clock)))
    ∧ (∀ k : EntryId, (s.lane k).clear.timer.isSome = true →
      ((s.lane k).clear.occupied = false → (s.lane k).state = .raising ∨ (s.lane k).state = .passing →
        exec (.clearSettles k) s = .next (s.onLane k fun l =>
          { l with
            clear := { l.clear with occupied := true, timer := none }
            grant := l.grant.map fun g => { g with seen := true } }))
      ∧ ((s.lane k).clear.occupied = false → (s.lane k).state = .lowering → ∃ t,
        exec (.clearSettles k) s = .next t ∧ State.laneKept k t s
          ∧ t.present = (if (s.lane k).rehearsal then s.present else bumpTo 65535 s.present)
          ∧ t.house = s.house.notify .tailgate [u8 (entryCode k)]
          ∧ (t.lane k).state = .lowering ∧ (t.lane k).demand = true ∧ (t.lane k).raised = true
          ∧ (t.lane k).armTimer = none
          ∧ (t.lane k).counters =
              { (s.lane k).counters with tailgates := bumpTo 65535 (s.lane k).counters.tailgates })
      ∧ ((s.lane k).clear.occupied = true → (s.lane k).state = .lowering → (s.lane k).raised = true →
        (s.lane k).downSense = false → ∃ t,
        exec (.clearSettles k) s = .next t ∧ t = { s with lanes := tset s.lanes k (t.lane k) }
          ∧ (t.lane k).state = .lowering ∧ (t.lane k).demand = false ∧ (t.lane k).raised = false
          ∧ (t.lane k).armTimer = some ((s.lane k).settings.armTimeout * 1000)
          ∧ (t.lane k).counters = (s.lane k).counters)
      ∧ ((s.lane k).clear.occupied = true → (s.lane k).state ≠ .passing → (s.lane k).state ≠ .lowering →
        ∃ t, exec (.clearSettles k) s = .next t ∧ t = { s with lanes := tset s.lanes k (t.lane k) }
          ∧ (t.lane k).raised = (s.lane k).demand ∧ (t.lane k).state = (s.lane k).state
          ∧ (t.lane k).grant = (s.lane k).grant ∧ (t.lane k).counters = (s.lane k).counters))
    ∧ ∀ j : ExitId, (s.exitLane j).loop.timer.isSome = true →
      ((s.exitLane j).loop.occupied = false → exec (.exitSettles j) s = .next { s with exits := tmod s.exits j fun x =>
        { x with loop := { x.loop with occupied := true, timer := none }, noted := true } })
      ∧ ((s.exitLane j).loop.occupied = true → (s.exitLane j).noted = true →
        exec (.exitSettles j) s = .next { s with
          present := s.present - 1
          exits := tmod s.exits j fun x =>
            { x with
              loop := { x.loop with occupied := false, timer := none }, noted := false
              exits := bumpTo 65535 x.exits } })

/-- The arm and its timers (R96, R102 to R107, R110, R181): ARMUP in RAISING brings PASSING with its pass timer; ARMDN in
LOWERING with RAISE released brings CLOSED with its close-out under a close pending (R111, R135, R136), else WAITING with a
car on the loop, else IDLE; the arm timer jams the lane, a grant in flight lapsing; the pass timer lapses
the grant; a simulated arm comes to the end of its travel. That the rows of the senses carry a level too, of which a low
one only changes the level, and that the end of a simulated travel does nothing outside rehearsal, are the model's choices
(log entries 7 and 6). -/
def Obligations.ArmsAndTimers : Prop :=
  ∀ (s : State) (k : EntryId),
    exec (.armupAsserted k false) s = .next { s with lanes := tmod s.lanes k fun l => { l with armUp := false } }
    ∧ exec (.armdnAsserted k false) s = .next { s with lanes := tmod s.lanes k fun l => { l with armDn := false } }
    ∧ (∀ g, (s.lane k).rehearsal = false → (s.lane k).state = .raising → (s.lane k).grant = some g →
        (g.seen = true → (s.lane k).clear.occupied = true) → (g.seen = false → (s.lane k).arrive.occupied = true) → ∃ t,
        exec (.armupAsserted k true) s = .next t ∧ State.laneKept k t s ∧ t.present = s.present
          ∧ t.lane k = { s.lane k with
              armUp := true, state := .passing, armTimer := none
              passTimer := some ((s.lane k).settings.passTimeout * 1000) })
    ∧ ((s.lane k).rehearsal = false → (s.lane k).state = .lowering → (s.lane k).raise = false →
        (s.lane k).closePending = false → (s.lane k).arrive.occupied = false → ∃ t,
        exec (.armdnAsserted k true) s = .next t ∧ State.laneKept k t s ∧ t.present = s.present
          ∧ t.lane k = { s.lane k with
              armDn := true, state := .idle, refused := false, armTimer := none, passTimer := none })
    ∧ ((s.lane k).rehearsal = false → (s.lane k).state = .lowering → (s.lane k).raise = false →
        (s.lane k).closePending = true → ∃ t,
        exec (.armdnAsserted k true) s = .next t ∧ State.laneKept k t s ∧ t.present = s.present
          ∧ State.closedOut k s t
          ∧ t.lane k = { s.lane k with
              armDn := true, state := .closed, closePending := false, refused := false, armTimer := none
              passTimer := none })
    ∧ ((s.lane k).rehearsal = false → (s.lane k).state = .lowering → (s.lane k).raise = false →
        (s.lane k).closePending = false → (s.lane k).arrive.occupied = true → ∃ t,
        exec (.armdnAsserted k true) s = .next t ∧ State.laneKept k t s ∧ t.present = s.present
          ∧ State.arrivedAt k s t ∧ (t.lane k).armDn = true ∧ (t.lane k).refused = false
          ∧ (t.lane k).armTimer = none ∧ (t.lane k).passTimer = none)
    ∧ ((s.lane k).armTimer.isSome = true → ((s.lane k).state = .raising ∨ (s.lane k).state = .lowering) → ∃ t,
        exec (.armTimeout k) s = .next t ∧ State.laneKept k t s ∧ t.present = s.present
          ∧ (t.lane k).state = .jammed ∧ (t.lane k).grant = none ∧ (t.lane k).demand = false
          ∧ (t.lane k).armTimer = none
          ∧ (t.lane k).counters = { (s.lane k).counters with
              armFaults := bumpTo 65535 (s.lane k).counters.armFaults
              lapses := if (s.lane k).grant.isSome then bumpTo 65535 (s.lane k).counters.lapses
                        else (s.lane k).counters.lapses })
    ∧ (∀ g, (s.lane k).passTimer.isSome = true → (s.lane k).state = .passing → (s.lane k).grant = some g →
        (s.lane k).downSense = false → ∃ t,
        exec (.passTimeout k) s = .next t ∧ State.laneKept k t s ∧ t.present = s.present
          ∧ (t.lane k).state = .lowering ∧ (t.lane k).grant = none ∧ (t.lane k).demand = false
          ∧ (t.lane k).counters = { (s.lane k).counters with lapses := bumpTo 65535 (s.lane k).counters.lapses }
          ∧ (∀ x, s.house.stall? g.screen g.row g.position = some x → ∃ y,
              t.house.stall? g.screen g.row g.position = some y ∧ y.state = .free))
    ∧ ((s.lane k).rehearsal = true → (s.lane k).sim.travel.isSome = true → (s.lane k).state ≠ .raising →
        (s.lane k).state ≠ .lowering → ((s.lane k).sim.position = .rising ∨ (s.lane k).sim.position = .falling) →
        exec (.simulatedArmTravelEnd k) s = .next { s with lanes := tmod s.lanes k fun l =>
          { l with sim := { l.sim with
              position := if l.sim.position = .rising then .up else .down, travel := none } } })
    ∧ ((s.lane k).rehearsal = false → exec (.simulatedArmTravelEnd k) s = .next s)

/-! ### The lot -/

/-- LOT CONFIG in both forms, STALL BLOCK and STALL UNBLOCK (R116 to R118, R122): the layout with its fill order and
capacity, every stall FREE; a capacity not below the occupancy; a FREE stall blocked and a BLOCKED one freed, refused
BAD_STATE in every other state. The full indication says whether the occupancy is the capacity. -/
def Obligations.LotIsConfigured : Prop :=
  ∀ (tag screen : Nat) (s : State) (n : Screen), s.accepting → screenOfCode screen = some n →
    (∀ (rows capacity : Nat) (counts fill : List Nat), layoutInRange rows counts fill capacity = true →
      ((s.house.lot n).occupancy ≠ 0 → exec (.lotConfigLayout tag screen rows counts fill capacity) s =
        .next (s.turnedDown 0x46 tag .badState []))
      ∧ ((s.house.lot n).occupancy = 0 → s.house.stallsLeft n < counts.sum →
        exec (.lotConfigLayout tag screen rows counts fill capacity) s =
          .next (s.turnedDown 0x46 tag .badValue [u16 (s.house.stallsLeft n)]))
      ∧ ((s.house.lot n).occupancy = 0 → counts.sum ≤ s.house.stallsLeft n → ∃ h,
        exec (.lotConfigLayout tag screen rows counts fill capacity) s = .next (s.replied h 0x46 tag [u16 counts.sum])
          ∧ h = { s.taken.house with lots := h.lots, out := h.out }
          ∧ h.lot n = { rows := counts.map fun c => List.replicate c .vacant, fill := fill, capacity := capacity,
                        full := decide (capacity = 0), admission := (s.house.lot n).admission }
          ∧ ∀ m, m ≠ n → h.lot m = s.house.lot m))
    ∧ (∀ rows capacity counts fill, layoutInRange rows counts fill capacity = false →
        exec (.lotConfigLayout tag screen rows counts fill capacity) s = .next (s.turnedDown 0x46 tag .badValue []))
    ∧ (∀ capacity,
      ((s.house.lot n).stallCount < capacity →
        exec (.lotConfigCapacity tag screen capacity) s = .next (s.turnedDown 0x46 tag .badValue []))
      ∧ (capacity ≤ (s.house.lot n).stallCount → ∃ h, exec (.lotConfigCapacity tag screen capacity) s =
            .next (s.replied h 0x46 tag [u16 (max capacity (s.house.lot n).occupancy)])
          ∧ h = { s.taken.house with lots := h.lots, out := h.out }
          ∧ h.lot n = { s.house.lot n with
              capacity := max capacity (s.house.lot n).occupancy
              full := decide ((s.house.lot n).occupancy = max capacity (s.house.lot n).occupancy) }
          ∧ ∀ m, m ≠ n → h.lot m = s.house.lot m))
    ∧ ∀ row position, stallInRange row position = true →
      (s.house.stallState n row position = some .free → exec (.stallBlock tag screen row position) s = .next
        (s.replied (s.taken.house.onStall n row position fun x => { x with state := .blocked }) 0x48 tag []))
      ∧ (s.house.stallState n row position ≠ some .free → exec (.stallBlock tag screen row position) s =
        .next (s.turnedDown 0x48 tag .badState []))
      ∧ (s.house.stallState n row position = some .blocked → exec (.stallUnblock tag screen row position) s = .next
        (s.replied (s.taken.house.onStall n row position fun _ => .vacant) 0x49 tag []))
      ∧ (s.house.stallState n row position ≠ some .blocked → exec (.stallUnblock tag screen row position) s =
        .next (s.turnedDown 0x49 tag .badState []))

/-- DEPART frees an ADMITTED stall and cancels its open orders, which leave the table and whose number the reply gives;
SWEEP does so for every ADMITTED stall of the screen, and changes the state of no other stall (R124, R125). The widths of
the numbers in SWEEP's reply are log entry 12. -/
def Obligations.DepartAndSweepFree : Prop :=
  ∀ (tag screen : Nat) (s : State) (n : Screen), s.accepting → screenOfCode screen = some n →
    (∀ row position, stallInRange row position = true →
      (s.house.stallState n row position ≠ some .admitted →
        exec (.depart tag screen row position) s = .next (s.turnedDown 0x4A tag .badState []))
      ∧ (s.house.stallState n row position = some .admitted → ∃ h,
        exec (.depart tag screen row position) s =
            .next (s.replied h 0x4A tag [u8 (s.house.stallOrders n row position).length])
          ∧ h.stall? n row position = some .vacant
          ∧ (∀ o ∈ h.orders, ¬ (o.screen = n ∧ o.row = row ∧ o.position = position))
          ∧ ((h.lot n).full = true ↔ (h.lot n).occupancy = (h.lot n).capacity) ∧ h.salesKept s.house))
    ∧ ∃ h, exec (.sweep tag screen) s = .next (s.replied h 0x4B tag
          [u16 (s.house.lot n).admittedStalls.length,
           u8 (((s.house.lot n).admittedStalls.map fun p => (s.house.stallOrders n p.1 p.2).length).sum)])
        ∧ (∀ row position, s.house.stallState n row position = some .admitted →
            h.stall? n row position = some .vacant
              ∧ ∀ o ∈ h.orders, ¬ (o.screen = n ∧ o.row = row ∧ o.position = position))
        ∧ (∀ m row position, (m ≠ n ∨ s.house.stallState m row position ≠ some .admitted) →
            h.stallState m row position = s.house.stallState m row position)
        ∧ h.salesKept s.house

/-- COUNTERS READ answers the lane's counters as they stand, an exit lane's with its debounce time and its loop; a
clear then takes effect but for an entry lane with a grant in flight, which answers NOT_CLEARED and stays as it is
(R133, R134). That a reply that clears gives the cleared-at time from before the clear is the model's choice (log
entry 39). The codes of the clear result are log entry 11; that a clear option above 1 is BAD_VALUE is the model's
choice (log entry 25). -/
def Obligations.CountersReadClears : Prop :=
  ∀ (tag lane : Nat) (s : State), s.accepting →
    (∀ k, entryOfCode lane = some k →
      let fields (result : ClearResult) : List Field := (s.lane k).block ++ [uBool (s.lane k).rehearsal]
        ++ (s.lane k).counters.fields ++ uTime (s.lane k).counters.clearedAt ++ [u8 result.code]
      exec (.countersRead tag lane 0) s = .next (s.taken.answered 0x4C tag .ok (fields .notRequested))
      ∧ ((s.lane k).grant = none → exec (.countersRead tag lane 1) s =
          .next (State.answered 0x4C tag .ok (fields .cleared)
            { s.taken with lanes := tmod s.lanes k fun l =>
                { l with counters := { Counters.zero with clearedAt := some s.house.clock } } }))
      ∧ ((s.lane k).grant.isSome = true →
          exec (.countersRead tag lane 1) s = .next (s.taken.answered 0x4C tag .ok (fields .notCleared)))
      ∧ ∀ clear, 1 < clear →
          exec (.countersRead tag lane clear) s = .next (s.turnedDown 0x4C tag .badValue (s.lane k).block))
    ∧ ∀ j, exitOfCode lane = some j →
      let fields (result : ClearResult) : List Field :=
        [u32 (s.exitLane j).debounce, u8 (loopCode (s.exitLane j).loop.occupied), uBool (s.exitLane j).noted]
          ++ counterFields (s.exitLane j).exits ++ uTime (s.exitLane j).clearedAt ++ [u8 result.code]
      exec (.countersRead tag lane 0) s = .next (s.taken.answered 0x4C tag .ok (fields .notRequested))
      ∧ exec (.countersRead tag lane 1) s = .next (State.answered 0x4C tag .ok (fields .cleared)
          { s.taken with exits := tmod s.exits j fun x =>
              { x with exits := 0, clearedAt := some s.house.clock } })
      ∧ ∀ clear, 1 < clear → exec (.countersRead tag lane clear) s = .next (s.turnedDown 0x4C tag .badValue [])

/-! ### Orders and kitchen -/

/-- ITEM CLASS SET, STATION SET and ORDER POLICY SET (R139, R161, R162): values in range replace what they name; fewer
slots than tickets cooking are refused IN_USE with their number, and slots set free start QUEUED tickets until none is
QUEUED or no slot free (R165); a changed policy releases a DEFERRED order that may then be released (R146, R147); values
out of range and codes that name no station are BAD_VALUE. That open is a yes-or-no byte refused above 1 is the model's
choice (log entries 12 and 25). -/
def Obligations.KitchenSettingsSet : Prop :=
  ∀ (tag : Nat) (s : State), s.accepting →
    (∀ station, stationOfCode station = none →
      (∀ item base perUnit, exec (.itemClassSet tag item station base perUnit) s =
        .next (s.turnedDown 0x50 tag .badValue []))
      ∧ ∀ opened slots maxWait, exec (.stationSet tag station opened slots maxWait) s =
        .next (s.turnedDown 0x51 tag .badValue []))
    ∧ (∀ (item station base perUnit : Nat) (st : StationId), stationOfCode station = some st →
      (1 ≤ item ∧ item ≤ 64 ∧ base ≤ 1800 ∧ perUnit ≤ 600 → exec (.itemClassSet tag item station base perUnit) s =
        .next (s.replied { s.taken.house with
          items := s.house.items.setIfInBounds (item - 1) (some { station := st, base := base, perUnit := perUnit }) }
          0x50 tag []))
      ∧ (item = 0 ∨ 64 < item ∨ 1800 < base ∨ 600 < perUnit → exec (.itemClassSet tag item station base perUnit) s =
        .next (s.turnedDown 0x50 tag .badValue [])))
    ∧ (∀ (station opened slots maxWait : Nat) (st : StationId), stationOfCode station = some st →
      (opened ≤ 1 ∧ 1 ≤ slots ∧ slots ≤ 8 ∧ 60 ≤ maxWait ∧ maxWait ≤ 3600 →
        (slots < (s.house.station st).cookingCount → exec (.stationSet tag station opened slots maxWait) s =
          .next (s.turnedDown 0x51 tag .inUse [u8 (s.house.station st).cookingCount]))
        ∧ ((s.house.station st).cookingCount ≤ slots → ∃ h,
          exec (.stationSet tag station opened slots maxWait) s = .next (s.replied h 0x51 tag [])
            ∧ (h.station st).opened = decide (opened = 1) ∧ (h.station st).slots = slots
            ∧ (h.station st).maxWait = maxWait ∧ h.salesKept s.house
            ∧ (∀ x, x ≠ st → h.station x = s.house.station x)
            ∧ ((s.house.station st).ticketsFine s.house.nextJoin →
                (h.station st).queue.map Ticket.joined = (s.house.station st).queue.map Ticket.joined
                ∧ ((h.station st).cookingCount = slots ∨ ∀ t ∈ (h.station st).queue, t.state ≠ .queued))
            ∧ ((∀ t ∈ (s.house.station st).queue, t.state ≠ .queued) →
                (h.station st).queue = (s.house.station st).queue ∧ h.orders = s.house.orders)))
      ∧ (1 < opened ∨ slots = 0 ∨ 8 < slots ∨ maxWait < 60 ∨ 3600 < maxWait →
        exec (.stationSet tag station opened slots maxWait) s = .next (s.turnedDown 0x51 tag .badValue [])))
    ∧ ∀ lead margin repeats interval limit : Nat,
      let inRange := 60 ≤ lead ∧ lead ≤ 1800 ∧ margin ≤ 600 ∧ repeats ≤ 3 ∧ 60 ≤ interval ∧ interval ≤ 900 ∧ 5 ≤ limit
        ∧ limit ≤ 60
      let p : OrderPolicy :=
        { lead := lead, margin := margin, repeats := repeats, interval := interval, limit := limit }
      (¬ inRange → exec (.orderPolicySet tag lead margin repeats interval limit) s =
        .next (s.turnedDown 0x59 tag .badValue []))
      ∧ (inRange → ∃ h, exec (.orderPolicySet tag lead margin repeats interval limit) s = .next (s.replied h 0x59 tag [])
          ∧ h.orderPolicy = p
          ∧ (∀ o, s.house.releasable o → House.mayReleaseNow { s.house with orderPolicy := p } o.screen →
              House.released o { s.house with orderPolicy := p } h)
          ∧ h.shows = s.house.shows ∧ h.lines = s.house.lines ∧ h.gains = s.house.gains
          ∧ h.nextNumber = s.house.nextNumber
          ∧ ((∀ o ∈ s.house.orders, o.state ≠ .deferred) → h.orders = s.house.orders ∧ h.stations = s.house.stations))

/-- ORDER PLACE (R138, R140 to R143): the checks of R141 refuse in their order. An order that passes them enters the table
under a number no order holds, counted at its stall; with intake OPEN it has a promised time and its tickets stand at the
end of the queues of the stations it touches, and once its reply is filled in free slots start tickets (R163, R165); with
DEFER it is DEFERRED and no ticket joins. The layouts, AT_BREAK and the screen as the reason of CLOSED among them, are log
entry 12; that the first failing line is named counted from 1 is log entry 40. -/
def Obligations.OrderPlaceEntersTable : Prop :=
  ∀ (tag screen row position mode : Nat) (lines : List OrderLine) (s : State) (n : Screen) (m : OrderMode),
    s.accepting → screenOfCode screen = some n → OrderMode.ofCode mode = some m → stallInRange row position = true →
    lines ≠ [] → lines.length ≤ 8 →
    (∀ i, lines.findIdx? (fun l => !s.house.lineValid l) = some i →
      exec (.orderPlace tag screen row position mode lines) s =
        .next (s.turnedDown 0x52 tag .badValue (uOpt 1 (some (i + 1)))))
    ∧ ((∀ l ∈ lines, s.house.lineValid l = true) →
      (s.house.stallState n row position ≠ some .admitted →
        exec (.orderPlace tag screen row position mode lines) s = .next (s.turnedDown 0x52 tag .notPresent []))
      ∧ ∀ x, s.house.stall? n row position = some x → x.state = .admitted →
        (3 ≤ x.openOrders → exec (.orderPlace tag screen row position mode lines) s =
          .next (s.turnedDown 0x52 tag .limit []))
        ∧ (x.openOrders < 3 →
          (192 ≤ s.house.orders.length → exec (.orderPlace tag screen row position mode lines) s =
            .next (s.turnedDown 0x52 tag .full []))
          ∧ (s.house.orders.length < 192 →
            (∀ st, (s.house.touched lines).find? (fun st => !(s.house.station st).opened) = some st →
              exec (.orderPlace tag screen row position mode lines) s =
                .next (s.turnedDown 0x52 tag .closed [u8 (stationCode st)]))
            ∧ ((∀ st ∈ s.house.touched lines, (s.house.station st).opened = true) →
              ((s.house.row n).intake = .closed → exec (.orderPlace tag screen row position mode lines) s =
                .next (s.turnedDown 0x52 tag .closed [u8 (screenCode n)]))
              ∧ ((s.house.row n).intake = .defer → s.house.ordersFine → ∃ h o,
                exec (.orderPlace tag screen row position mode lines) s =
                    .next (s.replied h 0x52 tag [u16 o.number, u8 OrderState.deferred.code, u8 1])
                  ∧ h.orders = s.house.orders ++ [o] ∧ o.state = .deferred ∧ o.tickets = [] ∧ o.promised = none
                  ∧ o.screen = n ∧ o.row = row ∧ o.position = position ∧ o.party = x.party ∧ o.mode = m ∧ o.lines = lines
                  ∧ o.placed = s.house.clock ∧ (∀ p ∈ s.house.orders, p.number ≠ o.number)
                  ∧ h.stall? n row position = some { x with openOrders := x.openOrders + 1 }
                  ∧ h.stations = s.house.stations ∧ h.shows = s.house.shows ∧ h.lines = s.house.lines
                  ∧ h.out = s.taken.house.out)
              ∧ ((s.house.row n).intake = .open →
                (∀ st, (s.house.touched lines).find? (fun st => !(s.house.station st).hasRoom) = some st →
                  exec (.orderPlace tag screen row position mode lines) s =
                    .next (s.turnedDown 0x52 tag .stationFull [u8 (stationCode st)]))
                ∧ ((∀ st ∈ s.house.touched lines, (s.house.station st).hasRoom = true) →
                  ((∃ w ∈ s.house.waits lines, (s.house.station w.1).maxWait < w.2) →
                    exec (.orderPlace tag screen row position mode lines) s = .next (s.turnedDown 0x52 tag .busy
                      (u8 (s.house.waits lines).length
                        :: (s.house.waits lines).flatMap (fun w => [u8 (stationCode w.1), u24 w.2])
                        ++ [u24 (largestWait (s.house.waits lines))])))
                  ∧ ((∀ w ∈ s.house.waits lines, w.2 ≤ (s.house.station w.1).maxWait) → s.house.ordersFine → ∃ g h o,
                    exec (.orderPlace tag screen row position mode lines) s = .next (State.withHouse h
                        (s.replied g 0x52 tag ([u16 o.number, u8 OrderState.queued.code]
                          ++ uTime (some (s.house.promise (largestWait (s.house.waits lines))))
                          ++ [u24 (largestWait (s.house.waits lines))])))
                      ∧ h = (s.house.touched lines).foldl House.fillSlots g
                      ∧ g.orders = s.house.orders ++ [o] ∧ o.state = .queued ∧ o.tickets = s.house.touched lines
                      ∧ o.promised = some (s.house.promise (largestWait (s.house.waits lines)))
                      ∧ o.screen = n ∧ o.row = row ∧ o.position = position ∧ o.party = x.party ∧ o.mode = m
                      ∧ o.lines = lines ∧ o.placed = s.house.clock ∧ (∀ p ∈ s.house.orders, p.number ≠ o.number)
                      ∧ (∀ st ∈ s.house.touched lines, ∃ t,
                          (g.station st).queue = (s.house.station st).queue ++ [t] ∧ t.order = o.number
                            ∧ t.state = .queued ∧ t.lines = s.house.linesFor lines st
                            ∧ t.prep = s.house.prepFor lines st)
                      ∧ (∀ st, st ∉ s.house.touched lines → g.station st = s.house.station st)
                      ∧ g.out = s.taken.house.out
                      ∧ h.stall? n row position = some { x with openOrders := x.openOrders + 1 }
                      ∧ h.shows = s.house.shows ∧ h.lines = s.house.lines ∧ h.gains = s.house.gains)))))))

/-- ORDER CANCEL, ORDER COLLECT and ORDER DELIVERED end an order of the table in the states of R155 and R157: it leaves
the table and no ticket of it stays but VOID ones; refused NOT_FOUND for a number no order holds and BAD_STATE in
another state. CALL_REPEAT_DUE composes the next call of an order and offers it to its screen's queue: the call is placed
and becomes the order's current call, or is refused and waits; without a call-clip configuration NOT_CALLED is set and
CALL_WAITING dropped (R149, R150, R80, R81). For a number with nothing due it changes nothing (the model's choice, log
entry 6). -/
def Obligations.OrdersEnd : Prop :=
  ∀ (tag number : Nat) (s : State),
    (s.accepting → s.house.order? number = none →
      exec (.orderCancel tag number) s = .next (s.turnedDown 0x53 tag .notFound [])
      ∧ exec (.orderCollect tag number) s = .next (s.turnedDown 0x54 tag .notFound [])
      ∧ exec (.orderDelivered tag number) s = .next (s.turnedDown 0x55 tag .notFound []))
    ∧ (s.house.order? number = none → exec (.callRepeatDue number) s = .next s)
    ∧ ∀ o, s.house.order? number = some o →
      (s.accepting →
        (¬ (o.mode = .pickup ∧ (o.state = .ready ∨ o.state = .called)) →
          exec (.orderCollect tag number) s = .next (s.turnedDown 0x54 tag .badState []))
        ∧ (¬ (o.mode = .runner ∧ o.state = .ready) →
          exec (.orderDelivered tag number) s = .next (s.turnedDown 0x55 tag .badState []))
        ∧ ∃ hc hd hx : House,
          exec (.orderCancel tag number) s = .next (s.replied hx 0x53 tag [])
          ∧ (o.mode = .pickup → o.state = .ready ∨ o.state = .called →
              exec (.orderCollect tag number) s = .next (s.replied hc 0x54 tag []))
          ∧ (o.mode = .runner → o.state = .ready →
              exec (.orderDelivered tag number) s = .next (s.replied hd 0x55 tag []))
          ∧ ∀ h, h = hc ∨ h = hd ∨ h = hx → (∀ p ∈ h.orders, p.number ≠ number) ∧ h.salesKept s.house
              ∧ (s.house.queuesFine → ∀ st, ∀ t ∈ (h.station st).queue, t.order = number → t.state = .void))
      ∧ (o.due.isSome = true → s.house.callClips = none → s.house.nobodyExpires o.screen →
          exec (.callRepeatDue number) s = .next (s.withHouse
            (s.house.onOrder number fun p => { p with due := none, notCalled := true, callWaiting := false })))
      ∧ (∀ cc, o.due.isSome = true → s.house.callClips = some cc → s.house.nobodyExpires o.screen →
          ((s.house.queue o.screen).length < 12 → (∀ b ∈ s.house.queue o.screen, b.origin ≠ .order number) →
            0 < (s.house.classRow .orderCall).maxWait → ∃ h,
            exec (.callRepeatDue number) s = .next (s.withHouse h)
              ∧ h.queue o.screen = insertAnn
                  { id := s.house.freeAnnId, cls := .orderCall, priority := (s.house.classRow .orderCall).priority,
                    clips := cc.compose number, origin := .order number, enqueued := s.house.clock, wait := 0,
                    position := 1, removed := false } (s.house.queue o.screen)
              ∧ (∀ m, m ≠ o.screen → h.queue m = s.house.queue m)
              ∧ h.clips = (s.house.takeRefs (cc.compose number)).clips
              ∧ h.orders = s.house.orders.map (fun p => if p.number = number then
                  { p with due := none, call := some s.house.freeAnnId, callWaiting := false } else p)
              ∧ h.stations = s.house.stations ∧ h.lots = s.house.lots ∧ h.out = s.house.out ∧ h.salesKept s.house)
          ∧ ((∃ b ∈ s.house.queue o.screen, b.origin = .order number) ∨ 12 ≤ (s.house.queue o.screen).length
                ∧ s.house.victim o.screen (s.house.classRow .orderCall).priority = none →
              exec (.callRepeatDue number) s = .next (s.withHouse
                (s.house.onOrder number fun p => { p with due := none, callWaiting := true }))))
      ∧ (o.due = none → exec (.callRepeatDue number) s = .next s)

/-- BUMP, a press of BUMP-s and INJECT BUMP (R165, R167, R168, R183): the ticket named, or the oldest cooking one, is DONE
and stays in its queue, and its order follows it to COOKING, or to READY with its call (R148, R149); a VOID ticket leaves
the queue, which releases a DEFERRED order that may be released (R146, R147); a DONE one is ALREADY_DONE; at a rehearsing
station a press is not taken, outside rehearsal an injection is refused BAD_STATE. The layouts of the replies are log entry
12; that for 40 ms after a rehearsal no press counts is log entry 32. -/
def Obligations.BumpsFinishTickets : Prop :=
  ∀ (tag number station : Nat) (s : State) (st : StationId), stationOfCode station = some st →
    let bumped (t : Ticket) (h : House) : Prop :=
      (∃ u ∈ (h.station st).queue, u.joined = t.joined)
        ∧ (∀ u ∈ (h.station st).queue, u.joined = t.joined → u.state = .done) ∧ h.salesKept s.house
        ∧ House.followsTicket st t s.house h
    let cleared (t : Ticket) (h : House) : Prop :=
      (∀ u ∈ (h.station st).queue, u.joined ≠ t.joined) ∧ h.salesKept s.house
        ∧ ∀ o, (s.house.dropTicket st t).releasable o → s.house.mayReleaseNow o.screen →
            House.released o (s.house.dropTicket st t) h
    (s.accepting → 1 ≤ number → number ≤ 999 →
      (s.house.liveTicket st number = none → s.house.voidTicket st number = none →
        exec (.bump tag number station) s = .next (s.turnedDown 0x56 tag .notFound []))
      ∧ (∀ t, s.house.liveTicket st number = none → s.house.voidTicket st number = some t →
          t.joined < s.house.nextJoin → ∃ h,
          exec (.bump tag number station) s = .next (s.replied h 0x56 tag [u8 1]) ∧ cleared t h)
      ∧ ∀ t, s.house.liveTicket st number = some t →
        (t.state = .done → exec (.bump tag number station) s = .next (s.turnedDown 0x56 tag .alreadyDone []))
        ∧ ((t.state = .queued ∨ t.state = .cooking) → ∃ h,
          exec (.bump tag number station) s = .next (s.replied h 0x56 tag [u8 0]) ∧ bumped t h))
    ∧ (s.accepting → (number = 0 ∨ 999 < number) →
        exec (.bump tag number station) s = .next (s.turnedDown 0x56 tag .badValue []))
    ∧ ((s.house.station st).rehearsal = true ∨ 0 < (s.house.station st).pressWait →
        exec (.buttonBump st) s = .next s)
    ∧ ((s.house.station st).oldestCooking = none → exec (.buttonBump st) s = .next s
        ∧ (s.accepting → (s.house.station st).rehearsal = true →
            exec (.injectBump tag station) s = .next (s.replied s.taken.house 0x67 tag [u16 0])))
    ∧ (∀ t, (s.house.station st).oldestCooking = some t →
        ((s.house.station st).rehearsal = false → (s.house.station st).pressWait = 0 →
          (t.state = .cooking → ∃ h, exec (.buttonBump st) s = .next (s.withHouse h) ∧ bumped t h)
          ∧ (t.state = .void → t.joined < s.house.nextJoin → ∃ h,
            exec (.buttonBump st) s = .next (s.withHouse h) ∧ cleared t h))
        ∧ (s.accepting → (s.house.station st).rehearsal = true →
          (t.state = .cooking → ∃ h,
            exec (.injectBump tag station) s = .next (s.replied h 0x67 tag [u16 t.order]) ∧ bumped t h)
          ∧ (t.state = .void → t.joined < s.house.nextJoin → ∃ h,
            exec (.injectBump tag station) s = .next (s.replied h 0x67 tag [u16 t.order]) ∧ cleared t h)))
    ∧ (s.accepting → (s.house.station st).rehearsal = false →
        exec (.injectBump tag station) s = .next (s.turnedDown 0x67 tag .badState []))

/-- The backlog of a station: the prep seconds of its QUEUED tickets, and of each COOKING and VOID ticket its prep seconds
less its elapsed whole seconds, never below 0; DONE tickets contribute nothing (section 9.9). It is the backlog STATION READ
gives (section 9.10), in the layout of log entry 12. -/
def Obligations.BacklogIsTheSum : Prop :=
  ∀ x : Station,
    x.backlog = ((x.queue.filter fun t => t.state = .queued).map Ticket.prep).sum
        + ((x.queue.filter fun t => t.state = .cooking).map fun t => t.prep - t.elapsed / 1000).sum
        + ((x.queue.filter fun t => t.state = .void).map fun t => t.prep - t.elapsed / 1000).sum
      ∧ (∀ t, t.state = .done → Station.backlog { x with queue := t :: x.queue } = x.backlog)
      ∧ ∀ (tag code first : Nat) (s : State) (st : StationId), s.accepting → stationOfCode code = some st →
          s.house.station st = x → 1 ≤ first → first ≤ 48 → ∃ before after,
            exec (.stationRead tag code first) s =
              .next (s.taken.answered 0x58 tag .ok (before ++ [u24 x.backlog] ++ after)) ∧ before.length = 12

/-! ### Rehearsal -/

/-- REHEARSE on an IDLE, QUIET screen, a CLOSED lane with RAISE released and a station with an empty queue (R177, R178,
R180, R182, R183), and its refusals; a unit already in the state asked for stays so, a screen with the auto-answer setting
sent. A station left takes its VOID tickets out of the queue, its DONE and COOKING ones stay, and its free slots start
QUEUED ones. That leaving keeps the auto-answer setting and the stall mark is the model's choice (log entry 18), as are a
missing auto-answer byte as BAD_VALUE, and one that lanes and stations do not look at (log entry 44), one out of range as
BAD_VALUE in every state (log entries 25 and 43), and the 40 ms without a press (log entry 32). -/
def Obligations.RehearseSwitches : Prop :=
  ∀ (tag unit : Nat) (s : State), s.accepting →
    (∀ n, screenOfCode unit = some n →
      (∀ auto, (s.house.ctl n).rehearsal = false → auto ≤ 1 →
        ((s.house.ctl n).state = .idle → (s.house.line n).unit = .quiet →
          exec (.rehearse tag unit 1 (some auto)) s = .next (s.replied
            ((s.taken.house.onCtl n fun c => { c with rehearsal := true, autoAnswer := decide (auto = 1) }).onLine n
              fun l => { l with rx := .blank }) 0x60 tag []))
        ∧ (((s.house.ctl n).state ≠ .idle ∨ (s.house.line n).unit ≠ .quiet) →
          exec (.rehearse tag unit 1 (some auto)) s = .next (s.turnedDown 0x60 tag .badState [])))
      ∧ ((s.house.ctl n).rehearsal = true → (s.house.ctl n).state = .idle → (s.house.line n).unit = .quiet →
          exec (.rehearse tag unit 0 none) s = .next (s.replied
            ((s.taken.house.onCtl n fun c => { c with rehearsal := false, generator := none }).onLine n
              fun l => { l with autoDue := none }) 0x60 tag []))
      ∧ ((s.house.ctl n).rehearsal = true → ((s.house.ctl n).state ≠ .idle ∨ (s.house.line n).unit ≠ .quiet) →
          exec (.rehearse tag unit 0 none) s = .next (s.turnedDown 0x60 tag .badState []))
      ∧ (∀ auto, (s.house.ctl n).rehearsal = true → auto ≤ 1 →
          exec (.rehearse tag unit 1 (some auto)) s = .next (s.replied
            (s.taken.house.onCtl n fun c => { c with autoAnswer := decide (auto = 1) }) 0x60 tag []))
      ∧ ((s.house.ctl n).rehearsal = false →
          exec (.rehearse tag unit 0 none) s = .next (s.replied s.taken.house 0x60 tag []))
      ∧ exec (.rehearse tag unit 1 none) s = .next (s.turnedDown 0x60 tag .badValue []))
    ∧ (∀ auto, screenOfCode unit = none → entryOfCode unit = none → stationOfCode unit = none →
        exec (.rehearse tag unit 1 auto) s = .next (s.turnedDown 0x60 tag .badValue []))
    ∧ (∀ (k : EntryId) (auto : Option Nat), entryOfCode unit = some k →
      (∀ on : Bool, (s.lane k).rehearsal = on → exec (.rehearse tag unit (if on then 1 else 0) auto) s =
        .next (s.taken.answered 0x60 tag .ok (s.lane k).block))
      ∧ ((s.lane k).rehearsal = false → (s.lane k).state ≠ .closed →
        exec (.rehearse tag unit 1 auto) s = .next (s.turnedDown 0x60 tag .badState (s.lane k).block))
      ∧ ((s.lane k).rehearsal = true → (s.lane k).state ≠ .closed →
        exec (.rehearse tag unit 0 auto) s = .next (s.turnedDown 0x60 tag .badState (s.lane k).block))
      ∧ ((s.lane k).rehearsal = true → (s.lane k).state = .closed → (s.lane k).sim.raise = true →
        exec (.rehearse tag unit 0 auto) s = .next (s.turnedDown 0x60 tag .busy (s.lane k).block))
      ∧ ((s.lane k).rehearsal = false → (s.lane k).state = .closed → (s.lane k).raise = true →
        exec (.rehearse tag unit 1 auto) s = .next (s.turnedDown 0x60 tag .busy (s.lane k).block))
      ∧ ((s.lane k).rehearsal = false → (s.lane k).state = .closed → (s.lane k).raise = false → ∃ l : EntryLane,
        l = { s.lane k with
              rehearsal := true, sim := .initial, raise := false
              arrive := { (s.lane k).arrive with injected := false, occupied := false, timer := none }
              clear := { (s.lane k).clear with injected := false, occupied := false, timer := none } }
        ∧ exec (.rehearse tag unit 1 auto) s = .next (State.answered 0x60 tag .ok l.block
            { s.taken with lanes := tset s.lanes k l }))
      ∧ ((s.lane k).rehearsal = true → (s.lane k).state = .closed → (s.lane k).sim.raise = false → ∃ l : EntryLane,
        l = { s.lane k with
              rehearsal := false, sim := .initial, counters := .zero
              arrive := .settled (s.lane k).arrive.raw, clear := .settled (s.lane k).clear.raw }
        ∧ exec (.rehearse tag unit 0 auto) s = .next (State.answered 0x60 tag .ok l.block
            { s.taken with lanes := tset s.lanes k l })))
    ∧ ∀ (st : StationId) (auto : Option Nat), stationOfCode unit = some st →
      ((s.house.station st).rehearsal = false → (s.house.station st).queue = [] →
        exec (.rehearse tag unit 1 auto) s = .next (s.replied
          (s.taken.house.onStation st fun x => { x with rehearsal := true }) 0x60 tag []))
      ∧ ((s.house.station st).rehearsal = false → (s.house.station st).queue ≠ [] →
        exec (.rehearse tag unit 1 auto) s = .next (s.turnedDown 0x60 tag .badState []))
      ∧ (∀ on : Bool, (s.house.station st).rehearsal = on →
        exec (.rehearse tag unit (if on then 1 else 0) auto) s = .next (s.replied s.taken.house 0x60 tag []))
      ∧ ((s.house.station st).rehearsal = true →
        ((∀ t ∈ (s.house.station st).queue, t.state ≠ .void) → exec (.rehearse tag unit 0 auto) s = .next (s.replied
          (s.taken.house.onStation st fun x => { x with rehearsal := false, pressWait := 40 }) 0x60 tag []))
        ∧ ((∃ t ∈ (s.house.station st).queue, t.state = .void) →
            (s.house.station st).ticketsFine s.house.nextJoin → ∃ h,
            exec (.rehearse tag unit 0 auto) s = .next (s.replied h 0x60 tag [])
              ∧ (h.station st).rehearsal = false ∧ (h.station st).pressWait = 40
              ∧ (∀ t ∈ (h.station st).queue, t.state ≠ .void)
              ∧ (∀ t ∈ (s.house.station st).queue, t.state = .done ∨ t.state = .cooking → t ∈ (h.station st).queue)
              ∧ ((h.station st).slots ≤ (h.station st).cookingCount ∨ ∀ t ∈ (h.station st).queue, t.state ≠ .queued)
              ∧ h.salesKept s.house))

/-- Injections (R177 to R181): INJECT STALL and INJECT RESUME set and clear the stall mark and the generator; INJECT ANSWER
is judged like the line it stands for: D and N end a pass, or a show's exchange; the automatic answer is a D. INJECT ENDED
of the running content before its length is EARLY_END: it stops the show under STOP_ON_FAULT and ends the entry under
RUN_THROUGH (R41); of another content it changes nothing. INJECT LOOP and INJECT JAM act on the rehearsing lane. Each is
refused BAD_STATE outside rehearsal. The codes, those of PASS_RESULT among them, are log entry 11. -/
def Obligations.InjectionsAct : Prop :=
  ∀ (tag code : Nat) (s : State),
    (s.accepting → ∀ n, screenOfCode code = some n → (s.house.ctl n).rehearsal = true →
      exec (.injectStall tag code) s = .next (s.replied
        (s.taken.house.onCtl n fun c => { c with stallMark := true, generator := none }) 0x63 tag [])
      ∧ exec (.injectResume tag code) s = .next (s.replied
        (s.taken.house.onCtl n fun c => { c with
          stallMark := false
          generator := if c.counting = .off then c.generator else c.generator.or (some 0) }) 0x64 tag [])
      ∧ (∀ x left, (s.house.line n).unit = .await x left → x.used < x.allowed →
          exec (.injectAnswer tag code 4 0) s = .next (s.replied
            (s.taken.house.onLine n fun l => { l with unit := .backoff x 300 }) 0x61 tag [])
          ∧ (x.seq < 16 → exec (.injectAnswer tag code 3 x.seq) s = .next (s.replied
            (s.taken.house.onLine n fun l => { l with unit := .backoff x 300 }) 0x61 tag [])))
      ∧ (∀ x left, (s.house.line n).unit = .await x left → x.seq < 16 → (s.house.line n).waitingPlace = none →
          let passed (result : Nat) (h : House) : House := h.notify .passResult
            [u8 (screenCode n), u8 x.verb.code, u16 (if x.verb = .l then x.content else 0), u8 x.firstSeq, u8 x.used,
             u8 result]
          (x.pass = true → exec (.injectAnswer tag code 1 x.seq) s = .next (s.replied
            (passed 1 ((s.taken.house.onLine n fun l => { l with unit := .quiet }).onCtl n fun c =>
              { c with halted := match x.verb with
                | .h => true
                | .g => false
                | .l | .q => c.halted })) 0x61 tag []))
          ∧ (x.pass = true → x.quiet = true → exec (.injectAnswer tag code 2 x.seq) s = .next (s.replied
            (passed 2 (s.taken.house.onLine n fun l =>
              { l with unit := .quiet, fault := LineFault.after l.fault x none .refused s.house.clock })) 0x61 tag []))
          ∧ (x.pass = false → (s.house.ctl n).state = .showing → ∃ h,
              exec (.injectAnswer tag code 2 x.seq) s = .next (s.replied h 0x61 tag [])
                ∧ House.stoppedBy n .cueRefused s.house h)
          ∧ (x.pass = false → x.verb = .g → (s.house.ctl n).state = .showing → (s.house.entry n).kind = .play →
              (s.house.ctl n).finalHalt = false → exec (.injectAnswer tag code 1 x.seq) s = .next (s.replied
                ((s.taken.house.onLine n fun l => { l with unit := .quiet }).onCtl n fun c =>
                  { c with
                    halted := false, counting := .pulses, stallTimer := some 400, timebase := 0
                    generator := if c.stallMark then c.generator else some 0 }) 0x61 tag [])))
      ∧ (∀ (d : ShowDesc) (i : Nat), s.house.inEntry n .play d i → (s.house.ctl n).counting ≠ .off →
          (s.house.ctl n).record.progress < (s.house.cue i).length → 1 ≤ (s.house.cue i).content →
          (s.house.cue i).content ≤ 65535 → ∃ h,
          exec (.injectEnded tag code (s.house.cue i).content) s = .next (s.replied h 0x62 tag [])
            ∧ h.showKept n s.house
            ∧ (d.policy = .stopOnFault → House.stoppedBy n .earlyEnd s.house h)
            ∧ (d.policy = .runThrough → House.entryEnded n d i (s.house.faulted n .earlyEnd) h))
      ∧ (∀ content, 1 ≤ content → content ≤ 65535 →
          ((s.house.ctl n).state ≠ .showing ∨ (s.house.ctl n).counting = .off ∨ content ≠ (s.house.entry n).content) →
          exec (.injectEnded tag code content) s = .next (s.replied s.taken.house 0x62 tag [])))
    ∧ (s.accepting → ∀ n, screenOfCode code = some n → (s.house.ctl n).rehearsal = false →
      exec (.injectStall tag code) s = .next (s.turnedDown 0x63 tag .badState [])
      ∧ exec (.injectResume tag code) s = .next (s.turnedDown 0x64 tag .badState [])
      ∧ exec (.injectAnswer tag code 4 0) s = .next (s.turnedDown 0x61 tag .badState [])
      ∧ ∀ content, 1 ≤ content → content ≤ 65535 →
          exec (.injectEnded tag code content) s = .next (s.turnedDown 0x62 tag .badState []))
    ∧ (∀ (n : Screen) (x : Exchange) (left q due : Nat), (s.house.ctl n).rehearsal = true →
        (s.house.line n).autoDue = some (q, due) → (s.house.line n).unit = .await x left →
        (q ≠ x.seq → exec (.autoAnswer n) s = .next (s.withHouse (s.house.onLine n fun l => { l with autoDue := none })))
        ∧ (q = x.seq → x.pass = true → x.verb = .q → (s.house.line n).waitingPlace = none →
          exec (.autoAnswer n) s = .next (s.withHouse
            ((s.house.onLine n fun l => { l with autoDue := none, unit := .quiet }).notify .passResult
              [u8 (screenCode n), u8 4, u16 0, u8 x.firstSeq, u8 x.used, u8 1]))))
    ∧ (s.accepting → ∀ k, entryOfCode code = some k →
      ((s.lane k).rehearsal = false →
        exec (.injectLoop tag code 1 1) s = .next (s.turnedDown 0x65 tag .badState (s.lane k).block)
        ∧ exec (.injectJam tag code 1) s = .next (s.turnedDown 0x66 tag .badState (s.lane k).block))
      ∧ ((s.lane k).rehearsal = true →
        (∀ (loop level : Nat) (f : Bool), (loop = 1 ∨ loop = 2) → (level = 1 ∧ f = true ∨ level = 2 ∧ f = false) →
          ∃ l : EntryLane,
            exec (.injectLoop tag code loop level) s = .next (State.answered 0x65 tag .ok l.block
              { s.taken with lanes := tset s.lanes k l })
            ∧ (loop = 1 → l = { s.lane k with arrive := (s.lane k).arrive.inject f (s.lane k).settings.debounce })
            ∧ (loop = 2 → l = { s.lane k with clear := (s.lane k).clear.inject f (s.lane k).settings.debounce }))
        ∧ (∀ action : Nat, (action = 1 ∨ action = 2) → ∃ l : EntryLane,
            exec (.injectJam tag code action) s = .next (State.answered 0x66 tag .ok l.block
              { s.taken with lanes := tset s.lanes k l })
            ∧ l = { s.lane k with sim := if action = 1 then (s.lane k).sim.hold else (s.lane k).sim.free })))
end

