-- ==== Sys2Proof/Laws/State.lean ====
section
/-! SUPPORT. The small lemmas of the state: reading a table after a change, and, for every named update of `House` and
`State`, what each field is afterwards. -/

set_option autoImplicit false

namespace Sys2Proof
namespace Machine

/-! ### Tables -/

theorem tget_eq {α : Type} {n : Nat} (v : Vector α n) (i : Fin n) : tget v i = v[i.val] := rfl

@[simp] theorem tget_tset_self {α : Type} {n : Nat} (v : Vector α n) (i : Fin n) (a : α) : tget (tset v i a) i = a := by
  simp [tget_eq, tset]

theorem tget_tset_ne {α : Type} {n : Nat} (v : Vector α n) (i j : Fin n) (a : α) (h : j ≠ i) :
    tget (tset v i a) j = tget v j := by
  have hv : (i : Nat) ≠ j := fun e => h (Fin.ext e.symm)
  simp [tget_eq, tset, hv]

theorem tget_tset {α : Type} {n : Nat} (v : Vector α n) (i j : Fin n) (a : α) :
    tget (tset v i a) j = if j = i then a else tget v j := by
  split
  · next h => subst h; simp
  · next h => exact tget_tset_ne v i j a h

@[simp] theorem tget_tmod_self {α : Type} {n : Nat} (v : Vector α n) (i : Fin n) (f : α → α) :
    tget (tmod v i f) i = f (tget v i) := tget_tset_self _ _ _

theorem tget_tmod_ne {α : Type} {n : Nat} (v : Vector α n) (i j : Fin n) (f : α → α) (h : j ≠ i) :
    tget (tmod v i f) j = tget v j := tget_tset_ne _ _ _ _ h

theorem tget_tmod {α : Type} {n : Nat} (v : Vector α n) (i j : Fin n) (f : α → α) :
    tget (tmod v i f) j = if j = i then f (tget v j) else tget v j := by
  rw [tmod, tget_tset]
  split
  · next h => rw [h]
  · rfl

@[simp] theorem tget_ofFn {α : Type} {n : Nat} (f : Fin n → α) (i : Fin n) : tget (Vector.ofFn f) i = f i := by
  simp [tget_eq]

@[simp] theorem tget_map {α β : Type} {n : Nat} (f : α → β) (v : Vector α n) (i : Fin n) :
    tget (v.map f) i = f (tget v i) := by
  simp [tget_eq]

@[simp] theorem tget_replicate {α : Type} {n : Nat} (a : α) (i : Fin n) : tget (Vector.replicate n a) i = a := by
  simp [tget_eq]

/-- A table is its entries. -/
theorem table_ext {α : Type} {n : Nat} (v w : Vector α n) (h : ∀ i, tget v i = tget w i) : v = w := by
  apply Vector.ext
  intro i hi
  exact h ⟨i, hi⟩

@[simp] theorem tset_tget {α : Type} {n : Nat} (v : Vector α n) (i : Fin n) : tset v i (tget v i) = v := by
  apply table_ext
  intro j
  rw [tget_tset]
  split
  · next h => rw [h]
  · rfl

@[simp] theorem tset_tset {α : Type} {n : Nat} (v : Vector α n) (i : Fin n) (a b : α) :
    tset (tset v i a) i b = tset v i b := by
  apply table_ext
  intro j
  simp only [tget_tset]
  split <;> rfl

/-! ### The fields of a house after an update -/

@[simp] theorem House.onCtl_clock (n : Screen) (f : ShowCtl → ShowCtl) (h : House) : (h.onCtl n f).clock = h.clock := rfl
@[simp] theorem House.onCtl_timeUnset (n : Screen) (f : ShowCtl → ShowCtl) (h : House) : (h.onCtl n f).timeUnset = h.timeUnset := rfl
@[simp] theorem House.onCtl_out (n : Screen) (f : ShowCtl → ShowCtl) (h : House) : (h.onCtl n f).out = h.out := rfl
@[simp] theorem House.onCtl_cues (n : Screen) (f : ShowCtl → ShowCtl) (h : House) : (h.onCtl n f).cues = h.cues := rfl
@[simp] theorem House.onCtl_policy (n : Screen) (f : ShowCtl → ShowCtl) (h : House) : (h.onCtl n f).policy = h.policy := rfl
@[simp] theorem House.onCtl_maxLaneHold (n : Screen) (f : ShowCtl → ShowCtl) (h : House) : (h.onCtl n f).maxLaneHold = h.maxLaneHold := rfl
@[simp] theorem House.onCtl_lateLimit (n : Screen) (f : ShowCtl → ShowCtl) (h : House) : (h.onCtl n f).lateLimit = h.lateLimit := rfl
theorem House.onCtl_shows (n : Screen) (f : ShowCtl → ShowCtl) (h : House) : (h.onCtl n f).shows = tmod h.shows n f := rfl
@[simp] theorem House.onCtl_lines (n : Screen) (f : ShowCtl → ShowCtl) (h : House) : (h.onCtl n f).lines = h.lines := rfl
@[simp] theorem House.onCtl_gains (n : Screen) (f : ShowCtl → ShowCtl) (h : House) : (h.onCtl n f).gains = h.gains := rfl
@[simp] theorem House.onCtl_clips (n : Screen) (f : ShowCtl → ShowCtl) (h : House) : (h.onCtl n f).clips = h.clips := rfl
@[simp] theorem House.onCtl_callClips (n : Screen) (f : ShowCtl → ShowCtl) (h : House) : (h.onCtl n f).callClips = h.callClips := rfl
@[simp] theorem House.onCtl_classes (n : Screen) (f : ShowCtl → ShowCtl) (h : House) : (h.onCtl n f).classes = h.classes := rfl
@[simp] theorem House.onCtl_gap (n : Screen) (f : ShowCtl → ShowCtl) (h : House) : (h.onCtl n f).gap = h.gap := rfl
@[simp] theorem House.onCtl_routes (n : Screen) (f : ShowCtl → ShowCtl) (h : House) : (h.onCtl n f).routes = h.routes := rfl
@[simp] theorem House.onCtl_nextAnn (n : Screen) (f : ShowCtl → ShowCtl) (h : House) : (h.onCtl n f).nextAnn = h.nextAnn := rfl
@[simp] theorem House.onCtl_queues (n : Screen) (f : ShowCtl → ShowCtl) (h : House) : (h.onCtl n f).queues = h.queues := rfl
@[simp] theorem House.onCtl_players (n : Screen) (f : ShowCtl → ShowCtl) (h : House) : (h.onCtl n f).players = h.players := rfl
@[simp] theorem House.onCtl_lots (n : Screen) (f : ShowCtl → ShowCtl) (h : House) : (h.onCtl n f).lots = h.lots := rfl
@[simp] theorem House.onCtl_backlog (n : Screen) (f : ShowCtl → ShowCtl) (h : House) : (h.onCtl n f).backlog = h.backlog := rfl
@[simp] theorem House.onCtl_orders (n : Screen) (f : ShowCtl → ShowCtl) (h : House) : (h.onCtl n f).orders = h.orders := rfl
@[simp] theorem House.onCtl_nextNumber (n : Screen) (f : ShowCtl → ShowCtl) (h : House) : (h.onCtl n f).nextNumber = h.nextNumber := rfl
@[simp] theorem House.onCtl_nextSequence (n : Screen) (f : ShowCtl → ShowCtl) (h : House) : (h.onCtl n f).nextSequence = h.nextSequence := rfl
@[simp] theorem House.onCtl_orderPolicy (n : Screen) (f : ShowCtl → ShowCtl) (h : House) : (h.onCtl n f).orderPolicy = h.orderPolicy := rfl
@[simp] theorem House.onCtl_items (n : Screen) (f : ShowCtl → ShowCtl) (h : House) : (h.onCtl n f).items = h.items := rfl
@[simp] theorem House.onCtl_stations (n : Screen) (f : ShowCtl → ShowCtl) (h : House) : (h.onCtl n f).stations = h.stations := rfl
@[simp] theorem House.onCtl_nextJoin (n : Screen) (f : ShowCtl → ShowCtl) (h : House) : (h.onCtl n f).nextJoin = h.nextJoin := rfl
@[simp] theorem House.onCtl_nextCook (n : Screen) (f : ShowCtl → ShowCtl) (h : House) : (h.onCtl n f).nextCook = h.nextCook := rfl
@[simp] theorem House.onCtl_ctl (n : Screen) (f : ShowCtl → ShowCtl) (h : House) : (h.onCtl n f).ctl n = f (h.ctl n) :=
  tget_tmod_self _ _ _
theorem House.onCtl_ctl_ne (n m : Screen) (f : ShowCtl → ShowCtl) (h : House) (e : m ≠ n) : (h.onCtl n f).ctl m = h.ctl m :=
  tget_tmod_ne _ _ _ _ e
theorem House.onCtl_ctl_any (n m : Screen) (f : ShowCtl → ShowCtl) (h : House) :
    (h.onCtl n f).ctl m = if m = n then f (h.ctl m) else h.ctl m := tget_tmod _ _ _ _

@[simp] theorem House.onCtl_line (n : Screen) (f : ShowCtl → ShowCtl) (h : House) (m : Screen) : (h.onCtl n f).line m = h.line m := rfl
@[simp] theorem House.onCtl_gain (n : Screen) (f : ShowCtl → ShowCtl) (h : House) (m : Screen) : (h.onCtl n f).gain m = h.gain m := rfl
@[simp] theorem House.onCtl_queue (n : Screen) (f : ShowCtl → ShowCtl) (h : House) (m : Screen) : (h.onCtl n f).queue m = h.queue m := rfl
@[simp] theorem House.onCtl_player (n : Screen) (f : ShowCtl → ShowCtl) (h : House) (m : Screen) : (h.onCtl n f).player m = h.player m := rfl
@[simp] theorem House.onCtl_lot (n : Screen) (f : ShowCtl → ShowCtl) (h : House) (m : Screen) : (h.onCtl n f).lot m = h.lot m := rfl
@[simp] theorem House.onCtl_station (n : Screen) (f : ShowCtl → ShowCtl) (h : House) (m : StationId) : (h.onCtl n f).station m = h.station m := rfl

@[simp] theorem House.onLine_clock (n : Screen) (f : CueLine → CueLine) (h : House) : (h.onLine n f).clock = h.clock := rfl
@[simp] theorem House.onLine_timeUnset (n : Screen) (f : CueLine → CueLine) (h : House) : (h.onLine n f).timeUnset = h.timeUnset := rfl
@[simp] theorem House.onLine_out (n : Screen) (f : CueLine → CueLine) (h : House) : (h.onLine n f).out = h.out := rfl
@[simp] theorem House.onLine_cues (n : Screen) (f : CueLine → CueLine) (h : House) : (h.onLine n f).cues = h.cues := rfl
@[simp] theorem House.onLine_policy (n : Screen) (f : CueLine → CueLine) (h : House) : (h.onLine n f).policy = h.policy := rfl
@[simp] theorem House.onLine_maxLaneHold (n : Screen) (f : CueLine → CueLine) (h : House) : (h.onLine n f).maxLaneHold = h.maxLaneHold := rfl
@[simp] theorem House.onLine_lateLimit (n : Screen) (f : CueLine → CueLine) (h : House) : (h.onLine n f).lateLimit = h.lateLimit := rfl
@[simp] theorem House.onLine_shows (n : Screen) (f : CueLine → CueLine) (h : House) : (h.onLine n f).shows = h.shows := rfl
theorem House.onLine_lines (n : Screen) (f : CueLine → CueLine) (h : House) : (h.onLine n f).lines = tmod h.lines n f := rfl
@[simp] theorem House.onLine_gains (n : Screen) (f : CueLine → CueLine) (h : House) : (h.onLine n f).gains = h.gains := rfl
@[simp] theorem House.onLine_clips (n : Screen) (f : CueLine → CueLine) (h : House) : (h.onLine n f).clips = h.clips := rfl
@[simp] theorem House.onLine_callClips (n : Screen) (f : CueLine → CueLine) (h : House) : (h.onLine n f).callClips = h.callClips := rfl
@[simp] theorem House.onLine_classes (n : Screen) (f : CueLine → CueLine) (h : House) : (h.onLine n f).classes = h.classes := rfl
@[simp] theorem House.onLine_gap (n : Screen) (f : CueLine → CueLine) (h : House) : (h.onLine n f).gap = h.gap := rfl
@[simp] theorem House.onLine_routes (n : Screen) (f : CueLine → CueLine) (h : House) : (h.onLine n f).routes = h.routes := rfl
@[simp] theorem House.onLine_nextAnn (n : Screen) (f : CueLine → CueLine) (h : House) : (h.onLine n f).nextAnn = h.nextAnn := rfl
@[simp] theorem House.onLine_queues (n : Screen) (f : CueLine → CueLine) (h : House) : (h.onLine n f).queues = h.queues := rfl
@[simp] theorem House.onLine_players (n : Screen) (f : CueLine → CueLine) (h : House) : (h.onLine n f).players = h.players := rfl
@[simp] theorem House.onLine_lots (n : Screen) (f : CueLine → CueLine) (h : House) : (h.onLine n f).lots = h.lots := rfl
@[simp] theorem House.onLine_backlog (n : Screen) (f : CueLine → CueLine) (h : House) : (h.onLine n f).backlog = h.backlog := rfl
@[simp] theorem House.onLine_orders (n : Screen) (f : CueLine → CueLine) (h : House) : (h.onLine n f).orders = h.orders := rfl
@[simp] theorem House.onLine_nextNumber (n : Screen) (f : CueLine → CueLine) (h : House) : (h.onLine n f).nextNumber = h.nextNumber := rfl
@[simp] theorem House.onLine_nextSequence (n : Screen) (f : CueLine → CueLine) (h : House) : (h.onLine n f).nextSequence = h.nextSequence := rfl
@[simp] theorem House.onLine_orderPolicy (n : Screen) (f : CueLine → CueLine) (h : House) : (h.onLine n f).orderPolicy = h.orderPolicy := rfl
@[simp] theorem House.onLine_items (n : Screen) (f : CueLine → CueLine) (h : House) : (h.onLine n f).items = h.items := rfl
@[simp] theorem House.onLine_stations (n : Screen) (f : CueLine → CueLine) (h : House) : (h.onLine n f).stations = h.stations := rfl
@[simp] theorem House.onLine_nextJoin (n : Screen) (f : CueLine → CueLine) (h : House) : (h.onLine n f).nextJoin = h.nextJoin := rfl
@[simp] theorem House.onLine_nextCook (n : Screen) (f : CueLine → CueLine) (h : House) : (h.onLine n f).nextCook = h.nextCook := rfl
@[simp] theorem House.onLine_line (n : Screen) (f : CueLine → CueLine) (h : House) : (h.onLine n f).line n = f (h.line n) :=
  tget_tmod_self _ _ _
theorem House.onLine_line_ne (n m : Screen) (f : CueLine → CueLine) (h : House) (e : m ≠ n) : (h.onLine n f).line m = h.line m :=
  tget_tmod_ne _ _ _ _ e
theorem House.onLine_line_any (n m : Screen) (f : CueLine → CueLine) (h : House) :
    (h.onLine n f).line m = if m = n then f (h.line m) else h.line m := tget_tmod _ _ _ _

@[simp] theorem House.onLine_ctl (n : Screen) (f : CueLine → CueLine) (h : House) (m : Screen) : (h.onLine n f).ctl m = h.ctl m := rfl
@[simp] theorem House.onLine_gain (n : Screen) (f : CueLine → CueLine) (h : House) (m : Screen) : (h.onLine n f).gain m = h.gain m := rfl
@[simp] theorem House.onLine_queue (n : Screen) (f : CueLine → CueLine) (h : House) (m : Screen) : (h.onLine n f).queue m = h.queue m := rfl
@[simp] theorem House.onLine_player (n : Screen) (f : CueLine → CueLine) (h : House) (m : Screen) : (h.onLine n f).player m = h.player m := rfl
@[simp] theorem House.onLine_lot (n : Screen) (f : CueLine → CueLine) (h : House) (m : Screen) : (h.onLine n f).lot m = h.lot m := rfl
@[simp] theorem House.onLine_station (n : Screen) (f : CueLine → CueLine) (h : House) (m : StationId) : (h.onLine n f).station m = h.station m := rfl

@[simp] theorem House.onGain_clock (n : Screen) (f : Gain → Gain) (h : House) : (h.onGain n f).clock = h.clock := rfl
@[simp] theorem House.onGain_timeUnset (n : Screen) (f : Gain → Gain) (h : House) : (h.onGain n f).timeUnset = h.timeUnset := rfl
@[simp] theorem House.onGain_out (n : Screen) (f : Gain → Gain) (h : House) : (h.onGain n f).out = h.out := rfl
@[simp] theorem House.onGain_cues (n : Screen) (f : Gain → Gain) (h : House) : (h.onGain n f).cues = h.cues := rfl
@[simp] theorem House.onGain_policy (n : Screen) (f : Gain → Gain) (h : House) : (h.onGain n f).policy = h.policy := rfl
@[simp] theorem House.onGain_maxLaneHold (n : Screen) (f : Gain → Gain) (h : House) : (h.onGain n f).maxLaneHold = h.maxLaneHold := rfl
@[simp] theorem House.onGain_lateLimit (n : Screen) (f : Gain → Gain) (h : House) : (h.onGain n f).lateLimit = h.lateLimit := rfl
@[simp] theorem House.onGain_shows (n : Screen) (f : Gain → Gain) (h : House) : (h.onGain n f).shows = h.shows := rfl
@[simp] theorem House.onGain_lines (n : Screen) (f : Gain → Gain) (h : House) : (h.onGain n f).lines = h.lines := rfl
theorem House.onGain_gains (n : Screen) (f : Gain → Gain) (h : House) : (h.onGain n f).gains = tmod h.gains n f := rfl
@[simp] theorem House.onGain_clips (n : Screen) (f : Gain → Gain) (h : House) : (h.onGain n f).clips = h.clips := rfl
@[simp] theorem House.onGain_callClips (n : Screen) (f : Gain → Gain) (h : House) : (h.onGain n f).callClips = h.callClips := rfl
@[simp] theorem House.onGain_classes (n : Screen) (f : Gain → Gain) (h : House) : (h.onGain n f).classes = h.classes := rfl
@[simp] theorem House.onGain_gap (n : Screen) (f : Gain → Gain) (h : House) : (h.onGain n f).gap = h.gap := rfl
@[simp] theorem House.onGain_routes (n : Screen) (f : Gain → Gain) (h : House) : (h.onGain n f).routes = h.routes := rfl
@[simp] theorem House.onGain_nextAnn (n : Screen) (f : Gain → Gain) (h : House) : (h.onGain n f).nextAnn = h.nextAnn := rfl
@[simp] theorem House.onGain_queues (n : Screen) (f : Gain → Gain) (h : House) : (h.onGain n f).queues = h.queues := rfl
@[simp] theorem House.onGain_players (n : Screen) (f : Gain → Gain) (h : House) : (h.onGain n f).players = h.players := rfl
@[simp] theorem House.onGain_lots (n : Screen) (f : Gain → Gain) (h : House) : (h.onGain n f).lots = h.lots := rfl
@[simp] theorem House.onGain_backlog (n : Screen) (f : Gain → Gain) (h : House) : (h.onGain n f).backlog = h.backlog := rfl
@[simp] theorem House.onGain_orders (n : Screen) (f : Gain → Gain) (h : House) : (h.onGain n f).orders = h.orders := rfl
@[simp] theorem House.onGain_nextNumber (n : Screen) (f : Gain → Gain) (h : House) : (h.onGain n f).nextNumber = h.nextNumber := rfl
@[simp] theorem House.onGain_nextSequence (n : Screen) (f : Gain → Gain) (h : House) : (h.onGain n f).nextSequence = h.nextSequence := rfl
@[simp] theorem House.onGain_orderPolicy (n : Screen) (f : Gain → Gain) (h : House) : (h.onGain n f).orderPolicy = h.orderPolicy := rfl
@[simp] theorem House.onGain_items (n : Screen) (f : Gain → Gain) (h : House) : (h.onGain n f).items = h.items := rfl
@[simp] theorem House.onGain_stations (n : Screen) (f : Gain → Gain) (h : House) : (h.onGain n f).stations = h.stations := rfl
@[simp] theorem House.onGain_nextJoin (n : Screen) (f : Gain → Gain) (h : House) : (h.onGain n f).nextJoin = h.nextJoin := rfl
@[simp] theorem House.onGain_nextCook (n : Screen) (f : Gain → Gain) (h : House) : (h.onGain n f).nextCook = h.nextCook := rfl
@[simp] theorem House.onGain_gain (n : Screen) (f : Gain → Gain) (h : House) : (h.onGain n f).gain n = f (h.gain n) :=
  tget_tmod_self _ _ _
theorem House.onGain_gain_ne (n m : Screen) (f : Gain → Gain) (h : House) (e : m ≠ n) : (h.onGain n f).gain m = h.gain m :=
  tget_tmod_ne _ _ _ _ e
theorem House.onGain_gain_any (n m : Screen) (f : Gain → Gain) (h : House) :
    (h.onGain n f).gain m = if m = n then f (h.gain m) else h.gain m := tget_tmod _ _ _ _

@[simp] theorem House.onGain_ctl (n : Screen) (f : Gain → Gain) (h : House) (m : Screen) : (h.onGain n f).ctl m = h.ctl m := rfl
@[simp] theorem House.onGain_line (n : Screen) (f : Gain → Gain) (h : House) (m : Screen) : (h.onGain n f).line m = h.line m := rfl
@[simp] theorem House.onGain_queue (n : Screen) (f : Gain → Gain) (h : House) (m : Screen) : (h.onGain n f).queue m = h.queue m := rfl
@[simp] theorem House.onGain_player (n : Screen) (f : Gain → Gain) (h : House) (m : Screen) : (h.onGain n f).player m = h.player m := rfl
@[simp] theorem House.onGain_lot (n : Screen) (f : Gain → Gain) (h : House) (m : Screen) : (h.onGain n f).lot m = h.lot m := rfl
@[simp] theorem House.onGain_station (n : Screen) (f : Gain → Gain) (h : House) (m : StationId) : (h.onGain n f).station m = h.station m := rfl

@[simp] theorem House.onQueue_clock (n : Screen) (f : List Ann → List Ann) (h : House) : (h.onQueue n f).clock = h.clock := rfl
@[simp] theorem House.onQueue_timeUnset (n : Screen) (f : List Ann → List Ann) (h : House) : (h.onQueue n f).timeUnset = h.timeUnset := rfl
@[simp] theorem House.onQueue_out (n : Screen) (f : List Ann → List Ann) (h : House) : (h.onQueue n f).out = h.out := rfl
@[simp] theorem House.onQueue_cues (n : Screen) (f : List Ann → List Ann) (h : House) : (h.onQueue n f).cues = h.cues := rfl
@[simp] theorem House.onQueue_policy (n : Screen) (f : List Ann → List Ann) (h : House) : (h.onQueue n f).policy = h.policy := rfl
@[simp] theorem House.onQueue_maxLaneHold (n : Screen) (f : List Ann → List Ann) (h : House) : (h.onQueue n f).maxLaneHold = h.maxLaneHold := rfl
@[simp] theorem House.onQueue_lateLimit (n : Screen) (f : List Ann → List Ann) (h : House) : (h.onQueue n f).lateLimit = h.lateLimit := rfl
@[simp] theorem House.onQueue_shows (n : Screen) (f : List Ann → List Ann) (h : House) : (h.onQueue n f).shows = h.shows := rfl
@[simp] theorem House.onQueue_lines (n : Screen) (f : List Ann → List Ann) (h : House) : (h.onQueue n f).lines = h.lines := rfl
@[simp] theorem House.onQueue_gains (n : Screen) (f : List Ann → List Ann) (h : House) : (h.onQueue n f).gains = h.gains := rfl
@[simp] theorem House.onQueue_clips (n : Screen) (f : List Ann → List Ann) (h : House) : (h.onQueue n f).clips = h.clips := rfl
@[simp] theorem House.onQueue_callClips (n : Screen) (f : List Ann → List Ann) (h : House) : (h.onQueue n f).callClips = h.callClips := rfl
@[simp] theorem House.onQueue_classes (n : Screen) (f : List Ann → List Ann) (h : House) : (h.onQueue n f).classes = h.classes := rfl
@[simp] theorem House.onQueue_gap (n : Screen) (f : List Ann → List Ann) (h : House) : (h.onQueue n f).gap = h.gap := rfl
@[simp] theorem House.onQueue_routes (n : Screen) (f : List Ann → List Ann) (h : House) : (h.onQueue n f).routes = h.routes := rfl
@[simp] theorem House.onQueue_nextAnn (n : Screen) (f : List Ann → List Ann) (h : House) : (h.onQueue n f).nextAnn = h.nextAnn := rfl
theorem House.onQueue_queues (n : Screen) (f : List Ann → List Ann) (h : House) : (h.onQueue n f).queues = tmod h.queues n f := rfl
@[simp] theorem House.onQueue_players (n : Screen) (f : List Ann → List Ann) (h : House) : (h.onQueue n f).players = h.players := rfl
@[simp] theorem House.onQueue_lots (n : Screen) (f : List Ann → List Ann) (h : House) : (h.onQueue n f).lots = h.lots := rfl
@[simp] theorem House.onQueue_backlog (n : Screen) (f : List Ann → List Ann) (h : House) : (h.onQueue n f).backlog = h.backlog := rfl
@[simp] theorem House.onQueue_orders (n : Screen) (f : List Ann → List Ann) (h : House) : (h.onQueue n f).orders = h.orders := rfl
@[simp] theorem House.onQueue_nextNumber (n : Screen) (f : List Ann → List Ann) (h : House) : (h.onQueue n f).nextNumber = h.nextNumber := rfl
@[simp] theorem House.onQueue_nextSequence (n : Screen) (f : List Ann → List Ann) (h : House) : (h.onQueue n f).nextSequence = h.nextSequence := rfl
@[simp] theorem House.onQueue_orderPolicy (n : Screen) (f : List Ann → List Ann) (h : House) : (h.onQueue n f).orderPolicy = h.orderPolicy := rfl
@[simp] theorem House.onQueue_items (n : Screen) (f : List Ann → List Ann) (h : House) : (h.onQueue n f).items = h.items := rfl
@[simp] theorem House.onQueue_stations (n : Screen) (f : List Ann → List Ann) (h : House) : (h.onQueue n f).stations = h.stations := rfl
@[simp] theorem House.onQueue_nextJoin (n : Screen) (f : List Ann → List Ann) (h : House) : (h.onQueue n f).nextJoin = h.nextJoin := rfl
@[simp] theorem House.onQueue_nextCook (n : Screen) (f : List Ann → List Ann) (h : House) : (h.onQueue n f).nextCook = h.nextCook := rfl
@[simp] theorem House.onQueue_queue (n : Screen) (f : List Ann → List Ann) (h : House) : (h.onQueue n f).queue n = f (h.queue n) :=
  tget_tmod_self _ _ _
theorem House.onQueue_queue_ne (n m : Screen) (f : List Ann → List Ann) (h : House) (e : m ≠ n) : (h.onQueue n f).queue m = h.queue m :=
  tget_tmod_ne _ _ _ _ e
theorem House.onQueue_queue_any (n m : Screen) (f : List Ann → List Ann) (h : House) :
    (h.onQueue n f).queue m = if m = n then f (h.queue m) else h.queue m := tget_tmod _ _ _ _

@[simp] theorem House.onQueue_ctl (n : Screen) (f : List Ann → List Ann) (h : House) (m : Screen) : (h.onQueue n f).ctl m = h.ctl m := rfl
@[simp] theorem House.onQueue_line (n : Screen) (f : List Ann → List Ann) (h : House) (m : Screen) : (h.onQueue n f).line m = h.line m := rfl
@[simp] theorem House.onQueue_gain (n : Screen) (f : List Ann → List Ann) (h : House) (m : Screen) : (h.onQueue n f).gain m = h.gain m := rfl
@[simp] theorem House.onQueue_player (n : Screen) (f : List Ann → List Ann) (h : House) (m : Screen) : (h.onQueue n f).player m = h.player m := rfl
@[simp] theorem House.onQueue_lot (n : Screen) (f : List Ann → List Ann) (h : House) (m : Screen) : (h.onQueue n f).lot m = h.lot m := rfl
@[simp] theorem House.onQueue_station (n : Screen) (f : List Ann → List Ann) (h : House) (m : StationId) : (h.onQueue n f).station m = h.station m := rfl

@[simp] theorem House.onPlayer_clock (n : Screen) (f : Player → Player) (h : House) : (h.onPlayer n f).clock = h.clock := rfl
@[simp] theorem House.onPlayer_timeUnset (n : Screen) (f : Player → Player) (h : House) : (h.onPlayer n f).timeUnset = h.timeUnset := rfl
@[simp] theorem House.onPlayer_out (n : Screen) (f : Player → Player) (h : House) : (h.onPlayer n f).out = h.out := rfl
@[simp] theorem House.onPlayer_cues (n : Screen) (f : Player → Player) (h : House) : (h.onPlayer n f).cues = h.cues := rfl
@[simp] theorem House.onPlayer_policy (n : Screen) (f : Player → Player) (h : House) : (h.onPlayer n f).policy = h.policy := rfl
@[simp] theorem House.onPlayer_maxLaneHold (n : Screen) (f : Player → Player) (h : House) : (h.onPlayer n f).maxLaneHold = h.maxLaneHold := rfl
@[simp] theorem House.onPlayer_lateLimit (n : Screen) (f : Player → Player) (h : House) : (h.onPlayer n f).lateLimit = h.lateLimit := rfl
@[simp] theorem House.onPlayer_shows (n : Screen) (f : Player → Player) (h : House) : (h.onPlayer n f).shows = h.shows := rfl
@[simp] theorem House.onPlayer_lines (n : Screen) (f : Player → Player) (h : House) : (h.onPlayer n f).lines = h.lines := rfl
@[simp] theorem House.onPlayer_gains (n : Screen) (f : Player → Player) (h : House) : (h.onPlayer n f).gains = h.gains := rfl
@[simp] theorem House.onPlayer_clips (n : Screen) (f : Player → Player) (h : House) : (h.onPlayer n f).clips = h.clips := rfl
@[simp] theorem House.onPlayer_callClips (n : Screen) (f : Player → Player) (h : House) : (h.onPlayer n f).callClips = h.callClips := rfl
@[simp] theorem House.onPlayer_classes (n : Screen) (f : Player → Player) (h : House) : (h.onPlayer n f).classes = h.classes := rfl
@[simp] theorem House.onPlayer_gap (n : Screen) (f : Player → Player) (h : House) : (h.onPlayer n f).gap = h.gap := rfl
@[simp] theorem House.onPlayer_routes (n : Screen) (f : Player → Player) (h : House) : (h.onPlayer n f).routes = h.routes := rfl
@[simp] theorem House.onPlayer_nextAnn (n : Screen) (f : Player → Player) (h : House) : (h.onPlayer n f).nextAnn = h.nextAnn := rfl
@[simp] theorem House.onPlayer_queues (n : Screen) (f : Player → Player) (h : House) : (h.onPlayer n f).queues = h.queues := rfl
theorem House.onPlayer_players (n : Screen) (f : Player → Player) (h : House) : (h.onPlayer n f).players = tmod h.players n f := rfl
@[simp] theorem House.onPlayer_lots (n : Screen) (f : Player → Player) (h : House) : (h.onPlayer n f).lots = h.lots := rfl
@[simp] theorem House.onPlayer_backlog (n : Screen) (f : Player → Player) (h : House) : (h.onPlayer n f).backlog = h.backlog := rfl
@[simp] theorem House.onPlayer_orders (n : Screen) (f : Player → Player) (h : House) : (h.onPlayer n f).orders = h.orders := rfl
@[simp] theorem House.onPlayer_nextNumber (n : Screen) (f : Player → Player) (h : House) : (h.onPlayer n f).nextNumber = h.nextNumber := rfl
@[simp] theorem House.onPlayer_nextSequence (n : Screen) (f : Player → Player) (h : House) : (h.onPlayer n f).nextSequence = h.nextSequence := rfl
@[simp] theorem House.onPlayer_orderPolicy (n : Screen) (f : Player → Player) (h : House) : (h.onPlayer n f).orderPolicy = h.orderPolicy := rfl
@[simp] theorem House.onPlayer_items (n : Screen) (f : Player → Player) (h : House) : (h.onPlayer n f).items = h.items := rfl
@[simp] theorem House.onPlayer_stations (n : Screen) (f : Player → Player) (h : House) : (h.onPlayer n f).stations = h.stations := rfl
@[simp] theorem House.onPlayer_nextJoin (n : Screen) (f : Player → Player) (h : House) : (h.onPlayer n f).nextJoin = h.nextJoin := rfl
@[simp] theorem House.onPlayer_nextCook (n : Screen) (f : Player → Player) (h : House) : (h.onPlayer n f).nextCook = h.nextCook := rfl
@[simp] theorem House.onPlayer_player (n : Screen) (f : Player → Player) (h : House) : (h.onPlayer n f).player n = f (h.player n) :=
  tget_tmod_self _ _ _
theorem House.onPlayer_player_ne (n m : Screen) (f : Player → Player) (h : House) (e : m ≠ n) : (h.onPlayer n f).player m = h.player m :=
  tget_tmod_ne _ _ _ _ e
theorem House.onPlayer_player_any (n m : Screen) (f : Player → Player) (h : House) :
    (h.onPlayer n f).player m = if m = n then f (h.player m) else h.player m := tget_tmod _ _ _ _

@[simp] theorem House.onPlayer_ctl (n : Screen) (f : Player → Player) (h : House) (m : Screen) : (h.onPlayer n f).ctl m = h.ctl m := rfl
@[simp] theorem House.onPlayer_line (n : Screen) (f : Player → Player) (h : House) (m : Screen) : (h.onPlayer n f).line m = h.line m := rfl
@[simp] theorem House.onPlayer_gain (n : Screen) (f : Player → Player) (h : House) (m : Screen) : (h.onPlayer n f).gain m = h.gain m := rfl
@[simp] theorem House.onPlayer_queue (n : Screen) (f : Player → Player) (h : House) (m : Screen) : (h.onPlayer n f).queue m = h.queue m := rfl
@[simp] theorem House.onPlayer_lot (n : Screen) (f : Player → Player) (h : House) (m : Screen) : (h.onPlayer n f).lot m = h.lot m := rfl
@[simp] theorem House.onPlayer_station (n : Screen) (f : Player → Player) (h : House) (m : StationId) : (h.onPlayer n f).station m = h.station m := rfl

@[simp] theorem House.onLot_clock (n : Screen) (f : Lot → Lot) (h : House) : (h.onLot n f).clock = h.clock := rfl
@[simp] theorem House.onLot_timeUnset (n : Screen) (f : Lot → Lot) (h : House) : (h.onLot n f).timeUnset = h.timeUnset := rfl
@[simp] theorem House.onLot_out (n : Screen) (f : Lot → Lot) (h : House) : (h.onLot n f).out = h.out := rfl
@[simp] theorem House.onLot_cues (n : Screen) (f : Lot → Lot) (h : House) : (h.onLot n f).cues = h.cues := rfl
@[simp] theorem House.onLot_policy (n : Screen) (f : Lot → Lot) (h : House) : (h.onLot n f).policy = h.policy := rfl
@[simp] theorem House.onLot_maxLaneHold (n : Screen) (f : Lot → Lot) (h : House) : (h.onLot n f).maxLaneHold = h.maxLaneHold := rfl
@[simp] theorem House.onLot_lateLimit (n : Screen) (f : Lot → Lot) (h : House) : (h.onLot n f).lateLimit = h.lateLimit := rfl
@[simp] theorem House.onLot_shows (n : Screen) (f : Lot → Lot) (h : House) : (h.onLot n f).shows = h.shows := rfl
@[simp] theorem House.onLot_lines (n : Screen) (f : Lot → Lot) (h : House) : (h.onLot n f).lines = h.lines := rfl
@[simp] theorem House.onLot_gains (n : Screen) (f : Lot → Lot) (h : House) : (h.onLot n f).gains = h.gains := rfl
@[simp] theorem House.onLot_clips (n : Screen) (f : Lot → Lot) (h : House) : (h.onLot n f).clips = h.clips := rfl
@[simp] theorem House.onLot_callClips (n : Screen) (f : Lot → Lot) (h : House) : (h.onLot n f).callClips = h.callClips := rfl
@[simp] theorem House.onLot_classes (n : Screen) (f : Lot → Lot) (h : House) : (h.onLot n f).classes = h.classes := rfl
@[simp] theorem House.onLot_gap (n : Screen) (f : Lot → Lot) (h : House) : (h.onLot n f).gap = h.gap := rfl
@[simp] theorem House.onLot_routes (n : Screen) (f : Lot → Lot) (h : House) : (h.onLot n f).routes = h.routes := rfl
@[simp] theorem House.onLot_nextAnn (n : Screen) (f : Lot → Lot) (h : House) : (h.onLot n f).nextAnn = h.nextAnn := rfl
@[simp] theorem House.onLot_queues (n : Screen) (f : Lot → Lot) (h : House) : (h.onLot n f).queues = h.queues := rfl
@[simp] theorem House.onLot_players (n : Screen) (f : Lot → Lot) (h : House) : (h.onLot n f).players = h.players := rfl
theorem House.onLot_lots (n : Screen) (f : Lot → Lot) (h : House) : (h.onLot n f).lots = tmod h.lots n f := rfl
@[simp] theorem House.onLot_backlog (n : Screen) (f : Lot → Lot) (h : House) : (h.onLot n f).backlog = h.backlog := rfl
@[simp] theorem House.onLot_orders (n : Screen) (f : Lot → Lot) (h : House) : (h.onLot n f).orders = h.orders := rfl
@[simp] theorem House.onLot_nextNumber (n : Screen) (f : Lot → Lot) (h : House) : (h.onLot n f).nextNumber = h.nextNumber := rfl
@[simp] theorem House.onLot_nextSequence (n : Screen) (f : Lot → Lot) (h : House) : (h.onLot n f).nextSequence = h.nextSequence := rfl
@[simp] theorem House.onLot_orderPolicy (n : Screen) (f : Lot → Lot) (h : House) : (h.onLot n f).orderPolicy = h.orderPolicy := rfl
@[simp] theorem House.onLot_items (n : Screen) (f : Lot → Lot) (h : House) : (h.onLot n f).items = h.items := rfl
@[simp] theorem House.onLot_stations (n : Screen) (f : Lot → Lot) (h : House) : (h.onLot n f).stations = h.stations := rfl
@[simp] theorem House.onLot_nextJoin (n : Screen) (f : Lot → Lot) (h : House) : (h.onLot n f).nextJoin = h.nextJoin := rfl
@[simp] theorem House.onLot_nextCook (n : Screen) (f : Lot → Lot) (h : House) : (h.onLot n f).nextCook = h.nextCook := rfl
@[simp] theorem House.onLot_lot (n : Screen) (f : Lot → Lot) (h : House) : (h.onLot n f).lot n = f (h.lot n) :=
  tget_tmod_self _ _ _
theorem House.onLot_lot_ne (n m : Screen) (f : Lot → Lot) (h : House) (e : m ≠ n) : (h.onLot n f).lot m = h.lot m :=
  tget_tmod_ne _ _ _ _ e
theorem House.onLot_lot_any (n m : Screen) (f : Lot → Lot) (h : House) :
    (h.onLot n f).lot m = if m = n then f (h.lot m) else h.lot m := tget_tmod _ _ _ _

@[simp] theorem House.onLot_ctl (n : Screen) (f : Lot → Lot) (h : House) (m : Screen) : (h.onLot n f).ctl m = h.ctl m := rfl
@[simp] theorem House.onLot_line (n : Screen) (f : Lot → Lot) (h : House) (m : Screen) : (h.onLot n f).line m = h.line m := rfl
@[simp] theorem House.onLot_gain (n : Screen) (f : Lot → Lot) (h : House) (m : Screen) : (h.onLot n f).gain m = h.gain m := rfl
@[simp] theorem House.onLot_queue (n : Screen) (f : Lot → Lot) (h : House) (m : Screen) : (h.onLot n f).queue m = h.queue m := rfl
@[simp] theorem House.onLot_player (n : Screen) (f : Lot → Lot) (h : House) (m : Screen) : (h.onLot n f).player m = h.player m := rfl
@[simp] theorem House.onLot_station (n : Screen) (f : Lot → Lot) (h : House) (m : StationId) : (h.onLot n f).station m = h.station m := rfl

@[simp] theorem House.onStation_clock (n : StationId) (f : Station → Station) (h : House) : (h.onStation n f).clock = h.clock := rfl
@[simp] theorem House.onStation_timeUnset (n : StationId) (f : Station → Station) (h : House) : (h.onStation n f).timeUnset = h.timeUnset := rfl
@[simp] theorem House.onStation_out (n : StationId) (f : Station → Station) (h : House) : (h.onStation n f).out = h.out := rfl
@[simp] theorem House.onStation_cues (n : StationId) (f : Station → Station) (h : House) : (h.onStation n f).cues = h.cues := rfl
@[simp] theorem House.onStation_policy (n : StationId) (f : Station → Station) (h : House) : (h.onStation n f).policy = h.policy := rfl
@[simp] theorem House.onStation_maxLaneHold (n : StationId) (f : Station → Station) (h : House) : (h.onStation n f).maxLaneHold = h.maxLaneHold := rfl
@[simp] theorem House.onStation_lateLimit (n : StationId) (f : Station → Station) (h : House) : (h.onStation n f).lateLimit = h.lateLimit := rfl
@[simp] theorem House.onStation_shows (n : StationId) (f : Station → Station) (h : House) : (h.onStation n f).shows = h.shows := rfl
@[simp] theorem House.onStation_lines (n : StationId) (f : Station → Station) (h : House) : (h.onStation n f).lines = h.lines := rfl
@[simp] theorem House.onStation_gains (n : StationId) (f : Station → Station) (h : House) : (h.onStation n f).gains = h.gains := rfl
@[simp] theorem House.onStation_clips (n : StationId) (f : Station → Station) (h : House) : (h.onStation n f).clips = h.clips := rfl
@[simp] theorem House.onStation_callClips (n : StationId) (f : Station → Station) (h : House) : (h.onStation n f).callClips = h.callClips := rfl
@[simp] theorem House.onStation_classes (n : StationId) (f : Station → Station) (h : House) : (h.onStation n f).classes = h.classes := rfl
@[simp] theorem House.onStation_gap (n : StationId) (f : Station → Station) (h : House) : (h.onStation n f).gap = h.gap := rfl
@[simp] theorem House.onStation_routes (n : StationId) (f : Station → Station) (h : House) : (h.onStation n f).routes = h.routes := rfl
@[simp] theorem House.onStation_nextAnn (n : StationId) (f : Station → Station) (h : House) : (h.onStation n f).nextAnn = h.nextAnn := rfl
@[simp] theorem House.onStation_queues (n : StationId) (f : Station → Station) (h : House) : (h.onStation n f).queues = h.queues := rfl
@[simp] theorem House.onStation_players (n : StationId) (f : Station → Station) (h : House) : (h.onStation n f).players = h.players := rfl
@[simp] theorem House.onStation_lots (n : StationId) (f : Station → Station) (h : House) : (h.onStation n f).lots = h.lots := rfl
@[simp] theorem House.onStation_backlog (n : StationId) (f : Station → Station) (h : House) : (h.onStation n f).backlog = h.backlog := rfl
@[simp] theorem House.onStation_orders (n : StationId) (f : Station → Station) (h : House) : (h.onStation n f).orders = h.orders := rfl
@[simp] theorem House.onStation_nextNumber (n : StationId) (f : Station → Station) (h : House) : (h.onStation n f).nextNumber = h.nextNumber := rfl
@[simp] theorem House.onStation_nextSequence (n : StationId) (f : Station → Station) (h : House) : (h.onStation n f).nextSequence = h.nextSequence := rfl
@[simp] theorem House.onStation_orderPolicy (n : StationId) (f : Station → Station) (h : House) : (h.onStation n f).orderPolicy = h.orderPolicy := rfl
@[simp] theorem House.onStation_items (n : StationId) (f : Station → Station) (h : House) : (h.onStation n f).items = h.items := rfl
theorem House.onStation_stations (n : StationId) (f : Station → Station) (h : House) : (h.onStation n f).stations = tmod h.stations n f := rfl
@[simp] theorem House.onStation_nextJoin (n : StationId) (f : Station → Station) (h : House) : (h.onStation n f).nextJoin = h.nextJoin := rfl
@[simp] theorem House.onStation_nextCook (n : StationId) (f : Station → Station) (h : House) : (h.onStation n f).nextCook = h.nextCook := rfl
@[simp] theorem House.onStation_station (n : StationId) (f : Station → Station) (h : House) : (h.onStation n f).station n = f (h.station n) :=
  tget_tmod_self _ _ _
theorem House.onStation_station_ne (n m : StationId) (f : Station → Station) (h : House) (e : m ≠ n) : (h.onStation n f).station m = h.station m :=
  tget_tmod_ne _ _ _ _ e
theorem House.onStation_station_any (n m : StationId) (f : Station → Station) (h : House) :
    (h.onStation n f).station m = if m = n then f (h.station m) else h.station m := tget_tmod _ _ _ _

@[simp] theorem House.onStation_ctl (n : StationId) (f : Station → Station) (h : House) (m : Screen) : (h.onStation n f).ctl m = h.ctl m := rfl
@[simp] theorem House.onStation_line (n : StationId) (f : Station → Station) (h : House) (m : Screen) : (h.onStation n f).line m = h.line m := rfl
@[simp] theorem House.onStation_gain (n : StationId) (f : Station → Station) (h : House) (m : Screen) : (h.onStation n f).gain m = h.gain m := rfl
@[simp] theorem House.onStation_queue (n : StationId) (f : Station → Station) (h : House) (m : Screen) : (h.onStation n f).queue m = h.queue m := rfl
@[simp] theorem House.onStation_player (n : StationId) (f : Station → Station) (h : House) (m : Screen) : (h.onStation n f).player m = h.player m := rfl
@[simp] theorem House.onStation_lot (n : StationId) (f : Station → Station) (h : House) (m : Screen) : (h.onStation n f).lot m = h.lot m := rfl

/-! ### A notice touches only the notice side -/

@[simp] theorem House.notify_clock (k : Subkind) (fs : List Field) (h : House) : (h.notify k fs).clock = h.clock := rfl
@[simp] theorem House.notify_timeUnset (k : Subkind) (fs : List Field) (h : House) : (h.notify k fs).timeUnset = h.timeUnset := rfl
theorem House.notify_out (k : Subkind) (fs : List Field) (h : House) : (h.notify k fs).out = h.out.push { kind := k, time := h.clock, fields := fs } := rfl
@[simp] theorem House.notify_cues (k : Subkind) (fs : List Field) (h : House) : (h.notify k fs).cues = h.cues := rfl
@[simp] theorem House.notify_policy (k : Subkind) (fs : List Field) (h : House) : (h.notify k fs).policy = h.policy := rfl
@[simp] theorem House.notify_maxLaneHold (k : Subkind) (fs : List Field) (h : House) : (h.notify k fs).maxLaneHold = h.maxLaneHold := rfl
@[simp] theorem House.notify_lateLimit (k : Subkind) (fs : List Field) (h : House) : (h.notify k fs).lateLimit = h.lateLimit := rfl
@[simp] theorem House.notify_shows (k : Subkind) (fs : List Field) (h : House) : (h.notify k fs).shows = h.shows := rfl
@[simp] theorem House.notify_lines (k : Subkind) (fs : List Field) (h : House) : (h.notify k fs).lines = h.lines := rfl
@[simp] theorem House.notify_gains (k : Subkind) (fs : List Field) (h : House) : (h.notify k fs).gains = h.gains := rfl
@[simp] theorem House.notify_clips (k : Subkind) (fs : List Field) (h : House) : (h.notify k fs).clips = h.clips := rfl
@[simp] theorem House.notify_callClips (k : Subkind) (fs : List Field) (h : House) : (h.notify k fs).callClips = h.callClips := rfl
@[simp] theorem House.notify_classes (k : Subkind) (fs : List Field) (h : House) : (h.notify k fs).classes = h.classes := rfl
@[simp] theorem House.notify_gap (k : Subkind) (fs : List Field) (h : House) : (h.notify k fs).gap = h.gap := rfl
@[simp] theorem House.notify_routes (k : Subkind) (fs : List Field) (h : House) : (h.notify k fs).routes = h.routes := rfl
@[simp] theorem House.notify_nextAnn (k : Subkind) (fs : List Field) (h : House) : (h.notify k fs).nextAnn = h.nextAnn := rfl
@[simp] theorem House.notify_queues (k : Subkind) (fs : List Field) (h : House) : (h.notify k fs).queues = h.queues := rfl
@[simp] theorem House.notify_players (k : Subkind) (fs : List Field) (h : House) : (h.notify k fs).players = h.players := rfl
@[simp] theorem House.notify_lots (k : Subkind) (fs : List Field) (h : House) : (h.notify k fs).lots = h.lots := rfl
@[simp] theorem House.notify_backlog (k : Subkind) (fs : List Field) (h : House) : (h.notify k fs).backlog = h.backlog := rfl
@[simp] theorem House.notify_orders (k : Subkind) (fs : List Field) (h : House) : (h.notify k fs).orders = h.orders := rfl
@[simp] theorem House.notify_nextNumber (k : Subkind) (fs : List Field) (h : House) : (h.notify k fs).nextNumber = h.nextNumber := rfl
@[simp] theorem House.notify_nextSequence (k : Subkind) (fs : List Field) (h : House) : (h.notify k fs).nextSequence = h.nextSequence := rfl
@[simp] theorem House.notify_orderPolicy (k : Subkind) (fs : List Field) (h : House) : (h.notify k fs).orderPolicy = h.orderPolicy := rfl
@[simp] theorem House.notify_items (k : Subkind) (fs : List Field) (h : House) : (h.notify k fs).items = h.items := rfl
@[simp] theorem House.notify_stations (k : Subkind) (fs : List Field) (h : House) : (h.notify k fs).stations = h.stations := rfl
@[simp] theorem House.notify_nextJoin (k : Subkind) (fs : List Field) (h : House) : (h.notify k fs).nextJoin = h.nextJoin := rfl
@[simp] theorem House.notify_nextCook (k : Subkind) (fs : List Field) (h : House) : (h.notify k fs).nextCook = h.nextCook := rfl
@[simp] theorem House.notify_ctl (k : Subkind) (fs : List Field) (h : House) (m : Screen) : (h.notify k fs).ctl m = h.ctl m := rfl
@[simp] theorem House.notify_line (k : Subkind) (fs : List Field) (h : House) (m : Screen) : (h.notify k fs).line m = h.line m := rfl
@[simp] theorem House.notify_gain (k : Subkind) (fs : List Field) (h : House) (m : Screen) : (h.notify k fs).gain m = h.gain m := rfl
@[simp] theorem House.notify_queue (k : Subkind) (fs : List Field) (h : House) (m : Screen) : (h.notify k fs).queue m = h.queue m := rfl
@[simp] theorem House.notify_player (k : Subkind) (fs : List Field) (h : House) (m : Screen) : (h.notify k fs).player m = h.player m := rfl
@[simp] theorem House.notify_lot (k : Subkind) (fs : List Field) (h : House) (m : Screen) : (h.notify k fs).lot m = h.lot m := rfl
@[simp] theorem House.notify_station (k : Subkind) (fs : List Field) (h : House) (m : StationId) : (h.notify k fs).station m = h.station m := rfl

/-! ### The fields of the machine after an update -/

@[simp] theorem State.onHouse_house (f : House → House) (s : State) : (s.onHouse f).house = f s.house := rfl
@[simp] theorem State.onHouse_lanes (f : House → House) (s : State) : (s.onHouse f).lanes = s.lanes := rfl
@[simp] theorem State.onHouse_exits (f : House → House) (s : State) : (s.onHouse f).exits = s.exits := rfl
@[simp] theorem State.onHouse_present (f : House → House) (s : State) : (s.onHouse f).present = s.present := rfl
@[simp] theorem State.onHouse_channels (f : House → House) (s : State) : (s.onHouse f).channels = s.channels := rfl
@[simp] theorem State.onHouse_units (f : House → House) (s : State) : (s.onHouse f).units = s.units := rfl
@[simp] theorem State.onHouse_stagedUnits (f : House → House) (s : State) : (s.onHouse f).stagedUnits = s.stagedUnits := rfl
@[simp] theorem State.onHouse_monitor (f : House → House) (s : State) : (s.onHouse f).monitor = s.monitor := rfl
@[simp] theorem State.onHouse_stagedMonitor (f : House → House) (s : State) : (s.onHouse f).stagedMonitor = s.stagedMonitor := rfl
@[simp] theorem State.onHouse_mon (f : House → House) (s : State) : (s.onHouse f).mon = s.mon := rfl
@[simp] theorem State.onHouse_dram (f : House → House) (s : State) : (s.onHouse f).dram = s.dram := rfl
@[simp] theorem State.onHouse_link (f : House → House) (s : State) : (s.onHouse f).link = s.link := rfl
@[simp] theorem State.onHouse_draws (f : House → House) (s : State) : (s.onHouse f).draws = s.draws := rfl
@[simp] theorem State.onHouse_pending (f : House → House) (s : State) : (s.onHouse f).pending = s.pending := rfl
@[simp] theorem State.onHouse_lane (f : House → House) (s : State) (j : EntryId) : (s.onHouse f).lane j = s.lane j := rfl
@[simp] theorem State.onHouse_exitLane (f : House → House) (s : State) (j : ExitId) : (s.onHouse f).exitLane j = s.exitLane j := rfl
@[simp] theorem State.onHouse_channel (f : House → House) (s : State) (j : Screen) : (s.onHouse f).channel j = s.channel j := rfl

@[simp] theorem State.onLink_house (f : Link → Link) (s : State) : (s.onLink f).house = s.house := rfl
@[simp] theorem State.onLink_lanes (f : Link → Link) (s : State) : (s.onLink f).lanes = s.lanes := rfl
@[simp] theorem State.onLink_exits (f : Link → Link) (s : State) : (s.onLink f).exits = s.exits := rfl
@[simp] theorem State.onLink_present (f : Link → Link) (s : State) : (s.onLink f).present = s.present := rfl
@[simp] theorem State.onLink_channels (f : Link → Link) (s : State) : (s.onLink f).channels = s.channels := rfl
@[simp] theorem State.onLink_units (f : Link → Link) (s : State) : (s.onLink f).units = s.units := rfl
@[simp] theorem State.onLink_stagedUnits (f : Link → Link) (s : State) : (s.onLink f).stagedUnits = s.stagedUnits := rfl
@[simp] theorem State.onLink_monitor (f : Link → Link) (s : State) : (s.onLink f).monitor = s.monitor := rfl
@[simp] theorem State.onLink_stagedMonitor (f : Link → Link) (s : State) : (s.onLink f).stagedMonitor = s.stagedMonitor := rfl
@[simp] theorem State.onLink_mon (f : Link → Link) (s : State) : (s.onLink f).mon = s.mon := rfl
@[simp] theorem State.onLink_dram (f : Link → Link) (s : State) : (s.onLink f).dram = s.dram := rfl
@[simp] theorem State.onLink_link (f : Link → Link) (s : State) : (s.onLink f).link = f s.link := rfl
@[simp] theorem State.onLink_draws (f : Link → Link) (s : State) : (s.onLink f).draws = s.draws := rfl
@[simp] theorem State.onLink_pending (f : Link → Link) (s : State) : (s.onLink f).pending = s.pending := rfl
@[simp] theorem State.onLink_lane (f : Link → Link) (s : State) (j : EntryId) : (s.onLink f).lane j = s.lane j := rfl
@[simp] theorem State.onLink_exitLane (f : Link → Link) (s : State) (j : ExitId) : (s.onLink f).exitLane j = s.exitLane j := rfl
@[simp] theorem State.onLink_channel (f : Link → Link) (s : State) (j : Screen) : (s.onLink f).channel j = s.channel j := rfl

@[simp] theorem State.onLane_house (k : EntryId) (f : EntryLane → EntryLane) (s : State) : (s.onLane k f).house = s.house := rfl
theorem State.onLane_lanes (k : EntryId) (f : EntryLane → EntryLane) (s : State) : (s.onLane k f).lanes = tmod s.lanes k f := rfl
@[simp] theorem State.onLane_exits (k : EntryId) (f : EntryLane → EntryLane) (s : State) : (s.onLane k f).exits = s.exits := rfl
@[simp] theorem State.onLane_present (k : EntryId) (f : EntryLane → EntryLane) (s : State) : (s.onLane k f).present = s.present := rfl
@[simp] theorem State.onLane_channels (k : EntryId) (f : EntryLane → EntryLane) (s : State) : (s.onLane k f).channels = s.channels := rfl
@[simp] theorem State.onLane_units (k : EntryId) (f : EntryLane → EntryLane) (s : State) : (s.onLane k f).units = s.units := rfl
@[simp] theorem State.onLane_stagedUnits (k : EntryId) (f : EntryLane → EntryLane) (s : State) : (s.onLane k f).stagedUnits = s.stagedUnits := rfl
@[simp] theorem State.onLane_monitor (k : EntryId) (f : EntryLane → EntryLane) (s : State) : (s.onLane k f).monitor = s.monitor := rfl
@[simp] theorem State.onLane_stagedMonitor (k : EntryId) (f : EntryLane → EntryLane) (s : State) : (s.onLane k f).stagedMonitor = s.stagedMonitor := rfl
@[simp] theorem State.onLane_mon (k : EntryId) (f : EntryLane → EntryLane) (s : State) : (s.onLane k f).mon = s.mon := rfl
@[simp] theorem State.onLane_dram (k : EntryId) (f : EntryLane → EntryLane) (s : State) : (s.onLane k f).dram = s.dram := rfl
@[simp] theorem State.onLane_link (k : EntryId) (f : EntryLane → EntryLane) (s : State) : (s.onLane k f).link = s.link := rfl
@[simp] theorem State.onLane_draws (k : EntryId) (f : EntryLane → EntryLane) (s : State) : (s.onLane k f).draws = s.draws := rfl
@[simp] theorem State.onLane_pending (k : EntryId) (f : EntryLane → EntryLane) (s : State) : (s.onLane k f).pending = s.pending := rfl
@[simp] theorem State.onLane_lane (k : EntryId) (f : EntryLane → EntryLane) (s : State) : (s.onLane k f).lane k = f (s.lane k) :=
  tget_tmod_self _ _ _
theorem State.onLane_lane_ne (k j : EntryId) (f : EntryLane → EntryLane) (s : State) (e : j ≠ k) : (s.onLane k f).lane j = s.lane j :=
  tget_tmod_ne _ _ _ _ e
theorem State.onLane_lane_any (k j : EntryId) (f : EntryLane → EntryLane) (s : State) :
    (s.onLane k f).lane j = if j = k then f (s.lane j) else s.lane j := tget_tmod _ _ _ _

@[simp] theorem State.onLane_exitLane (k : EntryId) (f : EntryLane → EntryLane) (s : State) (j : ExitId) : (s.onLane k f).exitLane j = s.exitLane j := rfl
@[simp] theorem State.onLane_channel (k : EntryId) (f : EntryLane → EntryLane) (s : State) (j : Screen) : (s.onLane k f).channel j = s.channel j := rfl

@[simp] theorem State.onExit_house (k : ExitId) (f : ExitLane → ExitLane) (s : State) : (s.onExit k f).house = s.house := rfl
@[simp] theorem State.onExit_lanes (k : ExitId) (f : ExitLane → ExitLane) (s : State) : (s.onExit k f).lanes = s.lanes := rfl
theorem State.onExit_exits (k : ExitId) (f : ExitLane → ExitLane) (s : State) : (s.onExit k f).exits = tmod s.exits k f := rfl
@[simp] theorem State.onExit_present (k : ExitId) (f : ExitLane → ExitLane) (s : State) : (s.onExit k f).present = s.present := rfl
@[simp] theorem State.onExit_channels (k : ExitId) (f : ExitLane → ExitLane) (s : State) : (s.onExit k f).channels = s.channels := rfl
@[simp] theorem State.onExit_units (k : ExitId) (f : ExitLane → ExitLane) (s : State) : (s.onExit k f).units = s.units := rfl
@[simp] theorem State.onExit_stagedUnits (k : ExitId) (f : ExitLane → ExitLane) (s : State) : (s.onExit k f).stagedUnits = s.stagedUnits := rfl
@[simp] theorem State.onExit_monitor (k : ExitId) (f : ExitLane → ExitLane) (s : State) : (s.onExit k f).monitor = s.monitor := rfl
@[simp] theorem State.onExit_stagedMonitor (k : ExitId) (f : ExitLane → ExitLane) (s : State) : (s.onExit k f).stagedMonitor = s.stagedMonitor := rfl
@[simp] theorem State.onExit_mon (k : ExitId) (f : ExitLane → ExitLane) (s : State) : (s.onExit k f).mon = s.mon := rfl
@[simp] theorem State.onExit_dram (k : ExitId) (f : ExitLane → ExitLane) (s : State) : (s.onExit k f).dram = s.dram := rfl
@[simp] theorem State.onExit_link (k : ExitId) (f : ExitLane → ExitLane) (s : State) : (s.onExit k f).link = s.link := rfl
@[simp] theorem State.onExit_draws (k : ExitId) (f : ExitLane → ExitLane) (s : State) : (s.onExit k f).draws = s.draws := rfl
@[simp] theorem State.onExit_pending (k : ExitId) (f : ExitLane → ExitLane) (s : State) : (s.onExit k f).pending = s.pending := rfl
@[simp] theorem State.onExit_exitLane (k : ExitId) (f : ExitLane → ExitLane) (s : State) : (s.onExit k f).exitLane k = f (s.exitLane k) :=
  tget_tmod_self _ _ _
theorem State.onExit_exitLane_ne (k j : ExitId) (f : ExitLane → ExitLane) (s : State) (e : j ≠ k) : (s.onExit k f).exitLane j = s.exitLane j :=
  tget_tmod_ne _ _ _ _ e
theorem State.onExit_exitLane_any (k j : ExitId) (f : ExitLane → ExitLane) (s : State) :
    (s.onExit k f).exitLane j = if j = k then f (s.exitLane j) else s.exitLane j := tget_tmod _ _ _ _

@[simp] theorem State.onExit_lane (k : ExitId) (f : ExitLane → ExitLane) (s : State) (j : EntryId) : (s.onExit k f).lane j = s.lane j := rfl
@[simp] theorem State.onExit_channel (k : ExitId) (f : ExitLane → ExitLane) (s : State) (j : Screen) : (s.onExit k f).channel j = s.channel j := rfl

@[simp] theorem State.onChannel_house (k : Screen) (f : Channel → Channel) (s : State) : (s.onChannel k f).house = s.house := rfl
@[simp] theorem State.onChannel_lanes (k : Screen) (f : Channel → Channel) (s : State) : (s.onChannel k f).lanes = s.lanes := rfl
@[simp] theorem State.onChannel_exits (k : Screen) (f : Channel → Channel) (s : State) : (s.onChannel k f).exits = s.exits := rfl
@[simp] theorem State.onChannel_present (k : Screen) (f : Channel → Channel) (s : State) : (s.onChannel k f).present = s.present := rfl
theorem State.onChannel_channels (k : Screen) (f : Channel → Channel) (s : State) : (s.onChannel k f).channels = tmod s.channels k f := rfl
@[simp] theorem State.onChannel_units (k : Screen) (f : Channel → Channel) (s : State) : (s.onChannel k f).units = s.units := rfl
@[simp] theorem State.onChannel_stagedUnits (k : Screen) (f : Channel → Channel) (s : State) : (s.onChannel k f).stagedUnits = s.stagedUnits := rfl
@[simp] theorem State.onChannel_monitor (k : Screen) (f : Channel → Channel) (s : State) : (s.onChannel k f).monitor = s.monitor := rfl
@[simp] theorem State.onChannel_stagedMonitor (k : Screen) (f : Channel → Channel) (s : State) : (s.onChannel k f).stagedMonitor = s.stagedMonitor := rfl
@[simp] theorem State.onChannel_mon (k : Screen) (f : Channel → Channel) (s : State) : (s.onChannel k f).mon = s.mon := rfl
@[simp] theorem State.onChannel_dram (k : Screen) (f : Channel → Channel) (s : State) : (s.onChannel k f).dram = s.dram := rfl
@[simp] theorem State.onChannel_link (k : Screen) (f : Channel → Channel) (s : State) : (s.onChannel k f).link = s.link := rfl
@[simp] theorem State.onChannel_draws (k : Screen) (f : Channel → Channel) (s : State) : (s.onChannel k f).draws = s.draws := rfl
@[simp] theorem State.onChannel_pending (k : Screen) (f : Channel → Channel) (s : State) : (s.onChannel k f).pending = s.pending := rfl
@[simp] theorem State.onChannel_channel (k : Screen) (f : Channel → Channel) (s : State) : (s.onChannel k f).channel k = f (s.channel k) :=
  tget_tmod_self _ _ _
theorem State.onChannel_channel_ne (k j : Screen) (f : Channel → Channel) (s : State) (e : j ≠ k) : (s.onChannel k f).channel j = s.channel j :=
  tget_tmod_ne _ _ _ _ e
theorem State.onChannel_channel_any (k j : Screen) (f : Channel → Channel) (s : State) :
    (s.onChannel k f).channel j = if j = k then f (s.channel j) else s.channel j := tget_tmod _ _ _ _

@[simp] theorem State.onChannel_lane (k : Screen) (f : Channel → Channel) (s : State) (j : EntryId) : (s.onChannel k f).lane j = s.lane j := rfl
@[simp] theorem State.onChannel_exitLane (k : Screen) (f : Channel → Channel) (s : State) (j : ExitId) : (s.onChannel k f).exitLane j = s.exitLane j := rfl

end Machine
end Sys2Proof
end

