-- ==== Sys2Proof/Laws/Sound.lean ====
section
/-! SUPPORT. What announcements, calls, tickets and orders can do to the house (chapters 4, 8 and 9), said once:
`House.Sound h h'` holds when `h'` comes from `h` by a chain of the small changes named below. Every operation of
Calls.lean and Kitchen.lean is such a chain, so a property of the house that each small change keeps is kept by all of
them. -/

set_option autoImplicit false

namespace Sys2Proof
namespace Machine

/-- A change of an order record that leaves its number, its stall and its lines as they are. -/
def Order.SameIdentity (f : Order → Order) : Prop :=
  ∀ o, (f o).number = o.number ∧ (f o).screen = o.screen ∧ (f o).row = o.row ∧ (f o).position = o.position
    ∧ (f o).lines = o.lines

/-- The chains of small changes that announcements, calls, tickets and orders make. -/
inductive House.Sound : House → House → Prop where
  | refl (h : House) : Sound h h
  | trans {a b c : House} : Sound a b → Sound b c → Sound a c
  /-- a notice is made -/
  | notify (k : Subkind) (fs : List Field) (h : House) : Sound h (h.notify k fs)
  /-- a player changes -/
  | player (n : Screen) (f : Player → Player) (h : House) : Sound h (h.onPlayer n f)
  /-- an announcement is placed on a queue with room -/
  | place (n : Screen) (o : Offer) (h : House) (room : (h.queue n).length < Config.queueRoom) :
    Sound h (h.placeAnn n o)
  /-- announcements of a queue change, but for their ids and clip lists -/
  | annMap (n : Screen) (f : Ann → Ann) (h : House) (same : ∀ a, (f a).id = a.id ∧ (f a).clips = a.clips) :
    Sound h (h.onQueue n fun q => q.map f)
  /-- an announcement leaves its queue and its references are released -/
  | takeOut (n : Screen) (a : Ann) (h : House) : Sound h (h.takeOut n a)
  /-- an announcement displaces another one -/
  | displace (n : Screen) (v : Ann) (fs : List Field) (o : Offer) (h : House) (held : v ∈ h.queue n) :
    Sound h ((((h.takeOut n v).notify .announceDropped fs).callDisplaced v.id).placeAnn n o)
  /-- order records change, but for their identity -/
  | orderMap (f : Order → Order) (h : House) (same : Order.SameIdentity f) :
    Sound h { h with orders := h.orders.map f }
  /-- an order leaves the table, and its stall's open-order count falls -/
  | orderDrop (number : Nat) (h : House) : Sound h { h with orders := h.orders.filter fun o => o.number ≠ number }
  /-- a stall's open-order count falls by 1 -/
  | openOrders (n : Screen) (row position : Nat) (h : House) :
    Sound h (h.onStall n row position fun x => { x with openOrders := x.openOrders - 1 })
  /-- a ticket joins a queue with room -/
  | join (number : Nat) (lines : List OrderLine) (st : StationId) (h : House)
    (room : (h.station st).queue.length < Config.stationRoom) : Sound h (h.joinTicket number lines st)
  /-- tickets of a station change or leave; none joins -/
  | tickets (st : StationId) (g : List Ticket → List Ticket) (h : House)
    (less : ∀ q, ((g q).map Ticket.joined).Sublist (q.map Ticket.joined)) :
    Sound h (h.onStation st fun x => { x with queue := g x.queue })
  /-- a cook sequence is given out -/
  | cook (k : Nat) (h : House) : Sound h { h with nextCook := k }

/-- What no such change touches. -/
structure House.SoundKept (h h' : House) : Prop where
  clock : h'.clock = h.clock
  timeUnset : h'.timeUnset = h.timeUnset
  mask : h'.out.mask = h.out.mask
  cues : h'.cues = h.cues
  policy : h'.policy = h.policy
  maxLaneHold : h'.maxLaneHold = h.maxLaneHold
  lateLimit : h'.lateLimit = h.lateLimit
  shows : h'.shows = h.shows
  lines : h'.lines = h.lines
  gains : h'.gains = h.gains
  callClips : h'.callClips = h.callClips
  classes : h'.classes = h.classes
  gap : h'.gap = h.gap
  routes : h'.routes = h.routes
  backlog : h'.backlog = h.backlog
  nextNumber : h'.nextNumber = h.nextNumber
  nextSequence : h'.nextSequence = h.nextSequence
  orderPolicy : h'.orderPolicy = h.orderPolicy
  items : h'.items = h.items

theorem House.SoundKept.rfl' (h : House) : House.SoundKept h h := by constructor <;> rfl

theorem House.SoundKept.trans {a b c : House} (x : House.SoundKept a b) (y : House.SoundKept b c) :
    House.SoundKept a c := by
  constructor
  · exact y.clock.trans x.clock
  · exact y.timeUnset.trans x.timeUnset
  · exact y.mask.trans x.mask
  · exact y.cues.trans x.cues
  · exact y.policy.trans x.policy
  · exact y.maxLaneHold.trans x.maxLaneHold
  · exact y.lateLimit.trans x.lateLimit
  · exact y.shows.trans x.shows
  · exact y.lines.trans x.lines
  · exact y.gains.trans x.gains
  · exact y.callClips.trans x.callClips
  · exact y.classes.trans x.classes
  · exact y.gap.trans x.gap
  · exact y.routes.trans x.routes
  · exact y.backlog.trans x.backlog
  · exact y.nextNumber.trans x.nextNumber
  · exact y.nextSequence.trans x.nextSequence
  · exact y.orderPolicy.trans x.orderPolicy
  · exact y.items.trans x.items

/-! ### Small lemmas of the shared operations -/

@[simp] theorem Outbox.startNotice_mask (o : Outbox) : o.startNotice.mask = o.mask := by
  unfold Outbox.startNotice; split <;> rfl

@[simp] theorem Outbox.push_mask (n : Notice) (o : Outbox) : (o.push n).mask = o.mask := by
  unfold Outbox.push; split
  · split
    · simp
    · rfl
  · rfl

/-- Changing clip records changes nothing but clip records. -/
theorem House.setClip_eq (id : Nat) (r : ClipRec) (h : House) :
    h.setClip id r = { h with clips := (h.setClip id r).clips } := by
  unfold House.setClip; split <;> rfl

theorem House.takeRefs_eq (ids : List Nat) (h : House) : h.takeRefs ids = { h with clips := (h.takeRefs ids).clips } := by
  unfold House.takeRefs
  induction ids generalizing h with
  | nil => rfl
  | cons i rest ih =>
    rw [List.foldl_cons, ih, House.takeRef, House.setClip_eq]

theorem House.dropRefs_eq (ids : List Nat) (h : House) : h.dropRefs ids = { h with clips := (h.dropRefs ids).clips } := by
  unfold House.dropRefs
  induction ids generalizing h with
  | nil => rfl
  | cons i rest ih =>
    rw [List.foldl_cons, ih, House.dropRef, House.setClip_eq]

theorem House.placeAnn_eq (n : Screen) (o : Offer) (h : House) :
    h.placeAnn n o =
      { h with
        clips := (h.placeAnn n o).clips
        nextAnn := (h.placeAnn n o).nextAnn
        queues := (h.placeAnn n o).queues } := by
  unfold House.placeAnn
  dsimp only
  rw [House.takeRefs_eq]
  rfl

theorem House.takeOut_eq (n : Screen) (a : Ann) (h : House) :
    h.takeOut n a =
      { h with clips := (h.takeOut n a).clips, queues := tmod h.queues n fun q => q.filter fun b => b.id ≠ a.id } := by
  unfold House.takeOut
  rw [House.dropRefs_eq]
  rfl

theorem House.Sound.kept {h h' : House} (x : House.Sound h h') : House.SoundKept h h' := by
  induction x with
  | refl h => exact .rfl' h
  | trans _ _ a b => exact a.trans b
  | notify k fs h => constructor <;> simp [House.notify_out]
  | place n o h _ => rw [House.placeAnn_eq]; constructor <;> rfl
  | takeOut n a h => rw [House.takeOut_eq]; constructor <;> rfl
  | displace n v fs o h _ =>
    rw [House.placeAnn_eq, House.takeOut_eq]
    constructor <;> first | rfl | simp [House.callDisplaced, House.notify_out]
  | player n f h => constructor <;> rfl
  | annMap n f h _ => constructor <;> rfl
  | orderMap f h _ => constructor <;> rfl
  | orderDrop k h => constructor <;> rfl
  | openOrders n r p h => constructor <;> rfl
  | join k ls st h _ => constructor <;> rfl
  | tickets st g h _ => constructor <;> rfl
  | cook k h => constructor <;> rfl

end Machine
end Sys2Proof
end

