-- ==== Sys2Proof/Laws/SoundOps.lean ====
section
/-! SUPPORT. Every operation of Calls.lean and Kitchen.lean is a chain of the small changes of Laws/Sound.lean. -/

set_option autoImplicit false

namespace Sys2Proof
namespace Machine

open House (Sound)

/-! ### Order records -/

theorem House.onOrder_sound (number : Nat) (f : Order → Order) (h : House)
    (same : Order.SameIdentity f := by exact fun _ => ⟨rfl, rfl, rfl, rfl, rfl⟩) :
    Sound h (h.onOrder number f) :=
  .orderMap _ h fun o => by
    split
    · exact same o
    · exact ⟨rfl, rfl, rfl, rfl, rfl⟩

theorem House.orderStateNotice_sound (number : Nat) (h : House) : Sound h (h.orderStateNotice number) := by
  unfold House.orderStateNotice
  split
  · exact .notify ..
  · exact .refl h

theorem House.callDisplaced_sound (id : Nat) (h : House) : Sound h (h.callDisplaced id) :=
  .orderMap _ h fun o => by split <;> exact ⟨rfl, rfl, rfl, rfl, rfl⟩

theorem House.callCounted_sound (id : Nat) (h : House) : Sound h (h.callCounted id) :=
  .orderMap _ h fun o => by split <;> exact ⟨rfl, rfl, rfl, rfl, rfl⟩

theorem House.callStarted_sound (id : Nat) (h : House) : Sound h (h.callStarted id) := by
  unfold House.callStarted
  split
  · split
    · exact .trans (House.onOrder_sound _ _ h) (House.orderStateNotice_sound ..)
    · exact .refl h
  · exact .refl h

theorem House.rescheduleCalls_sound (n : Screen) (h : House) : Sound h (h.rescheduleCalls n) :=
  .orderMap _ h fun o => by split <;> exact ⟨rfl, rfl, rfl, rfl, rfl⟩

/-! ### Players and queues -/

theorem House.selectPlayer_sound (n : Screen) (h : House) : Sound h (h.selectPlayer n) := by
  unfold House.selectPlayer
  split <;> first | exact .player .. | exact .refl h

theorem House.victim_mem (h : House) (n : Screen) (p : Nat) (v : Ann) (e : h.victim n p = some v) : v ∈ h.queue n := by
  unfold House.victim at e
  dsimp only at e
  split at e
  · have m := List.mem_of_find?_eq_some e
    exact (List.mem_filter.mp (List.mem_reverse.mp m)).1
  · cases e

theorem House.offer_sound (n : Screen) (o : Offer) (h : House) : Sound h (h.offer n o).1 := by
  unfold House.offer
  dsimp only
  repeat' split
  all_goals first
    | exact .refl h
    | exact .trans (.place n o h ‹_›) (House.selectPlayer_sound ..)
    | exact .trans (.displace n _ _ o h (House.victim_mem h n _ _ ‹_›)) (House.selectPlayer_sound ..)

theorem House.offerCall_sound (number : Nat) (h : House) : Sound h (h.offerCall number).1 := by
  unfold House.offerCall
  cases h.order? number with
  | none => exact .refl h
  | some o =>
    cases h.callClips with
    | none => exact House.onOrder_sound _ _ h
    | some cc =>
      have x := House.offer_sound o.screen
        { cls := .orderCall, clips := cc.compose number, origin := .order number } h
      dsimp only
      split
      · next e => rw [e] at x; exact .trans x (House.onOrder_sound _ _ _)
      · next e => rw [e] at x; exact .trans x (House.onOrder_sound _ _ _)

theorem House.departureReport_sound (n : Screen) (fuel : Nat) (h : House) : Sound h (h.departureReport n fuel) := by
  induction fuel generalizing h with
  | zero => exact .refl h
  | succ fuel ih =>
    unfold House.departureReport
    split
    · exact .refl h
    · dsimp only
      split
      · exact .trans (House.offerCall_sound _ h) (ih _)
      · exact House.offerCall_sound _ h

theorem House.reportDeparture_sound (n : Screen) (h : House) : Sound h (h.reportDeparture n) :=
  House.departureReport_sound ..

theorem House.departureNotice_sound (n : Screen) (a : Ann) (d : Departure) (h : House) :
    Sound h (h.departureNotice n a d) := by
  unfold House.departureNotice
  split <;> exact .notify ..

theorem House.departureCount_sound (a : Ann) (d : Departure) (h : House) : Sound h (h.departureCount a d) := by
  unfold House.departureCount
  split
  · exact .refl _
  · exact House.callCounted_sound ..

theorem House.depart_sound (n : Screen) (a : Ann) (d : Departure) (h : House) : Sound h (h.depart n a d) :=
  .trans (.takeOut n a h) (.trans (.player ..) (.trans (House.departureNotice_sound ..)
    (.trans (House.departureCount_sound ..) (.trans (House.reportDeparture_sound ..) (House.selectPlayer_sound ..)))))

theorem House.expireWaits_sound (n : Screen) (fuel : Nat) (h : House) : Sound h (h.expireWaits n fuel) := by
  induction fuel generalizing h with
  | zero => exact .refl h
  | succ fuel ih =>
    unfold House.expireWaits
    split
    · exact .refl h
    · exact .trans (House.depart_sound ..) (ih _)

theorem House.settleQueue_sound (n : Screen) (h : House) : Sound h (h.settleQueue n) := House.expireWaits_sound ..

theorem House.wakePlayer_sound (n : Screen) (h : House) : Sound h (h.wakePlayer n) :=
  .trans (House.selectPlayer_sound ..) (House.settleQueue_sound ..)

theorem House.offerManual_sound (n : Screen) (c : AnnClass) (clips : List Nat) (h : House) :
    Sound h (h.offerManual n c clips).1 := by
  unfold House.offerManual
  have x := House.offer_sound n { cls := c, clips := clips, origin := .manual } h
  split
  · next e => rw [e] at x; exact x
  · next e =>
    rw [e] at x
    refine .trans x (.trans ?_ (House.settleQueue_sound ..))
    split
    · exact House.reportDeparture_sound ..
    · exact .refl _

theorem House.callOrder_sound (number : Nat) (h : House) : Sound h (h.callOrder number) := by
  unfold House.callOrder
  split
  · exact .refl h
  · refine .trans (House.offerCall_sound number h) (.trans ?_ (House.settleQueue_sound ..))
    split
    · exact House.reportDeparture_sound ..
    · exact .refl _

theorem House.onAnn_sound (n : Screen) (id : Nat) (f : Ann → Ann) (h : House)
    (same : ∀ a, (f a).id = a.id ∧ (f a).clips = a.clips := by exact fun _ => ⟨rfl, rfl⟩) : Sound h (h.onAnn n id f) :=
  .annMap n _ h fun a => by
    split
    · exact same a
    · exact ⟨rfl, rfl⟩

theorem House.removeAnn_sound (n : Screen) (a : Ann) (b : Bool) (h : House) : Sound h (h.removeAnn n a b) := by
  unfold House.removeAnn
  split
  · exact House.onAnn_sound _ _ _ h
  · exact .trans (House.depart_sound ..) (House.settleQueue_sound ..)

/-- A chain of chains. -/
theorem House.foldl_sound {β : Type} (f : House → β → House) (step : ∀ h b, Sound h (f h b)) (l : List β) (h : House) :
    Sound h (l.foldl f h) := by
  induction l generalizing h with
  | nil => exact .refl h
  | cons b rest ih => exact .trans (step h b) (ih _)

theorem House.removeCalls_sound (number : Nat) (h : House) : Sound h (h.removeCalls number) :=
  House.foldl_sound _ (fun h n => by
    split
    · exact House.removeAnn_sound ..
    · exact .refl h) _ h

/-! ### Playing -/

theorem House.beginAnn_sound (n : Screen) (a : Ann) (h : House) : Sound h (h.beginAnn n a) :=
  .trans (.notify ..) (House.callStarted_sound ..)

theorem House.startClip_sound (n : Screen) (h : House) : Sound h (h.startClip n) := by
  unfold House.startClip
  dsimp only
  refine .trans (.player n (fun p => { p with state := .playing, sample := 0, gapLeft := 0 }) h) ?_
  split
  · split
    · exact House.beginAnn_sound ..
    · exact .refl _
  · exact .refl _

theorem House.decideNext_sound (n : Screen) (h : House) : Sound h (h.decideNext n) := by
  unfold House.decideNext
  extract_lets h1
  have first : Sound h h1 := by
    unfold h1
    split
    · split
      · exact .trans (House.onAnn_sound _ _ _ h) (.player ..)
      · exact .refl h
    · exact .player ..
  clear_value h1
  split
  · exact first
  · exact .trans first (.player ..)
  · exact .trans first (.player ..)

theorem House.endGap_sound (n : Screen) (h : House) : Sound h (h.endGap n) := by
  unfold House.endGap
  dsimp only
  refine .trans (House.decideNext_sound n h) (.trans ?_ (House.settleQueue_sound ..))
  split
  · exact .refl _
  · exact House.startClip_sound ..

theorem House.afterClip_sound (n : Screen) (h : House) : Sound h (h.afterClip n) := by
  unfold House.afterClip
  dsimp only
  refine .trans (House.decideNext_sound n h) ?_
  split
  · exact House.settleQueue_sound ..
  · refine .trans (.player n (fun p => { p with state := .gap, gapLeft := h.gap * Config.blockFrames }) _) ?_
    split
    · exact House.endGap_sound ..
    · exact House.settleQueue_sound ..

theorem House.endClip_sound (n : Screen) (h : House) : Sound h (h.endClip n) := by
  unfold House.endClip
  split
  · exact House.afterClip_sound ..
  · split
    · exact .trans (House.depart_sound ..) (House.afterClip_sound ..)
    · split
      · exact .trans (House.depart_sound ..) (House.afterClip_sound ..)
      · exact .trans (House.onAnn_sound _ _ _ h) (House.afterClip_sound ..)

theorem House.advancePlayer_sound (n : Screen) (h : House) : Sound h (h.advancePlayer n) := by
  unfold House.advancePlayer
  dsimp only
  split
  · split
    · exact .trans (.player ..) (House.endClip_sound ..)
    · exact .player ..
  · exact House.endClip_sound ..
  · split
    · exact .trans (.player ..) (House.endGap_sound ..)
    · exact .player ..
  · exact .refl h

/-! ### Tickets -/

theorem House.onTicket_sound (st : StationId) (joined : Nat) (f : Ticket → Ticket) (h : House)
    (same : ∀ t, (f t).joined = t.joined) : Sound h (h.onTicket st joined f) := by
  refine .tickets st _ h fun q => ?_
  have e : (Ticket.joined ∘ fun t => if t.joined = joined then f t else t) = Ticket.joined := by
    funext t
    show (if t.joined = joined then f t else t).joined = t.joined
    split
    · exact same t
    · rfl
  rw [List.map_map, e]

theorem House.orderReady_sound (number : Nat) (h : House) : Sound h (h.orderReady number) := by
  unfold House.orderReady
  split
  · exact .refl h
  · dsimp only
    split
    · exact .trans (.trans (House.onOrder_sound _ _ h)
        (House.orderStateNotice_sound ..)) (House.callOrder_sound ..)
    · exact .trans (House.onOrder_sound _ _ h) (House.orderStateNotice_sound ..)

theorem House.orderCooking_sound (number : Nat) (h : House) : Sound h (h.orderCooking number) := by
  unfold House.orderCooking
  split
  · split
    · exact .trans (House.onOrder_sound _ _ h) (House.orderStateNotice_sound ..)
    · exact .refl h
  · exact .refl h

theorem House.ticketDone_sound (number : Nat) (h : House) : Sound h (h.ticketDone number) := by
  unfold House.ticketDone
  repeat' split
  all_goals first
    | exact .refl h
    | exact House.orderCooking_sound ..
    | exact House.orderReady_sound ..

theorem House.startTicket_sound (st : StationId) (t : Ticket) (h : House) : Sound h (h.startTicket st t) :=
  .trans (House.onTicket_sound st t.joined _ h (by intro _; rfl)) (.trans (.cook _ _) (House.orderCooking_sound ..))

theorem House.startTickets_sound (st : StationId) (fuel : Nat) (h : House) : Sound h (h.startTickets st fuel) := by
  induction fuel generalizing h with
  | zero => exact .refl h
  | succ fuel ih =>
    unfold House.startTickets
    split
    · split
      · exact .trans (House.startTicket_sound ..) (ih _)
      · exact .refl h
    · exact .refl h

theorem House.fillSlots_sound (h : House) (st : StationId) : Sound h (h.fillSlots st) := House.startTickets_sound ..

theorem House.joinTicket_station_ne (number : Nat) (lines : List OrderLine) (h : House) (st su : StationId)
    (e : su ≠ st) : (h.joinTicket number lines st).station su = h.station su :=
  House.onStation_station_ne _ _ _ _ e

/-- Tickets join a list of different stations that all have room. -/
theorem House.joinAll_sound (number : Nat) (lines : List OrderLine) (sts : List StationId) (nodup : sts.Nodup) (h : House)
    (room : ∀ st ∈ sts, (h.station st).hasRoom = true) : Sound h (sts.foldl (House.joinTicket number lines) h) := by
  induction sts generalizing h with
  | nil => exact .refl h
  | cons st rest ih =>
    have here := room st (List.mem_cons_self ..)
    refine .trans (.join number lines st h (by simpa [Station.hasRoom] using here)) (ih (List.nodup_cons.mp nodup).2 _ ?_)
    intro su m
    have ne : su ≠ st := fun e => (List.nodup_cons.mp nodup).1 (e ▸ m)
    rw [House.joinTicket_station_ne _ _ _ _ _ ne]
    exact room su (List.mem_cons_of_mem _ m)

theorem House.touched_nodup (h : House) (lines : List OrderLine) : (h.touched lines).Nodup :=
  List.Nodup.filter _ (by decide)

theorem House.joinTickets_sound (number : Nat) (lines : List OrderLine) (h : House)
    (room : ∀ st ∈ h.touched lines, (h.station st).hasRoom = true) : Sound h (h.joinTickets number lines) :=
  House.joinAll_sound _ _ _ (House.touched_nodup ..) h room

theorem House.releaseOne_sound (h : House) (number : Nat) : Sound h (h.releaseOne number) := by
  unfold House.releaseOne
  split
  · exact .refl h
  · next o _ =>
    dsimp only
    split
    · next room =>
      refine .trans (House.joinTickets_sound number o.lines h ?_) (.trans ?_ (.trans (House.orderStateNotice_sound ..)
        (House.foldl_sound _ House.fillSlots_sound _ _)))
      · intro st m
        have := List.all_eq_true.mp room st m
        simp only [Bool.and_eq_true] at this
        exact this.2
      · exact House.onOrder_sound _ _ _
    · exact .refl h

theorem House.releaseOn_sound (screens : List Screen) (h : House) : Sound h (h.releaseOn screens) :=
  House.foldl_sound _ House.releaseOne_sound _ h

theorem House.releaseAll_sound (h : House) : Sound h h.releaseAll := House.releaseOn_sound ..

theorem House.finishTicket_sound (st : StationId) (t : Ticket) (h : House) : Sound h (h.finishTicket st t) :=
  .trans (House.onTicket_sound _ _ _ _ (by intro _; rfl)) (.trans (House.ticketDone_sound ..) (House.fillSlots_sound ..))

theorem House.dropTicket_sound (st : StationId) (t : Ticket) (h : House) : Sound h (h.dropTicket st t) :=
  .tickets st _ h fun _ => List.filter_sublist.map _

theorem House.clearVoid_sound (st : StationId) (t : Ticket) (h : House) : Sound h (h.clearVoid st t) :=
  .trans (House.dropTicket_sound ..) (.trans (House.releaseAll_sound ..) (House.fillSlots_sound ..))

theorem House.bumpButton_sound (st : StationId) (h : House) : Sound h (h.bumpButton st) := by
  unfold House.bumpButton
  repeat' split
  all_goals first
    | exact .refl h
    | exact House.clearVoid_sound ..
    | exact House.finishTicket_sound ..

theorem House.clearVoids_sound (st : StationId) (fuel : Nat) (h : House) : Sound h (h.clearVoids st fuel) := by
  induction fuel generalizing h with
  | zero => exact .refl h
  | succ fuel ih =>
    unfold House.clearVoids
    split
    · exact .trans (House.clearVoid_sound ..) (ih _)
    · exact .refl h

/-- The join numbers of a queue whose tickets are settled. -/
theorem Ticket.settle_joined (number : Nat) (q : List Ticket) :
    ((q.filterMap (Ticket.settle number)).map Ticket.joined).Sublist (q.map Ticket.joined) := by
  induction q with
  | nil => exact .slnil
  | cons t q ih =>
    rw [List.filterMap_cons]
    split
    · exact ih.cons _
    · next u e =>
      have same : u.joined = t.joined := by
        unfold Ticket.settle at e
        repeat' split at e
        all_goals first | cases e; rfl | cases e
      rw [List.map_cons, List.map_cons, same]
      exact ih.cons_cons _

theorem House.settleTickets_sound (number : Nat) (h : House) : Sound h (h.settleTickets number) :=
  House.foldl_sound _ (fun h st => .tickets st _ h (Ticket.settle_joined number)) _ h

theorem House.endOrder_sound (outcome : OrderOutcome) (reason : EndReason) (h : House) (number : Nat) :
    Sound h (House.endOrder outcome reason h number) := by
  unfold House.endOrder
  split
  · exact .refl h
  · next o _ =>
    extract_lets left h1 h2 h3 h4 h5
    have x1 : Sound h h1 := .trans (House.settleTickets_sound number h) (House.removeCalls_sound number _)
    have x2 : Sound h1 h2 := House.onOrder_sound number _ h1
    have x3 : Sound h2 h3 := .openOrders o.screen o.row o.position h2
    have x4 : Sound h3 h4 := by
      unfold h4
      split
      · exact .notify ..
      · exact .refl _
    have x5 : Sound h4 h5 := .orderDrop number h4
    have all : Sound h h5 := .trans x1 (.trans x2 (.trans x3 (.trans x4 x5)))
    clear_value h1 h2 h3 h4 h5
    split
    · exact .trans all (House.releaseAll_sound h5)
    · exact all

end Machine
end Sys2Proof
end

