-- ==== Sys2Proof/Laws/Stage.lean ====
section
/-! SUPPORT. What show control, lot publishing and the clock's hand-outs can do to the house (chapters 1, 2, 6 and 8),
said once: `House.Stage h h'` holds when `h'` comes from `h` by a chain of the small changes named below. Every
operation of Shows.lean but the ones that set the clock is such a chain. -/

set_option autoImplicit false

namespace Sys2Proof
namespace Machine

/-- The chains of small changes that shows, cue lines and hand-outs make. -/
inductive House.Stage : House → House → Prop where
  | refl (h : House) : Stage h h
  | trans {a b c : House} : Stage a b → Stage b c → Stage a c
  /-- what announcements and orders do -/
  | sound {a b : House} : House.Sound a b → Stage a b
  /-- a Show Controller changes -/
  | ctl (n : Screen) (f : ShowCtl → ShowCtl) (h : House) : Stage h (h.onCtl n f)
  /-- a Cue Line Unit changes within its bounds -/
  | line (n : Screen) (f : CueLine → CueLine) (h : House) (keeps : ∀ l, l.bounded → (f l).bounded) :
    Stage h (h.onLine n f)
  /-- a silence run changes -/
  | gain (n : Screen) (f : Gain → Gain) (h : House) (same : ∀ g, (f g).gp = g.gp) : Stage h (h.onGain n f)
  /-- an admission state is published -/
  | admission (n : Screen) (b : Bool) (h : House) : Stage h (h.onLot n fun l => { l with admission := b })
  /-- clip references change -/
  | clips (c : Vector ClipRec 127) (h : House) : Stage h { h with clips := c }
  /-- the lane backlogs are handed over -/
  | backlog (b : Vector Nat 4) (h : House) : Stage h { h with backlog := b }

/-- What no such change touches. -/
structure House.StageKept (h h' : House) : Prop where
  clock : h'.clock = h.clock
  timeUnset : h'.timeUnset = h.timeUnset
  mask : h'.out.mask = h.out.mask
  cues : h'.cues = h.cues
  policy : h'.policy = h.policy
  maxLaneHold : h'.maxLaneHold = h.maxLaneHold
  lateLimit : h'.lateLimit = h.lateLimit
  callClips : h'.callClips = h.callClips
  classes : h'.classes = h.classes
  gap : h'.gap = h.gap
  routes : h'.routes = h.routes
  nextNumber : h'.nextNumber = h.nextNumber
  nextSequence : h'.nextSequence = h.nextSequence
  orderPolicy : h'.orderPolicy = h.orderPolicy
  items : h'.items = h.items
  gains : ∀ n, (h'.gain n).gp = (h.gain n).gp

theorem House.StageKept.rfl' (h : House) : House.StageKept h h := by constructor <;> first | rfl | exact fun _ => rfl

theorem House.StageKept.trans {a b c : House} (x : House.StageKept a b) (y : House.StageKept b c) :
    House.StageKept a c := by
  constructor
  · exact y.clock.trans x.clock
  · exact y.timeUnset.trans x.timeUnset
  · exact y.mask.trans x.mask
  · exact y.cues.trans x.cues
  · exact y.policy.trans x.policy
  · exact y.maxLaneHold.trans x.maxLaneHold
  · exact y.lateLimit.trans x.lateLimit
  · exact y.callClips.trans x.callClips
  · exact y.classes.trans x.classes
  · exact y.gap.trans x.gap
  · exact y.routes.trans x.routes
  · exact y.nextNumber.trans x.nextNumber
  · exact y.nextSequence.trans x.nextSequence
  · exact y.orderPolicy.trans x.orderPolicy
  · exact y.items.trans x.items
  · exact fun n => (y.gains n).trans (x.gains n)

theorem House.SoundKept.stage {a b : House} (x : House.SoundKept a b) : House.StageKept a b :=
  ⟨x.clock, x.timeUnset, x.mask, x.cues, x.policy, x.maxLaneHold, x.lateLimit, x.callClips, x.classes, x.gap, x.routes,
    x.nextNumber, x.nextSequence, x.orderPolicy, x.items, fun n => by rw [House.gain, House.gain, x.gains]⟩

theorem House.Stage.kept {a b : House} (x : House.Stage a b) : House.StageKept a b := by
  induction x with
  | refl h => exact .rfl' h
  | trans _ _ p q => exact p.trans q
  | sound s => exact s.kept.stage
  | gain n f h same =>
    constructor <;> first | rfl | skip
    intro m
    rw [House.onGain_gain_any]
    split
    · next e => subst e; exact same _
    · rfl
  | _ => constructor <;> first | rfl | exact fun _ => rfl

open House (Stage)

theorem House.onLine_stage (n : Screen) (f : CueLine → CueLine) (h : House)
    (keeps : ∀ l, l.bounded → (f l).bounded := by exact fun _ b => b) : Stage h (h.onLine n f) := .line n f h keeps

/-! ### Publishing -/

theorem House.refreshAdmission_stage (n : Screen) (h : House) : Stage h (h.refreshAdmission n) := .admission ..

theorem House.refreshCountdown_stage (n : Screen) (h : House) : Stage h (h.refreshCountdown n) := .ctl ..

theorem House.phaseChanged_stage (n : Screen) (h : House) : Stage h (h.phaseChanged n) :=
  .trans (.sound (.trans (House.wakePlayer_sound n h) (House.releaseOn_sound ..))) (House.refreshAdmission_stage ..)

theorem House.publish_stage (n : Screen) (old : Phase) (h : House) : Stage h (h.publish n old) := by
  unfold House.publish
  split
  · exact .refl h
  · exact House.phaseChanged_stage ..

/-- A chain of chains. -/
theorem House.foldl_stage {β : Type} (f : House → β → House) (step : ∀ h b, Stage h (f h b)) (l : List β) (h : House) :
    Stage h (l.foldl f h) := by
  induction l generalizing h with
  | nil => exact .refl h
  | cons b rest ih => exact .trans (step h b) (ih _)

theorem House.policyChanged_stage (h : House) : Stage h h.policyChanged :=
  .trans (.sound (.trans (House.foldl_sound _ (fun h n => House.wakePlayer_sound n h) _ h) (House.releaseAll_sound _)))
    (House.foldl_stage _ (fun h n => House.refreshAdmission_stage n h) _ _)

/-! ### Cue lines -/

theorem House.attempt_stage (n : Screen) (x : Exchange) (h : House) : Stage h (h.attempt n x) := by
  unfold House.attempt
  refine .line n _ h ?_
  intro l b
  obtain ⟨b1, b2, b3, b4, b5⟩ := b
  dsimp only
  split <;> exact ⟨Nat.mod_lt _ (by decide), b2, b3, b4, b5⟩

theorem House.beginExchange_stage (n : Screen) (p q : Bool) (r : CueRequest) (k : Nat) (h : House) :
    Stage h (h.beginExchange n p q r k) := House.attempt_stage ..

theorem House.askShow_stage (n : Screen) (r : CueRequest) (h : House) : Stage h (h.askShow n r) := by
  unfold House.askShow
  dsimp only
  split
  · exact .refl h
  · split
    · exact House.beginExchange_stage ..
    · exact House.onLine_stage _ _ _

theorem House.beginWaiting_stage (n : Screen) (h : House) : Stage h (h.beginWaiting n) := by
  unfold House.beginWaiting
  dsimp only
  split
  · exact .trans (House.onLine_stage _ _ _) (House.beginExchange_stage ..)
  · exact .refl h

theorem House.notify_stage (k : Subkind) (fs : List Field) (h : House) : Stage h (h.notify k fs) := .sound (.notify ..)

theorem House.abandon_stage (n : Screen) (h : House) : Stage h (h.abandon n) := by
  unfold House.abandon
  extract_lets h1
  have x : Stage h h1 := House.onLine_stage _ _ _
  clear_value h1
  split
  · split
    · exact .trans x (House.notify_stage ..)
    · exact x
  · exact x

/-! ### Slots and records -/

theorem House.notifyDone_stage (n : Screen) (h : House) : Stage h (h.notifyDone n) := House.notify_stage ..

theorem House.takeRefs_stage (ids : List Nat) (h : House) : Stage h (h.takeRefs ids) := by
  rw [House.takeRefs_eq]; exact .clips ..

theorem House.dropRefs_stage (ids : List Nat) (h : House) : Stage h (h.dropRefs ids) := by
  rw [House.dropRefs_eq]; exact .clips ..

theorem House.emptySlot_stage (n : Screen) (h : House) : Stage h (h.emptySlot n) := by
  unfold House.emptySlot
  dsimp only
  split
  · exact .trans (House.dropRefs_stage ..) (.ctl ..)
  · exact .ctl ..

theorem House.endWait_stage (n : Screen) (h : House) : Stage h (h.endWait n) := .ctl ..

/-! ### Entries -/

theorem House.offerStartClip_stage (n : Screen) (clip : Nat) (h : House) : Stage h (h.offerStartClip n clip) := by
  unfold House.offerStartClip
  have x := House.offer_sound n { cls := .show, clips := [clip], origin := .show } h
  split
  · next e => rw [e] at x; exact .trans (.sound x) (.trans (House.notify_stage ..) (.ctl ..))
  · next e =>
    rw [e] at x
    refine .sound (.trans x (.trans ?_ (House.settleQueue_sound ..)))
    split
    · exact House.reportDeparture_sound ..
    · exact .refl _

theorem House.runEntry_stage (n : Screen) (old : Phase) (h : House) : Stage h (h.runEntry n old) := by
  unfold House.runEntry
  extract_lets e h1 h2 h3 h4 h5
  have x1 : Stage h h1 := .ctl ..
  have x2 : Stage h1 h2 := .gain n _ h1 fun _ => rfl
  have x3 : Stage h2 h3 := House.notify_stage ..
  have x4 : Stage h3 h4 := by
    unfold h4
    split
    · exact .refl _
    · exact House.offerStartClip_stage ..
  have x5 : Stage h4 h5 := .trans (House.refreshCountdown_stage ..) (House.publish_stage ..)
  have all : Stage h h5 := .trans x1 (.trans x2 (.trans x3 (.trans x4 x5)))
  clear_value h5
  split
  · exact .trans all (House.askShow_stage ..)
  · split
    · exact all
    · exact .trans all (House.askShow_stage ..)
  · split
    · exact all
    · exact .trans all (House.askShow_stage ..)
  · exact all

theorem House.beginEntry_stage (n : Screen) (old : Phase) (h : House) : Stage h (h.beginEntry n old) := by
  unfold House.beginEntry
  split
  · exact .trans (.ctl ..) (.trans (House.refreshCountdown_stage ..) (House.publish_stage ..))
  · exact House.runEntry_stage ..

theorem House.startShow_stage (n : Screen) (late : Nat) (h : House) : Stage h (h.startShow n late) := by
  unfold House.startShow
  split
  · exact .refl h
  · exact .trans (House.notify_stage ..) (.trans (.ctl ..) (House.beginEntry_stage ..))

theorem House.evalStart_stage (n : Screen) (h : House) : Stage h (h.evalStart n) := by
  unfold House.evalStart
  split
  · split
    · split
      · exact House.startShow_stage ..
      · exact .refl h
    · exact .refl h
  · exact .refl h

theorem House.leaveWait_stage (n : Screen) (h : House) : Stage h (h.leaveWait n) :=
  .trans (House.endWait_stage ..) (House.runEntry_stage ..)

theorem House.holdExpired_stage (n : Screen) (h : House) : Stage h (h.holdExpired n) :=
  .trans (House.notify_stage ..) (House.leaveWait_stage ..)

theorem House.takeBacklogs_stage (b : Vector Nat 4) (h : House) : Stage h (h.takeBacklogs b) :=
  .trans (.backlog b h) (House.foldl_stage _ (fun h n => by
    split
    · exact House.leaveWait_stage ..
    · exact .refl h) _ _)

/-! ### The end of a show -/

theorem House.promote_stage (n : Screen) (h : House) : Stage h (h.promote n) := by
  unfold House.promote
  dsimp only
  split
  · exact .trans (.ctl ..) (.trans (House.refreshCountdown_stage ..) (.trans (House.publish_stage ..) (House.evalStart_stage ..)))
  · exact .trans (.ctl ..) (.trans (House.refreshCountdown_stage ..) (House.publish_stage ..))

theorem House.complete_stage (n : Screen) (h : House) : Stage h (h.complete n) :=
  .trans (.ctl ..) (.trans (House.notifyDone_stage ..) (.trans (House.emptySlot_stage ..) (House.promote_stage ..)))

theorem House.finish_stage (n : Screen) (h : House) : Stage h (h.finish n) := by
  unfold House.finish
  split
  · exact .trans (.ctl ..) (House.refreshCountdown_stage ..)
  · split
    · exact House.complete_stage ..
    · exact .trans (.ctl ..) (.trans (House.refreshCountdown_stage ..) (House.askShow_stage ..))

theorem House.entryEnd_stage (n : Screen) (h : House) : Stage h (h.entryEnd n) := by
  unfold House.entryEnd
  extract_lets old i h1
  have x : Stage h h1 := .ctl ..
  clear_value h1
  split
  · exact x
  · split
    · exact .trans x (House.finish_stage ..)
    · exact .trans x (.trans (.ctl ..) (House.beginEntry_stage ..))

/-! ### STOPPING and faults -/

theorem House.enterStopping_stage (n : Screen) (o : ShowOutcome) (b : Bool) (h : House) :
    Stage h (h.enterStopping n o b) :=
  .trans (House.abandon_stage n h) (.trans (.ctl ..) (.trans (House.refreshCountdown_stage ..)
    (.trans (House.beginExchange_stage ..) (House.publish_stage ..))))

theorem House.stoppingCheck_stage (n : Screen) (h : House) : Stage h (h.stoppingCheck n) := by
  unfold House.stoppingCheck
  extract_lets c old h1 h2
  split
  · have x1 : Stage h h1 := House.notifyDone_stage ..
    have x2 : Stage h1 h2 := by
      unfold h2
      split
      · exact .trans (House.emptySlot_stage ..) (.ctl ..)
      · exact .ctl ..
    exact .trans x1 (.trans x2 (.trans (House.refreshCountdown_stage ..) (House.publish_stage ..)))
  · exact .refl h

theorem House.recordFault_stage (n : Screen) (c : Cause) (h : House) : Stage h (h.recordFault n c) :=
  .trans (.ctl ..) (House.notify_stage ..)

theorem House.showFault_stage (n : Screen) (fatal : Bool) (c : Cause) (h : House) : Stage h (h.showFault n fatal c) := by
  unfold House.showFault
  dsimp only
  split
  · exact House.recordFault_stage ..
  · split <;> split
    · exact .trans (House.recordFault_stage ..) (House.enterStopping_stage ..)
    · exact House.recordFault_stage ..
    · exact .trans (House.recordFault_stage ..) (House.enterStopping_stage ..)
    · exact House.recordFault_stage ..
  · split
    · exact .trans (House.recordFault_stage ..) (.trans (House.endWait_stage ..) (House.enterStopping_stage ..))
    · exact .refl h
  · exact .refl h

/-! ### Results of exchanges -/

theorem House.latch_stage (n : Screen) (x : Exchange) (c : LineCause) (h : House) : Stage h (h.latch n x c) := by
  unfold House.latch
  refine .line n _ h ?_
  intro l b
  dsimp only
  split <;> exact b

theorem House.noteHalted_stage (n : Screen) (v : Verb) (h : House) : Stage h (h.noteHalted n v) := by
  unfold House.noteHalted
  split <;> first | exact .ctl .. | exact .refl h

theorem House.showResult_stage (n : Screen) (x : Exchange) (r : ExchangeEnd) (h : House) :
    Stage h (h.showResult n x r) := by
  unfold House.showResult
  dsimp only
  split
  · split
    · exact .trans (House.showFault_stage ..) (.trans (.ctl ..) (House.stoppingCheck_stage ..))
    · exact House.showFault_stage ..
  · split
    · split
      · exact House.askShow_stage ..
      · exact .refl h
    · split
      · exact .ctl ..
      · exact .refl h
    · split
      · exact .trans (.ctl ..) (House.stoppingCheck_stage ..)
      · split
        · exact House.complete_stage ..
        · exact .refl h
    · exact .refl h

theorem House.passResult_stage (n : Screen) (x : Exchange) (r : ExchangeEnd) (h : House) :
    Stage h (h.passResult n x r) := by
  unfold House.passResult
  dsimp only
  split
  · split
    · exact House.notify_stage ..
    · exact .trans (House.notify_stage ..) (House.notify_stage ..)
  · exact House.notify_stage ..

theorem House.exchangeEnd_stage (n : Screen) (x : Exchange) (r : ExchangeEnd) (h : House) :
    Stage h (h.exchangeEnd n x r) := by
  unfold House.exchangeEnd
  extract_lets h1 h2 h3 h4
  have x1 : Stage h h1 := House.onLine_stage _ _ _
  have x2 : Stage h1 h2 := by
    unfold h2
    split
    · exact House.noteHalted_stage ..
    · exact .refl _
  have x3 : Stage h2 h3 := by
    unfold h3
    split
    · exact House.latch_stage ..
    · exact .refl _
  have x4 : Stage h3 h4 := by
    unfold h4
    split
    · exact House.passResult_stage ..
    · exact House.showResult_stage ..
  exact .trans x1 (.trans x2 (.trans x3 (.trans x4 (House.beginWaiting_stage ..))))

theorem House.attemptOver_stage (n : Screen) (x : Exchange) (g : Bool) (h : House) : Stage h (h.attemptOver n x g) := by
  unfold House.attemptOver
  split
  · exact House.onLine_stage _ _ _
  · exact House.exchangeEnd_stage ..

theorem House.answer_stage (n : Screen) (f : LineForm) (h : House) : Stage h (h.answer n f) := by
  unfold House.answer
  split
  · split
    · exact House.exchangeEnd_stage ..
    · exact .refl h
  · split
    · exact House.exchangeEnd_stage ..
    · exact .refl h
  · split
    · exact House.attemptOver_stage ..
    · exact .refl h
  · exact House.attemptOver_stage ..
  · exact .refl h

theorem House.endedReport_stage (n : Screen) (k : Nat) (h : House) : Stage h (h.endedReport n k) := by
  unfold House.endedReport
  dsimp only
  split
  · split
    · exact .trans (House.showFault_stage ..) (House.entryEnd_stage ..)
    · exact House.showFault_stage ..
  · exact .refl h

theorem House.handLine_stage (n : Screen) (f : LineForm) (h : House) : Stage h (h.handLine n f) := by
  unfold House.handLine
  split
  · exact House.endedReport_stage ..
  · exact House.answer_stage ..

theorem House.takeChar_stage (n : Screen) (h : House) (c : CueChar) : Stage h (h.takeChar n c) := by
  unfold House.takeChar
  extract_lets rx h1
  split
  · exact .refl h
  · split
    · have x : Stage h h1 := .line n _ h fun l b => ⟨b.1, b.2.1, b.2.2.1, b.2.2.2.1, by simp [RxLine.blank]⟩
      clear_value h1
      split
      · exact x
      · split
        · exact .trans x (House.handLine_stage ..)
        · exact .trans x (House.handLine_stage ..)
    · by_cases e : (h.line n).rx.chars.length ≤ 15
      · have same : (h.onLine n fun l => { l with rx :=
            if 16 ≤ rx.chars.length then { rx with overlong := true }
            else { rx with chars := rx.chars ++ [c.byte], bad := rx.bad || c.framingError || decide (128 ≤ c.byte) } })
            = h.onLine n fun l => { l with rx :=
              { rx with chars := rx.chars ++ [c.byte], bad := rx.bad || c.framingError || decide (128 ≤ c.byte) } } := by
          have : ¬ 16 ≤ rx.chars.length := by unfold rx; omega
          simp only [this, if_false]
        rw [same]
        exact .line n _ h fun l b => ⟨b.1, b.2.1, b.2.2.1, b.2.2.2.1, by
          unfold rx; simp only [List.length_append, List.length_singleton]; omega⟩
      · have same : (h.onLine n fun l => { l with rx :=
            if 16 ≤ rx.chars.length then { rx with overlong := true }
            else { rx with chars := rx.chars ++ [c.byte], bad := rx.bad || c.framingError || decide (128 ≤ c.byte) } })
            = h.onLine n fun l => { l with rx := { l.rx with overlong := true } } := by
          have : 16 ≤ rx.chars.length := by unfold rx; omega
          simp only [this, if_true]
          unfold House.onLine tmod rx
          rfl
        rw [same]
        exact .line n _ h fun l b => ⟨b.1, b.2.1, b.2.2.1, b.2.2.2.1, b.2.2.2.2⟩

/-! ### Frames, stalls and holds -/

theorem House.addFrame_stage (n : Screen) (h : House) : Stage h (h.addFrame n) := by
  unfold House.addFrame
  dsimp only
  split
  · exact .trans (.ctl ..) (House.entryEnd_stage ..)
  · exact .ctl ..

theorem House.pulse_stage (n : Screen) (h : House) : Stage h (h.pulse n) := by
  unfold House.pulse
  split
  · exact .refl h
  · exact .trans (.ctl ..) (House.addFrame_stage ..)

theorem House.timebaseFrame_stage (n : Screen) (h : House) : Stage h (h.timebaseFrame n) := by
  unfold House.timebaseFrame
  split
  · exact .trans (.ctl ..) (House.addFrame_stage ..)
  · exact .refl h

theorem House.skipFrame_stage (n : Screen) (h : House) : Stage h (h.skipFrame n) := by
  unfold House.skipFrame
  split
  · exact .trans (.ctl ..) (House.addFrame_stage ..)
  · exact .refl h

theorem House.generatedPulse_stage (n : Screen) (h : House) : Stage h (h.generatedPulse n) := by
  unfold House.generatedPulse
  split
  · split
    · exact .trans (.ctl ..) (House.pulse_stage ..)
    · exact .refl h
  · exact .refl h

theorem House.holdOver_stage (n : Screen) (h : House) : Stage h (h.holdOver n) := by
  unfold House.holdOver
  split
  · exact .trans (.ctl ..) (House.entryEnd_stage ..)
  · exact .refl h

theorem House.pictureStall_stage (n : Screen) (h : House) : Stage h (h.pictureStall n) := by
  unfold House.pictureStall
  split
  · exact .trans (.ctl ..) (House.showFault_stage ..)
  · exact .refl h

theorem House.silenceReport_stage (n : Screen) (h : House) : Stage h (h.silenceReport n) := by
  unfold House.silenceReport
  dsimp only
  split
  · exact .trans (.ctl ..) (House.showFault_stage ..)
  · exact .refl h

/-! ### Timers -/

theorem House.lineSent_stage (n : Screen) (h : House) : Stage h (h.lineSent n) := by
  unfold House.lineSent
  split
  · exact .refl h
  · exact House.onLine_stage _ _ _

theorem House.answerTimeout_stage (n : Screen) (h : House) : Stage h (h.answerTimeout n) := by
  unfold House.answerTimeout
  split
  · exact House.attemptOver_stage ..
  · exact .refl h

theorem House.backoffEnd_stage (n : Screen) (h : House) : Stage h (h.backoffEnd n) := by
  unfold House.backoffEnd
  split
  · exact House.attempt_stage ..
  · exact .refl h

theorem House.autoAnswered_stage (n : Screen) (h : House) : Stage h (h.autoAnswered n) := by
  unfold House.autoAnswered
  split
  · split
    · exact .trans (House.onLine_stage _ _ _) (House.answer_stage ..)
    · exact .refl h
  · exact .refl h

/-! ### SHOW ABORT and SCREEN RESET -/

theorem House.endShowExchanges_stage (n : Screen) (h : House) : Stage h (h.endShowExchanges n) := by
  unfold House.endShowExchanges
  split
  · split
    · exact House.onLine_stage _ _ _
    · exact House.abandon_stage ..
  · exact House.onLine_stage _ _ _

theorem House.goIdle_stage (n : Screen) (h : House) : Stage h (h.goIdle n) :=
  .trans (House.emptySlot_stage n h) (.trans (.ctl ..) (.trans (House.refreshCountdown_stage ..) (House.publish_stage ..)))

theorem House.abort_stage (n : Screen) (h : House) : Stage h (h.abort n) := by
  unfold House.abort
  dsimp only
  split
  · exact .trans (.ctl ..) (.trans (House.notifyDone_stage ..) (House.goIdle_stage ..))
  · exact .trans (House.endWait_stage ..) (.trans (.ctl ..) (.trans (House.endShowExchanges_stage ..)
      (.trans (House.notifyDone_stage ..) (House.goIdle_stage ..))))
  · exact House.enterStopping_stage ..
  · exact .ctl ..
  · exact House.goIdle_stage ..
  · exact .refl h

theorem House.resetShow_stage (n : Screen) (h : House) : Stage h (h.resetShow n) := by
  unfold House.resetShow
  extract_lets old h1 h2 base h3
  have x1 : Stage h h1 := .trans (House.abandon_stage ..) (House.emptySlot_stage ..)
  have x2 : Stage h1 h2 := by
    unfold h2
    split
    · exact House.dropRefs_stage ..
    · exact .refl _
  have x3 : Stage h2 h3 := .ctl ..
  exact .trans x1 (.trans x2 (.trans x3 (.trans (House.onLine_stage _ _ _)
    (.trans (House.publish_stage ..) (House.refreshAdmission_stage ..)))))

/-! ### Hand-outs of the clock -/

theorem House.wholeSecond_stage (h : House) : Stage h h.wholeSecond :=
  .trans (House.foldl_stage _ (fun h n => House.refreshCountdown_stage n h) _ _) (.sound (House.releaseAll_sound _))

theorem House.expirySweep_sound (h : House) : House.Sound h h.expirySweep := by
  unfold House.expirySweep
  extract_lets waits h1
  have x : House.Sound h h1 := .orderMap _ h fun o => by split <;> exact ⟨rfl, rfl, rfl, rfl, rfl⟩
  exact .trans x (House.foldl_sound _ (House.endOrder_sound _ _) _ _)

theorem House.wholeMinute_stage (h : House) : Stage h h.wholeMinute := .sound (House.expirySweep_sound _)

theorem House.lateWindowEnd_stage (n : Screen) (h : House) : Stage h (h.lateWindowEnd n) := by
  unfold House.lateWindowEnd
  split
  · exact .admission ..
  · exact .refl h

theorem House.startTimeReached_stage (n : Screen) (h : House) : Stage h (h.startTimeReached n) := by
  unfold House.startTimeReached
  split
  · split
    · exact House.startShow_stage ..
    · exact .refl h
  · exact .refl h

theorem House.clockDue_stage (h : House) : Stage h h.clockDue := by
  unfold House.clockDue
  extract_lets h1
  have x : Stage h h1 := by
    unfold h1
    split
    · exact House.wholeSecond_stage h
    · exact .refl h
  split
  · exact .trans x (House.wholeMinute_stage _)
  · exact x

theorem House.repeatDue_sound (h : House) (number : Nat) : House.Sound h (h.repeatDue number) := by
  unfold House.repeatDue
  split
  · split
    · exact .trans (House.onOrder_sound number _ h) (House.callOrder_sound ..)
    · exact .refl h
  · exact .refl h

theorem House.callsDue_sound (h : House) : House.Sound h h.callsDue :=
  House.foldl_sound _ House.repeatDue_sound _ h

theorem House.lineDue_stage (n : Screen) (h : House) : Stage h (h.lineDue n) := by
  unfold House.lineDue
  extract_lets h1
  have x : Stage h h1 := by
    unfold h1
    split
    · exact House.autoAnswered_stage ..
    · exact .refl h
  clear_value h1
  split
  · exact .trans x (House.answerTimeout_stage ..)
  · exact .trans x (House.backoffEnd_stage ..)
  · exact x

theorem House.showDue_stage (n : Screen) (h : House) : Stage h (h.showDue n) := by
  unfold House.showDue
  extract_lets h1 h2 h3 h4 h5 h6 h7
  have x1 : Stage h h1 := by
    unfold h1; split
    · exact House.generatedPulse_stage ..
    · exact .refl _
  have x2 : Stage h1 h2 := by
    unfold h2; split
    · exact House.pictureStall_stage ..
    · exact .refl _
  have x3 : Stage h2 h3 := by
    unfold h3; split
    · exact House.timebaseFrame_stage ..
    · exact .refl _
  have x4 : Stage h3 h4 := by
    unfold h4; split
    · exact House.skipFrame_stage ..
    · exact .refl _
  have x5 : Stage h4 h5 := by
    unfold h5; split
    · exact House.holdOver_stage ..
    · exact .refl _
  have x6 : Stage h5 h6 := by
    unfold h6; split
    · exact House.holdExpired_stage ..
    · exact .refl _
  have x7 : Stage h6 h7 := House.evalStart_stage ..
  have all : Stage h h7 := .trans x1 (.trans x2 (.trans x3 (.trans x4 (.trans x5 (.trans x6 x7)))))
  clear_value h7
  split
  · exact .trans all (House.lateWindowEnd_stage ..)
  · exact all

theorem House.screenDue_stage (h : House) (n : Screen) : Stage h (h.screenDue n) :=
  .trans (House.lineDue_stage ..) (.trans (House.showDue_stage ..) (.sound (House.settleQueue_sound ..)))

end Machine
end Sys2Proof
end

