-- ==== Sys2Proof/Laws/Act.lean ====
section
/-! SUPPORT. The bounds of Safety.lean under the chains of Laws/Sound.lean and Laws/Stage.lean, and what the lanes can
do to the whole state, said once (`State.Act`). -/

set_option autoImplicit false

namespace Sys2Proof
namespace Machine

/-! ### The notice side -/

theorem Outbox.startNotice_bounded (o : Outbox) (b : o.bounded) : o.startNotice.bounded := by
  obtain ⟨b1, b2, b3⟩ := b
  unfold Outbox.startNotice
  split
  · next e => rw [e] at b1; exact ⟨Nat.le_trans (Nat.le_succ _) b1, b2, b3⟩
  · exact ⟨b1, b2, b3⟩

theorem Outbox.push_bounded (n : Notice) (o : Outbox) (b : o.bounded) : (o.push n).bounded := by
  obtain ⟨b1, b2, b3⟩ := b
  unfold Outbox.push
  split
  · split
    · next room =>
      have room' : o.notices.length < 32 := room
      exact Outbox.startNotice_bounded _ ⟨by simp only [List.length_append, List.length_singleton]; omega, b2, b3⟩
    · refine ⟨b1, ?_, b3⟩
      simp only [bumpTo]
      split <;> omega
  · exact ⟨b1, b2, b3⟩

theorem Outbox.startReply_bounded (o : Outbox) (b : o.bounded) : o.startReply.bounded := by
  unfold Outbox.startReply
  split <;> exact b

/-! ### The bounds of the house -/

theorem insertAnn_length (a : Ann) (q : List Ann) : (insertAnn a q).length = q.length + 1 := by
  induction q with
  | nil => rfl
  | cons b rest ih =>
    unfold insertAnn
    split
    · simp [ih]
    · simp

theorem House.setClip_frame (id : Nat) (r : ClipRec) (h : House) :
    (h.setClip id r).orders = h.orders ∧ (h.setClip id r).queues = h.queues ∧ (h.setClip id r).stations = h.stations := by
  rw [House.setClip_eq]; exact ⟨rfl, rfl, rfl⟩

theorem House.placeAnn_queues (n : Screen) (o : Offer) (h : House) :
    ∃ a : Ann, (h.placeAnn n o).queues = tmod h.queues n (insertAnn a) := by
  unfold House.placeAnn
  dsimp only
  rw [House.takeRefs_eq]
  exact ⟨_, rfl⟩

/-- A change of the house that leaves orders, queues, stations, gains, policy, lines and notices alone keeps the
bounds. -/
theorem House.bounded.of_eq {h h' : House} (x : h.bounded) (e1 : h'.orders = h.orders) (e2 : h'.queues = h.queues)
    (e3 : h'.stations = h.stations) (e4 : h'.gains = h.gains) (e5 : h'.policy = h.policy) (e6 : h'.lines = h.lines)
    (e7 : h'.out = h.out) (e8 : h'.nextNumber = h.nextNumber) (e9 : h'.nextJoin = h.nextJoin) : h'.bounded := by
  obtain ⟨a, b, c, d, e⟩ := x
  constructor
  · unfold House.ordersFine at *; rw [e1, e8]; exact a
  · unfold House.queuesFine House.queue House.station at *; rw [e2, e3, e9]; exact b
  · unfold House.gainsFine House.gain at *; rw [e4, e5]; exact c
  · unfold House.line at *; rw [e6]; exact d
  · rw [e7]; exact e

theorem House.ordersFine_map (f : Order → Order) (h : House) (same : Order.SameIdentity f) (x : h.ordersFine) :
    House.ordersFine { h with orders := h.orders.map f } := by
  obtain ⟨a, b, c, d⟩ := x
  refine ⟨by simpa using a, ?_, ?_, d⟩
  · have : (h.orders.map f).map Order.number = h.orders.map Order.number := by
      rw [List.map_map]
      exact List.map_congr_left fun o _ => (same o).1
    simpa only [this] using b
  · intro o m
    obtain ⟨p, q, rfl⟩ := List.mem_map.mp m
    rw [(same p).1]
    exact c p q

theorem House.ordersFine_filter (p : Order → Bool) (h : House) (x : h.ordersFine) :
    House.ordersFine { h with orders := h.orders.filter p } := by
  obtain ⟨a, b, c, d⟩ := x
  refine ⟨Nat.le_trans (List.length_filter_le _ _) a, ?_, fun o m => c o (List.mem_filter.mp m).1, d⟩
  exact List.Nodup.sublist (List.Sublist.map _ List.filter_sublist) b

/-- The queues after one of them changed in a way that keeps its bound. -/
theorem House.queues_tmod (h : House) (n : Screen) (f : List Ann → List Ann) (x : ∀ m, (tget h.queues m).length ≤ 12)
    (le : (f (tget h.queues n)).length ≤ 12) : ∀ m, (tget (tmod h.queues n f) m).length ≤ 12 := by
  intro m
  rw [tget_tmod]
  split
  · next e => rw [e]; exact le
  · exact x m

theorem House.takeOut_queue_length (n : Screen) (v : Ann) (h : House) (m : v ∈ h.queue n) :
    ((h.takeOut n v).queue n).length < (h.queue n).length := by
  rw [House.takeOut_eq]
  show (tget (tmod h.queues n _) n).length < _
  rw [tget_tmod_self]
  have := List.length_filter_lt_length_iff_exists (p := fun b : Ann => decide (b.id ≠ v.id)) (l := h.queue n)
  exact this.mpr ⟨v, m, by simp⟩

/-- A station whose tickets change or leave, none joining, keeps its bounds. -/
theorem Station.ticketsFine.less {next : Nat} {x y : Station}
    (sub : (y.queue.map Ticket.joined).Sublist (x.queue.map Ticket.joined)) (b : x.ticketsFine next) :
    y.ticketsFine next := by
  obtain ⟨b1, b2, b3⟩ := b
  refine ⟨?_, b2.sublist sub, ?_⟩
  · have := sub.length_le
    rw [List.length_map, List.length_map] at this
    omega
  · intro t m
    obtain ⟨u, um, e⟩ := List.mem_map.mp (sub.subset (List.mem_map.mpr ⟨t, m, rfl⟩))
    rw [← e]
    exact b3 u um

theorem House.Sound.fine {h h' : House} (x : House.Sound h h') : h.bounded → h'.bounded := by
  induction x with
  | refl h => exact id
  | trans _ _ a b => exact b ∘ a
  | notify k fs h =>
    intro ⟨a, b, c, d, e⟩
    exact ⟨a, b, c, d, Outbox.push_bounded _ _ e⟩
  | player n f h => intro ⟨a, b, c, d, e⟩; exact ⟨a, b, c, d, e⟩
  | place n o h room =>
    intro ⟨a, b, c, d, e⟩
    obtain ⟨x, hx⟩ := House.placeAnn_queues n o h
    have room' : (tget h.queues n).length < 12 := room
    have q := House.queues_tmod h n (insertAnn x) b.1 (by rw [insertAnn_length]; omega)
    rw [House.placeAnn_eq]
    refine ⟨a, ⟨?_, b.2⟩, c, d, e⟩
    intro m
    show (tget (h.placeAnn n o).queues m).length ≤ 12
    rw [hx]
    exact q m
  | annMap n f h _ =>
    intro ⟨a, b, c, d, e⟩
    exact ⟨a, ⟨House.queues_tmod h n _ b.1 (by rw [List.length_map]; exact b.1 n), b.2⟩, c, d, e⟩
  | takeOut n v h =>
    intro ⟨a, b, c, d, e⟩
    rw [House.takeOut_eq]
    exact ⟨a, ⟨House.queues_tmod h n _ b.1 (Nat.le_trans (List.length_filter_le _ _) (b.1 n)), b.2⟩, c, d, e⟩
  | displace n v fs o h held =>
    intro ⟨a, b, c, d, e⟩
    have less : ((h.takeOut n v).queue n).length < 12 :=
      Nat.lt_of_lt_of_le (House.takeOut_queue_length n v h held) (b.1 n)
    have others : ∀ m, (tget (h.takeOut n v).queues m).length ≤ 12 := by
      rw [House.takeOut_eq]
      exact House.queues_tmod h n _ b.1 (Nat.le_trans (List.length_filter_le _ _) (b.1 n))
    obtain ⟨x, hx⟩ := House.placeAnn_queues n o (((h.takeOut n v).notify .announceDropped fs).callDisplaced v.id)
    have q := House.queues_tmod (h.takeOut n v) n (insertAnn x) others
      (by rw [insertAnn_length]; exact less)
    have ord : House.ordersFine (((h.takeOut n v).notify .announceDropped fs).callDisplaced v.id) := by
      refine House.ordersFine_map _ _ (fun o => by split <;> exact ⟨rfl, rfl, rfl, rfl, rfl⟩) ?_
      rw [House.takeOut_eq]
      exact a
    rw [House.placeAnn_eq]
    refine ⟨ord, ⟨?_, ?_⟩, ?_, ?_, ?_⟩
    · intro m
      show (tget (House.placeAnn n o _).queues m).length ≤ 12
      rw [hx]
      exact q m
    · rw [House.takeOut_eq]; exact b.2
    · rw [House.takeOut_eq]; exact c
    · rw [House.takeOut_eq]; exact d
    · rw [House.takeOut_eq]; exact Outbox.push_bounded _ _ e
  | orderMap f h same => intro ⟨a, b, c, d, e⟩; exact ⟨House.ordersFine_map f h same a, b, c, d, e⟩
  | orderDrop k h => intro ⟨a, b, c, d, e⟩; exact ⟨House.ordersFine_filter _ h a, b, c, d, e⟩
  | openOrders n r p h => intro ⟨a, b, c, d, e⟩; exact ⟨a, b, c, d, e⟩
  | join k ls st h room =>
    intro ⟨a, b, c, d, e⟩
    have room' : (tget h.stations st).queue.length < 48 := room
    refine ⟨a, ⟨b.1, ?_⟩, c, d, e⟩
    intro su
    show (tget (tmod h.stations st _) su).ticketsFine (h.nextJoin + 1)
    rw [tget_tmod]
    split
    · next e =>
      subst e
      obtain ⟨b1, b2, b3⟩ := b.2 su
      refine ⟨by simp only [List.length_append, List.length_singleton]; omega, ?_, ?_⟩
      · simp only [List.map_append, List.map_cons, List.map_nil]
        refine List.nodup_append.mpr ⟨b2, by simp, ?_⟩
        intro j m k n
        obtain ⟨t, tm, rfl⟩ := List.mem_map.mp m
        have := b3 t tm
        simp only [List.mem_singleton] at n
        omega
      · intro t m
        rcases List.mem_append.mp m with m | m
        · exact Nat.lt_succ_of_lt (b3 t m)
        · rw [List.mem_singleton] at m; subst m; exact Nat.lt_succ_self _
    · obtain ⟨b1, b2, b3⟩ := b.2 su
      exact ⟨b1, b2, fun t m => Nat.lt_succ_of_lt (b3 t m)⟩
  | tickets st g h less =>
    intro ⟨a, b, c, d, e⟩
    refine ⟨a, ⟨b.1, ?_⟩, c, d, e⟩
    intro su
    show (tget (tmod h.stations st _) su).ticketsFine h.nextJoin
    rw [tget_tmod]
    split
    · next e => subst e; exact Station.ticketsFine.less (less _) (b.2 su)
    · exact b.2 su
  | cook k h => intro ⟨a, b, c, d, e⟩; exact ⟨a, b, c, d, e⟩

theorem House.Stage.fine {h h' : House} (x : House.Stage h h') : h.bounded → h'.bounded := by
  induction x with
  | refl h => exact id
  | trans _ _ a b => exact b ∘ a
  | sound s => exact s.fine
  | ctl n f h => intro ⟨a, b, c, d, e⟩; exact ⟨a, b, c, d, e⟩
  | line n f h keeps =>
    intro ⟨a, b, c, d, e⟩
    refine ⟨a, b, c, fun m => ?_, e⟩
    rw [House.onLine_line_any]
    split
    · next e => subst e; exact keeps _ (d _)
    · exact d m
  | gain n f h same =>
    intro ⟨a, b, c, d, e⟩
    refine ⟨a, b, ⟨fun m => ?_, c.2⟩, d, e⟩
    rw [House.onGain_gain_any]
    split
    · next e => subst e; rw [same]; exact c.1 _
    · exact c.1 m
  | admission n b h => intro ⟨a, b, c, d, e⟩; exact ⟨a, b, c, d, e⟩
  | clips v h => intro ⟨a, b, c, d, e⟩; exact ⟨a, b, c, d, e⟩
  | backlog v h => intro ⟨a, b, c, d, e⟩; exact ⟨a, b, c, d, e⟩

/-! ### What the lanes can do to the whole state -/

/-- The chains of small changes that lanes, loops and arms make. -/
inductive State.Act : State → State → Prop where
  | refl (s : State) : Act s s
  | trans {a b c : State} : Act a b → Act b c → Act a c
  /-- shows, cue lines, announcements, orders -/
  | house {h' : House} (s : State) (x : House.Stage s.house h') : Act s { s with house := h' }
  /-- a lot changes -/
  | lot (n : Screen) (f : Lot → Lot) (s : State) : Act s (s.onHouse (House.onLot n f))
  /-- an entry lane changes -/
  | lane (k : EntryId) (f : EntryLane → EntryLane) (s : State) : Act s (s.onLane k f)
  /-- an exit lane changes -/
  | exit (j : ExitId) (f : ExitLane → ExitLane) (s : State) : Act s (s.onExit j f)
  /-- the present count changes -/
  | present (p : Nat) (s : State) : Act s { s with present := p }

/-- What no such change touches. -/
structure State.ActKept (s t : State) : Prop where
  house : House.StageKept s.house t.house
  channels : t.channels = s.channels
  units : t.units = s.units
  stagedUnits : t.stagedUnits = s.stagedUnits
  monitor : t.monitor = s.monitor
  stagedMonitor : t.stagedMonitor = s.stagedMonitor
  mon : t.mon = s.mon
  dram : t.dram = s.dram
  link : t.link = s.link
  draws : t.draws = s.draws
  pending : t.pending = s.pending
  fine : s.house.bounded → t.house.bounded

theorem State.Act.kept {s t : State} (x : State.Act s t) : State.ActKept s t := by
  induction x with
  | refl s => exact ⟨.rfl' _, rfl, rfl, rfl, rfl, rfl, rfl, rfl, rfl, rfl, rfl, id⟩
  | trans _ _ p q =>
    exact ⟨p.house.trans q.house, q.channels.trans p.channels, q.units.trans p.units,
      q.stagedUnits.trans p.stagedUnits, q.monitor.trans p.monitor, q.stagedMonitor.trans p.stagedMonitor,
      q.mon.trans p.mon, q.dram.trans p.dram, q.link.trans p.link, q.draws.trans p.draws, q.pending.trans p.pending,
      q.fine ∘ p.fine⟩
  | house s x => exact ⟨x.kept, rfl, rfl, rfl, rfl, rfl, rfl, rfl, rfl, rfl, rfl, x.fine⟩
  | lot n f s =>
    refine ⟨?_, rfl, rfl, rfl, rfl, rfl, rfl, rfl, rfl, rfl, rfl, fun ⟨a, b, c, d, e⟩ => ⟨a, b, c, d, e⟩⟩
    constructor <;> first | rfl | exact fun _ => rfl
  | lane k f s => exact ⟨.rfl' _, rfl, rfl, rfl, rfl, rfl, rfl, rfl, rfl, rfl, rfl, id⟩
  | exit j f s => exact ⟨.rfl' _, rfl, rfl, rfl, rfl, rfl, rfl, rfl, rfl, rfl, rfl, id⟩
  | present p s => exact ⟨.rfl' _, rfl, rfl, rfl, rfl, rfl, rfl, rfl, rfl, rfl, rfl, id⟩

open State (Act)

theorem State.onHouse_act (f : House → House) (s : State) (x : House.Stage s.house (f s.house)) : Act s (s.onHouse f) :=
  .house s x

theorem State.notify_act (k : Subkind) (fs : List Field) (s : State) : Act s (s.onHouse (House.notify k fs)) :=
  .house s (House.notify_stage ..)

theorem State.reportBacklog_act (s : State) : Act s s.reportBacklog := .house s (House.takeBacklogs_stage ..)

theorem State.moveLane_act (k : EntryId) (f : EntryLane → EntryLane) (s : State) : Act s (s.moveLane k f) :=
  .trans (.lane ..) (State.reportBacklog_act _)

theorem State.count_act (k : EntryId) (f : Counters → Counters) (s : State) : Act s (s.count k f) := .lane ..

theorem State.enterVehicle_act (k : EntryId) (s : State) : Act s (s.enterVehicle k) := by
  unfold State.enterVehicle
  split
  · exact .refl s
  · exact .present ..

theorem State.closeLane_act (k : EntryId) (s : State) : Act s (s.closeLane k) := by
  unfold State.closeLane
  extract_lets s1 c
  have x : Act s s1 := State.moveLane_act ..
  clear_value s1
  refine .trans x (.house s1 ?_)
  exact House.notify_stage ..

theorem State.arrival_act (k : EntryId) (s : State) : Act s (s.arrival k) :=
  .trans (State.count_act ..) (.trans (State.moveLane_act ..) (State.notify_act ..))

theorem State.reachIdle_act (k : EntryId) (s : State) : Act s (s.reachIdle k) := by
  unfold State.reachIdle
  dsimp only
  split
  · exact .trans (State.moveLane_act ..) (State.closeLane_act ..)
  · exact State.moveLane_act ..

theorem State.visitEnd_act (k : EntryId) (s : State) : Act s (s.visitEnd k) :=
  .trans (State.count_act ..) (State.reachIdle_act ..)

theorem State.onStall_act (n : Screen) (r p : Nat) (f : Stall → Stall) (s : State) :
    Act s (s.onHouse (House.onStall n r p f)) := .lot ..

theorem State.refreshFull_act (n : Screen) (s : State) : Act s (s.onHouse (House.refreshFull n)) := by
  have split' : ∀ h : House, House.refreshFull n h = h ∨
      ∃ b k fs, House.refreshFull n h = (h.onLot n fun l => { l with full := b }).notify k fs := by
    intro h
    unfold House.refreshFull
    dsimp only
    split
    · exact .inl rfl
    · exact .inr ⟨_, _, _, rfl⟩
  unfold State.onHouse
  rcases split' s.house with e | ⟨b, k, fs, e⟩
  · rw [e]; exact .refl s
  · rw [e]; exact .trans (.lot n (fun l => { l with full := b }) s) (State.notify_act k fs _)

theorem State.assignStall_act (n : Screen) (p : Nat × Nat) (party : Nat) (k : EntryId) (s : State) :
    Act s (s.onHouse (House.assignStall n p party k)) :=
  .trans (State.onStall_act n p.1 p.2 _ s) (State.refreshFull_act n _)

theorem State.admitStall_act (g : Grant) (s : State) : Act s (s.onHouse (House.admitStall g)) :=
  State.onStall_act g.screen g.row g.position _ s

theorem State.freeStall_act (g : Grant) (s : State) : Act s (s.onHouse (House.freeStall g)) :=
  .trans (State.onStall_act g.screen g.row g.position _ s) (State.refreshFull_act g.screen _)

theorem State.lowered_act (k : EntryId) (s : State) : Act s (s.lowered k) := by
  unfold State.lowered
  dsimp only
  split
  · exact State.closeLane_act ..
  · split
    · exact State.arrival_act ..
    · exact State.reachIdle_act ..

theorem State.lookDown_act (k : EntryId) (s : State) : Act s (s.lookDown k) := by
  unfold State.lookDown
  dsimp only
  split
  · exact State.lowered_act ..
  · exact .refl s

theorem State.passGrant_act (k : EntryId) (kind : PassKind) (s : State) : Act s (s.passGrant k kind) := by
  unfold State.passGrant
  split
  · exact .refl s
  · exact .trans (State.admitStall_act ..) (.trans (State.count_act ..) (.trans (State.enterVehicle_act ..)
      (.trans (State.moveLane_act ..) (.trans (State.notify_act ..) (State.lookDown_act ..)))))

theorem State.backout_act (k : EntryId) (s : State) : Act s (s.backout k) := by
  unfold State.backout
  split
  · exact .refl s
  · exact .trans (State.freeStall_act ..) (.trans (State.count_act ..) (.trans (State.moveLane_act ..)
      (.trans (State.notify_act ..) (State.lookDown_act ..))))

theorem State.lapse_act (k : EntryId) (s : State) : Act s (s.lapse k) := by
  unfold State.lapse
  split
  · exact .refl s
  · exact .trans (State.freeStall_act ..) (.trans (State.count_act ..) (.trans (State.moveLane_act ..)
      (.trans (State.notify_act ..) (State.lookDown_act ..))))

theorem State.enterPassing_act (k : EntryId) (s : State) : Act s (s.enterPassing k) := by
  unfold State.enterPassing
  extract_lets s1 l seen
  have x : Act s s1 := State.moveLane_act ..
  clear_value s1
  split
  · exact .trans x (State.passGrant_act ..)
  · split
    · exact .trans x (State.backout_act ..)
    · exact x

theorem State.lookUp_act (k : EntryId) (s : State) : Act s (s.lookUp k) := by
  unfold State.lookUp
  dsimp only
  split
  · exact State.enterPassing_act ..
  · exact .refl s

theorem State.lookArm_act (k : EntryId) (s : State) : Act s (s.lookArm k) :=
  .trans (State.lookUp_act ..) (State.lookDown_act ..)

theorem State.takeGrant_act (k : EntryId) (n : Screen) (p : Nat × Nat) (party : Nat) (s : State) :
    Act s (s.takeGrant k n p party) :=
  .trans (State.assignStall_act ..) (.trans (State.count_act ..) (.trans (State.moveLane_act ..) (State.lookUp_act ..)))

theorem State.jam_act (k : EntryId) (s : State) : Act s (s.jam k) := by
  unfold State.jam
  extract_lets l s1 s2 s3 stall
  have x1 : Act s s1 := by
    unfold s1
    split
    · exact .trans (State.freeStall_act ..) (State.count_act ..)
    · exact .refl s
  exact .trans x1 (.trans (State.count_act ..) (.trans (State.moveLane_act ..) (State.notify_act ..)))

theorem State.arriveEvent_act (k : EntryId) (s : State) : Act s (s.arriveEvent k) := by
  unfold State.arriveEvent
  dsimp only
  split
  · exact State.arrival_act ..
  · exact State.visitEnd_act ..
  · split
    · split
      · exact .refl s
      · exact State.backout_act ..
    · exact .refl s
  · exact .refl s

theorem State.unpaidCrossing_act (k : EntryId) (s : State) : Act s (s.unpaidCrossing k) :=
  .trans (State.count_act ..) (.trans (State.enterVehicle_act ..) (State.notify_act ..))

theorem State.tailgate_act (k : EntryId) (s : State) : Act s (s.tailgate k) :=
  .trans (State.count_act ..) (.trans (State.enterVehicle_act ..) (.trans (.lane ..) (State.notify_act ..)))

theorem State.clearEvent_act (k : EntryId) (s : State) : Act s (s.clearEvent k) := by
  unfold State.clearEvent
  dsimp only
  split
  · exact .lane ..
  · exact .lane ..
  · exact State.tailgate_act ..
  · exact State.unpaidCrossing_act ..
  · exact State.unpaidCrossing_act ..
  · exact State.unpaidCrossing_act ..
  · exact State.unpaidCrossing_act ..
  · split
    · split
      · exact State.passGrant_act ..
      · exact .refl s
    · exact .refl s
  · exact .trans (.lane ..) (State.lookDown_act ..)
  · exact .lane ..

theorem State.arriveSettles_act (k : EntryId) (s : State) : Act s (s.arriveSettles k) := by
  unfold State.arriveSettles
  split
  · exact .refl s
  · exact .trans (.lane ..) (State.arriveEvent_act ..)

theorem State.clearSettles_act (k : EntryId) (s : State) : Act s (s.clearSettles k) := by
  unfold State.clearSettles
  split
  · exact .refl s
  · exact .trans (.lane ..) (State.clearEvent_act ..)

theorem State.exitSettles_act (j : ExitId) (s : State) : Act s (s.exitSettles j) := by
  unfold State.exitSettles
  dsimp only
  split
  · exact .refl s
  · split
    · exact .exit ..
    · split
      · exact .trans (.present (s.present - 1) s) (.exit ..)
      · exact .exit ..

theorem State.loopRaw_act (loop : LoopId) (level : Bool) (s : State) : Act s (s.loopRaw loop level) := by
  unfold State.loopRaw
  split
  · exact .lane ..
  · exact .lane ..
  · exact .exit ..

theorem State.armUpLevel_act (k : EntryId) (level : Bool) (s : State) : Act s (s.armUpLevel k level) := by
  unfold State.armUpLevel
  dsimp only
  split
  · exact .trans (.lane ..) (State.lookUp_act ..)
  · exact .lane ..

theorem State.armDownLevel_act (k : EntryId) (level : Bool) (s : State) : Act s (s.armDownLevel k level) := by
  unfold State.armDownLevel
  dsimp only
  split
  · exact .trans (.lane ..) (State.lookDown_act ..)
  · exact .lane ..

theorem State.armTimeout_act (k : EntryId) (s : State) : Act s (s.armTimeout k) := by
  unfold State.armTimeout
  split
  · exact .refl s
  · split
    · exact State.jam_act ..
    · exact State.jam_act ..
    · exact .refl s

theorem State.passTimeout_act (k : EntryId) (s : State) : Act s (s.passTimeout k) := by
  unfold State.passTimeout
  split
  · exact .refl s
  · exact State.lapse_act ..

theorem State.armTravelEnd_act (k : EntryId) (s : State) : Act s (s.armTravelEnd k) := by
  unfold State.armTravelEnd
  split
  · exact .trans (.lane ..) (State.lookArm_act ..)
  · exact .refl s

theorem State.laneOpen_act (k : EntryId) (s : State) : Act s (s.laneOpen k).1 := by
  unfold State.laneOpen
  extract_lets l s1 s2
  split
  · split
    · exact .refl s
    · refine .trans (.lane k (fun l => { l with closePending := false }) s) ?_
      unfold s2
      split
      · exact State.arrival_act ..
      · exact State.reachIdle_act ..
  · split
    · exact .refl s
    · refine .trans (.lane k (fun l => { l with closePending := false }) s) ?_
      unfold s2
      split
      · exact State.arrival_act ..
      · exact State.reachIdle_act ..
  · exact .lane ..

theorem State.admit_act (k : EntryId) (screen : Nat) (stall : Option (Nat × Nat)) (party : Nat) (s : State) :
    Act s (s.grantStall k screen stall party).1 := by
  unfold State.grantStall
  extract_lets inRange l
  repeat' split
  all_goals first
    | exact .refl s
    | exact State.takeGrant_act ..

/-- A chain of chains. -/
theorem State.foldl_act {β : Type} (f : State → β → State) (step : ∀ s b, Act s (f s b)) (l : List β) (s : State) :
    Act s (l.foldl f s) := by
  induction l generalizing s with
  | nil => exact .refl s
  | cons b rest ih => exact .trans (step s b) (ih _)

theorem State.laneDue_act (s : State) (k : EntryId) : Act s (s.laneDue k) := by
  unfold State.laneDue
  extract_lets s1 s2 s3 s4
  have x1 : Act s s1 := by
    unfold s1; split
    · exact State.clearSettles_act ..
    · exact .refl _
  have x2 : Act s1 s2 := by
    unfold s2; split
    · exact State.arriveSettles_act ..
    · exact .refl _
  have x3 : Act s2 s3 := by
    unfold s3; split
    · exact State.armTravelEnd_act ..
    · exact .refl _
  have x4 : Act s3 s4 := by
    unfold s4; split
    · exact State.armTimeout_act ..
    · exact .refl _
  have all : Act s s4 := .trans x1 (.trans x2 (.trans x3 x4))
  clear_value s4
  split
  · exact .trans all (State.passTimeout_act ..)
  · exact all

theorem State.exitDue_act (s : State) (j : ExitId) : Act s (s.exitDue j) := by
  unfold State.exitDue
  split
  · exact State.exitSettles_act ..
  · exact .refl s

theorem State.departStall_act (n : Screen) (p : Nat × Nat) (s : State) :
    Act s (s.onHouse fun h => h.departStall n p) := by
  have x : House.Stage s.house ((s.house.stallOrders n p.1 p.2).foldl (House.endOrder .canceled .stallLeft) s.house) :=
    .sound (House.foldl_sound _ (House.endOrder_sound _ _) _ _)
  exact .trans (.house s x) (.trans (State.onStall_act n p.1 p.2 _ _) (State.refreshFull_act n _))

end Machine
end Sys2Proof
end

