-- ==== Sys2Proof/Laws/Apart.lean ====
section
/-! SUPPORT. What show control does to one screen leaves every other screen's Show Controller, Cue Line Unit and gain
alone: one lemma per operation of Shows.lean, for a screen `m` other than the operation's own `n` (given as a `Fact`, so
that no proof below has to pass it on). -/

set_option autoImplicit false

namespace Sys2Proof
namespace Machine

/-- A change leaves the Show Controller, the Cue Line Unit and the gain of screen `m` alone. -/
structure House.Apart (m : Screen) (h h' : House) : Prop where
  show' : h'.ctl m = h.ctl m
  line' : h'.line m = h.line m
  gain' : h'.gain m = h.gain m

theorem House.Apart.refl {m : Screen} (h : House) : House.Apart m h h := ⟨rfl, rfl, rfl⟩

theorem House.Apart.trans {m : Screen} {a b c : House} (x : House.Apart m a b) (y : House.Apart m b c) :
    House.Apart m a c :=
  ⟨y.show'.trans x.show', y.line'.trans x.line', y.gain'.trans x.gain'⟩

theorem House.Apart.sound {m : Screen} {a b : House} (x : House.Sound a b) : House.Apart m a b :=
  ⟨by rw [House.ctl, House.ctl, x.kept.shows], by rw [House.line, House.line, x.kept.lines],
    by rw [House.gain, House.gain, x.kept.gains]⟩

theorem House.Apart.ctl {m : Screen} (n : Screen) (f : ShowCtl → ShowCtl) (h : House) [ne : Fact (n ≠ m)] :
    House.Apart m h (h.onCtl n f) :=
  ⟨by rw [House.onCtl_ctl_any, if_neg ne.out.symm], rfl, rfl⟩

theorem House.Apart.line {m : Screen} (n : Screen) (f : CueLine → CueLine) (h : House) [ne : Fact (n ≠ m)] :
    House.Apart m h (h.onLine n f) :=
  ⟨rfl, by rw [House.onLine_line_any, if_neg ne.out.symm], rfl⟩

theorem House.Apart.gain {m : Screen} (n : Screen) (f : Gain → Gain) (h : House) [ne : Fact (n ≠ m)] :
    House.Apart m h (h.onGain n f) :=
  ⟨rfl, rfl, by rw [House.onGain_gain_any, if_neg ne.out.symm]⟩

theorem House.Apart.admission {m : Screen} (n : Screen) (b : Bool) (h : House) :
    House.Apart m h (h.onLot n fun l => { l with admission := b }) := ⟨rfl, rfl, rfl⟩

theorem House.Apart.clips {m : Screen} (c : Vector ClipRec 127) (h : House) :
    House.Apart m h { h with clips := c } := ⟨rfl, rfl, rfl⟩

open House (Apart)

/-! ### Publishing -/

theorem House.refreshAdmission_apart (n m : Screen) [Fact (n ≠ m)] (h : House) : Apart m h (h.refreshAdmission n) := .admission ..

theorem House.refreshCountdown_apart (n m : Screen) [Fact (n ≠ m)] (h : House) : Apart m h (h.refreshCountdown n) := .ctl ..

theorem House.phaseChanged_apart (n m : Screen) [Fact (n ≠ m)] (h : House) : Apart m h (h.phaseChanged n) :=
  .trans (.sound (.trans (House.wakePlayer_sound n h) (House.releaseOn_sound ..))) (House.refreshAdmission_apart ..)

theorem House.publish_apart (n m : Screen) [Fact (n ≠ m)] (old : Phase) (h : House) : Apart m h (h.publish n old) := by
  unfold House.publish
  split
  · exact .refl h
  · exact House.phaseChanged_apart ..

/-! ### Cue lines -/

theorem House.attempt_apart (n m : Screen) [Fact (n ≠ m)] (x : Exchange) (h : House) : Apart m h (h.attempt n x) :=
  .line ..

theorem House.beginExchange_apart (n m : Screen) [Fact (n ≠ m)] (p q : Bool) (r : CueRequest) (k : Nat) (h : House) :
    Apart m h (h.beginExchange n p q r k) := House.attempt_apart ..

theorem House.askShow_apart (n m : Screen) [Fact (n ≠ m)] (r : CueRequest) (h : House) : Apart m h (h.askShow n r) := by
  unfold House.askShow
  dsimp only
  split
  · exact .refl h
  · split
    · exact House.beginExchange_apart ..
    · exact .line ..

theorem House.beginWaiting_apart (n m : Screen) [Fact (n ≠ m)] (h : House) : Apart m h (h.beginWaiting n) := by
  unfold House.beginWaiting
  dsimp only
  split
  · exact .trans (.line ..) (House.beginExchange_apart ..)
  · exact .refl h

theorem House.notify_apart (m : Screen) (k : Subkind) (fs : List Field) (h : House) : Apart m h (h.notify k fs) := .sound (.notify ..)

theorem House.abandon_apart (n m : Screen) [Fact (n ≠ m)] (h : House) : Apart m h (h.abandon n) := by
  unfold House.abandon
  extract_lets h1
  have x : Apart m h h1 := .line ..
  clear_value h1
  split
  · split
    · exact .trans x (House.notify_apart ..)
    · exact x
  · exact x

/-! ### Slots and records -/

theorem House.notifyDone_apart (n m : Screen) [Fact (n ≠ m)] (h : House) : Apart m h (h.notifyDone n) := House.notify_apart ..

theorem House.dropRefs_apart (m : Screen) (ids : List Nat) (h : House) : Apart m h (h.dropRefs ids) := by
  rw [House.dropRefs_eq]; exact .clips ..

theorem House.emptySlot_apart (n m : Screen) [Fact (n ≠ m)] (h : House) : Apart m h (h.emptySlot n) := by
  unfold House.emptySlot
  dsimp only
  split
  · exact .trans (House.dropRefs_apart _ _ _) (.ctl ..)
  · exact .ctl ..

theorem House.endWait_apart (n m : Screen) [Fact (n ≠ m)] (h : House) : Apart m h (h.endWait n) := .ctl ..

/-! ### Entries -/

theorem House.offerStartClip_apart (n m : Screen) [Fact (n ≠ m)] (clip : Nat) (h : House) : Apart m h (h.offerStartClip n clip) := by
  unfold House.offerStartClip
  have x := House.offer_sound n { cls := .show, clips := [clip], origin := .show } h
  split
  · next e => rw [e] at x; exact .trans (.sound x) (.trans (House.notify_apart ..) (.ctl ..))
  · next e =>
    rw [e] at x
    refine .sound (.trans x (.trans ?_ (House.settleQueue_sound ..)))
    split
    · exact House.reportDeparture_sound ..
    · exact .refl _

theorem House.runEntry_apart (n m : Screen) [Fact (n ≠ m)] (old : Phase) (h : House) : Apart m h (h.runEntry n old) := by
  unfold House.runEntry
  extract_lets e h1 h2 h3 h4 h5
  have x1 : Apart m h h1 := .ctl ..
  have x2 : Apart m h1 h2 := .gain n _ h1
  have x3 : Apart m h2 h3 := House.notify_apart ..
  have x4 : Apart m h3 h4 := by
    unfold h4
    split
    · exact .refl _
    · exact House.offerStartClip_apart ..
  have x5 : Apart m h4 h5 := .trans (House.refreshCountdown_apart ..) (House.publish_apart ..)
  have all : Apart m h h5 := .trans x1 (.trans x2 (.trans x3 (.trans x4 x5)))
  clear_value h5
  split
  · exact .trans all (House.askShow_apart ..)
  · split
    · exact all
    · exact .trans all (House.askShow_apart ..)
  · split
    · exact all
    · exact .trans all (House.askShow_apart ..)
  · exact all

theorem House.beginEntry_apart (n m : Screen) [Fact (n ≠ m)] (old : Phase) (h : House) : Apart m h (h.beginEntry n old) := by
  unfold House.beginEntry
  split
  · exact .trans (.ctl ..) (.trans (House.refreshCountdown_apart ..) (House.publish_apart ..))
  · exact House.runEntry_apart ..

theorem House.startShow_apart (n m : Screen) [Fact (n ≠ m)] (late : Nat) (h : House) : Apart m h (h.startShow n late) := by
  unfold House.startShow
  split
  · exact .refl h
  · exact .trans (House.notify_apart ..) (.trans (.ctl ..) (House.beginEntry_apart ..))

theorem House.evalStart_apart (n m : Screen) [Fact (n ≠ m)] (h : House) : Apart m h (h.evalStart n) := by
  unfold House.evalStart
  split
  · split
    · split
      · exact House.startShow_apart ..
      · exact .refl h
    · exact .refl h
  · exact .refl h

theorem House.leaveWait_apart (n m : Screen) [Fact (n ≠ m)] (h : House) : Apart m h (h.leaveWait n) :=
  .trans (House.endWait_apart ..) (House.runEntry_apart ..)

theorem House.holdExpired_apart (n m : Screen) [Fact (n ≠ m)] (h : House) : Apart m h (h.holdExpired n) :=
  .trans (House.notify_apart ..) (House.leaveWait_apart ..)

/-! ### The end of a show -/

theorem House.promote_apart (n m : Screen) [Fact (n ≠ m)] (h : House) : Apart m h (h.promote n) := by
  unfold House.promote
  dsimp only
  split
  · exact .trans (.ctl ..) (.trans (House.refreshCountdown_apart ..) (.trans (House.publish_apart ..) (House.evalStart_apart ..)))
  · exact .trans (.ctl ..) (.trans (House.refreshCountdown_apart ..) (House.publish_apart ..))

theorem House.complete_apart (n m : Screen) [Fact (n ≠ m)] (h : House) : Apart m h (h.complete n) :=
  .trans (.ctl ..) (.trans (House.notifyDone_apart ..) (.trans (House.emptySlot_apart ..) (House.promote_apart ..)))

theorem House.finish_apart (n m : Screen) [Fact (n ≠ m)] (h : House) : Apart m h (h.finish n) := by
  unfold House.finish
  split
  · exact .trans (.ctl ..) (House.refreshCountdown_apart ..)
  · split
    · exact House.complete_apart ..
    · exact .trans (.ctl ..) (.trans (House.refreshCountdown_apart ..) (House.askShow_apart ..))

theorem House.entryEnd_apart (n m : Screen) [Fact (n ≠ m)] (h : House) : Apart m h (h.entryEnd n) := by
  unfold House.entryEnd
  extract_lets old i h1
  have x : Apart m h h1 := .ctl ..
  clear_value h1
  split
  · exact x
  · split
    · exact .trans x (House.finish_apart ..)
    · exact .trans x (.trans (.ctl ..) (House.beginEntry_apart ..))

/-! ### STOPPING and faults -/

theorem House.enterStopping_apart (n m : Screen) [Fact (n ≠ m)] (o : ShowOutcome) (b : Bool) (h : House) :
    Apart m h (h.enterStopping n o b) :=
  .trans (House.abandon_apart ..) (.trans (.ctl ..) (.trans (House.refreshCountdown_apart ..)
    (.trans (House.beginExchange_apart ..) (House.publish_apart ..))))

theorem House.stoppingCheck_apart (n m : Screen) [Fact (n ≠ m)] (h : House) : Apart m h (h.stoppingCheck n) := by
  unfold House.stoppingCheck
  extract_lets c old h1 h2
  split
  · have x1 : Apart m h h1 := House.notifyDone_apart ..
    have x2 : Apart m h1 h2 := by
      unfold h2
      split
      · exact .trans (House.emptySlot_apart ..) (.ctl ..)
      · exact .ctl ..
    exact .trans x1 (.trans x2 (.trans (House.refreshCountdown_apart ..) (House.publish_apart ..)))
  · exact .refl h

theorem House.recordFault_apart (n m : Screen) [Fact (n ≠ m)] (c : Cause) (h : House) : Apart m h (h.recordFault n c) :=
  .trans (.ctl ..) (House.notify_apart ..)

theorem House.showFault_apart (n m : Screen) [Fact (n ≠ m)] (fatal : Bool) (c : Cause) (h : House) : Apart m h (h.showFault n fatal c) := by
  unfold House.showFault
  dsimp only
  split
  · exact House.recordFault_apart ..
  · split <;> split
    · exact .trans (House.recordFault_apart ..) (House.enterStopping_apart ..)
    · exact House.recordFault_apart ..
    · exact .trans (House.recordFault_apart ..) (House.enterStopping_apart ..)
    · exact House.recordFault_apart ..
  · split
    · exact .trans (House.recordFault_apart ..) (.trans (House.endWait_apart ..) (House.enterStopping_apart ..))
    · exact .refl h
  · exact .refl h

/-! ### Results of exchanges -/

theorem House.latch_apart (n m : Screen) [Fact (n ≠ m)] (x : Exchange) (c : LineCause) (h : House) :
    Apart m h (h.latch n x c) :=
  .line ..

theorem House.noteHalted_apart (n m : Screen) [Fact (n ≠ m)] (v : Verb) (h : House) : Apart m h (h.noteHalted n v) := by
  unfold House.noteHalted
  split <;> first | exact .ctl .. | exact .refl h

theorem House.showResult_apart (n m : Screen) [Fact (n ≠ m)] (x : Exchange) (r : ExchangeEnd) (h : House) :
    Apart m h (h.showResult n x r) := by
  unfold House.showResult
  dsimp only
  split
  · split
    · exact .trans (House.showFault_apart ..) (.trans (.ctl ..) (House.stoppingCheck_apart ..))
    · exact House.showFault_apart ..
  · split
    · split
      · exact House.askShow_apart ..
      · exact .refl h
    · split
      · exact .ctl ..
      · exact .refl h
    · split
      · exact .trans (.ctl ..) (House.stoppingCheck_apart ..)
      · split
        · exact House.complete_apart ..
        · exact .refl h
    · exact .refl h

theorem House.passResult_apart (n m : Screen) [Fact (n ≠ m)] (x : Exchange) (r : ExchangeEnd) (h : House) :
    Apart m h (h.passResult n x r) := by
  unfold House.passResult
  dsimp only
  split
  · split
    · exact House.notify_apart ..
    · exact .trans (House.notify_apart ..) (House.notify_apart ..)
  · exact House.notify_apart ..

theorem House.exchangeEnd_apart (n m : Screen) [Fact (n ≠ m)] (x : Exchange) (r : ExchangeEnd) (h : House) :
    Apart m h (h.exchangeEnd n x r) := by
  unfold House.exchangeEnd
  extract_lets h1 h2 h3 h4
  have x1 : Apart m h h1 := .line ..
  have x2 : Apart m h1 h2 := by
    unfold h2
    split
    · exact House.noteHalted_apart ..
    · exact .refl _
  have x3 : Apart m h2 h3 := by
    unfold h3
    split
    · exact House.latch_apart ..
    · exact .refl _
  have x4 : Apart m h3 h4 := by
    unfold h4
    split
    · exact House.passResult_apart ..
    · exact House.showResult_apart ..
  exact .trans x1 (.trans x2 (.trans x3 (.trans x4 (House.beginWaiting_apart ..))))

theorem House.attemptOver_apart (n m : Screen) [Fact (n ≠ m)] (x : Exchange) (g : Bool) (h : House) : Apart m h (h.attemptOver n x g) := by
  unfold House.attemptOver
  split
  · exact .line ..
  · exact House.exchangeEnd_apart ..

theorem House.answer_apart (n m : Screen) [Fact (n ≠ m)] (f : LineForm) (h : House) : Apart m h (h.answer n f) := by
  unfold House.answer
  split
  · split
    · exact House.exchangeEnd_apart ..
    · exact .refl h
  · split
    · exact House.exchangeEnd_apart ..
    · exact .refl h
  · split
    · exact House.attemptOver_apart ..
    · exact .refl h
  · exact House.attemptOver_apart ..
  · exact .refl h

theorem House.endedReport_apart (n m : Screen) [Fact (n ≠ m)] (k : Nat) (h : House) : Apart m h (h.endedReport n k) := by
  unfold House.endedReport
  dsimp only
  split
  · split
    · exact .trans (House.showFault_apart ..) (House.entryEnd_apart ..)
    · exact House.showFault_apart ..
  · exact .refl h

theorem House.handLine_apart (n m : Screen) [Fact (n ≠ m)] (f : LineForm) (h : House) : Apart m h (h.handLine n f) := by
  unfold House.handLine
  split
  · exact House.endedReport_apart ..
  · exact House.answer_apart ..

/-! ### Frames, stalls and holds -/

theorem House.addFrame_apart (n m : Screen) [Fact (n ≠ m)] (h : House) : Apart m h (h.addFrame n) := by
  unfold House.addFrame
  dsimp only
  split
  · exact .trans (.ctl ..) (House.entryEnd_apart ..)
  · exact .ctl ..

theorem House.pulse_apart (n m : Screen) [Fact (n ≠ m)] (h : House) : Apart m h (h.pulse n) := by
  unfold House.pulse
  split
  · exact .refl h
  · exact .trans (.ctl ..) (House.addFrame_apart ..)

theorem House.timebaseFrame_apart (n m : Screen) [Fact (n ≠ m)] (h : House) : Apart m h (h.timebaseFrame n) := by
  unfold House.timebaseFrame
  split
  · exact .trans (.ctl ..) (House.addFrame_apart ..)
  · exact .refl h

theorem House.skipFrame_apart (n m : Screen) [Fact (n ≠ m)] (h : House) : Apart m h (h.skipFrame n) := by
  unfold House.skipFrame
  split
  · exact .trans (.ctl ..) (House.addFrame_apart ..)
  · exact .refl h

theorem House.generatedPulse_apart (n m : Screen) [Fact (n ≠ m)] (h : House) : Apart m h (h.generatedPulse n) := by
  unfold House.generatedPulse
  split
  · split
    · exact .trans (.ctl ..) (House.pulse_apart ..)
    · exact .refl h
  · exact .refl h

theorem House.holdOver_apart (n m : Screen) [Fact (n ≠ m)] (h : House) : Apart m h (h.holdOver n) := by
  unfold House.holdOver
  split
  · exact .trans (.ctl ..) (House.entryEnd_apart ..)
  · exact .refl h

theorem House.pictureStall_apart (n m : Screen) [Fact (n ≠ m)] (h : House) : Apart m h (h.pictureStall n) := by
  unfold House.pictureStall
  split
  · exact .trans (.ctl ..) (House.showFault_apart ..)
  · exact .refl h

theorem House.silenceReport_apart (n m : Screen) [Fact (n ≠ m)] (h : House) : Apart m h (h.silenceReport n) := by
  unfold House.silenceReport
  dsimp only
  split
  · exact .trans (.ctl ..) (House.showFault_apart ..)
  · exact .refl h

/-! ### Timers -/

theorem House.lineSent_apart (n m : Screen) [Fact (n ≠ m)] (h : House) : Apart m h (h.lineSent n) := by
  unfold House.lineSent
  split
  · exact .refl h
  · exact .line ..

theorem House.answerTimeout_apart (n m : Screen) [Fact (n ≠ m)] (h : House) : Apart m h (h.answerTimeout n) := by
  unfold House.answerTimeout
  split
  · exact House.attemptOver_apart ..
  · exact .refl h

theorem House.backoffEnd_apart (n m : Screen) [Fact (n ≠ m)] (h : House) : Apart m h (h.backoffEnd n) := by
  unfold House.backoffEnd
  split
  · exact House.attempt_apart ..
  · exact .refl h

theorem House.autoAnswered_apart (n m : Screen) [Fact (n ≠ m)] (h : House) : Apart m h (h.autoAnswered n) := by
  unfold House.autoAnswered
  split
  · split
    · exact .trans (.line ..) (House.answer_apart ..)
    · exact .refl h
  · exact .refl h

/-! ### SHOW ABORT and SCREEN RESET -/

theorem House.endShowExchanges_apart (n m : Screen) [Fact (n ≠ m)] (h : House) : Apart m h (h.endShowExchanges n) := by
  unfold House.endShowExchanges
  split
  · split
    · exact .line ..
    · exact House.abandon_apart ..
  · exact .line ..

theorem House.goIdle_apart (n m : Screen) [Fact (n ≠ m)] (h : House) : Apart m h (h.goIdle n) :=
  .trans (House.emptySlot_apart ..) (.trans (.ctl ..) (.trans (House.refreshCountdown_apart ..) (House.publish_apart ..)))

theorem House.abort_apart (n m : Screen) [Fact (n ≠ m)] (h : House) : Apart m h (h.abort n) := by
  unfold House.abort
  dsimp only
  split
  · exact .trans (.ctl ..) (.trans (House.notifyDone_apart ..) (House.goIdle_apart ..))
  · exact .trans (House.endWait_apart ..) (.trans (.ctl ..) (.trans (House.endShowExchanges_apart ..)
      (.trans (House.notifyDone_apart ..) (House.goIdle_apart ..))))
  · exact House.enterStopping_apart ..
  · exact .ctl ..
  · exact House.goIdle_apart ..
  · exact .refl h

theorem House.resetShow_apart (n m : Screen) [Fact (n ≠ m)] (h : House) : Apart m h (h.resetShow n) := by
  unfold House.resetShow
  extract_lets old h1 h2 base h3
  have x1 : Apart m h h1 := .trans (House.abandon_apart ..) (House.emptySlot_apart ..)
  have x2 : Apart m h1 h2 := by
    unfold h2
    split
    · exact House.dropRefs_apart _ _ _
    · exact .refl _
  have x3 : Apart m h2 h3 := .ctl ..
  exact .trans x1 (.trans x2 (.trans x3 (.trans (.line ..)
    (.trans (House.publish_apart ..) (House.refreshAdmission_apart ..)))))

/-! ### Hand-outs of the clock -/

theorem House.startTimeReached_apart (n m : Screen) [Fact (n ≠ m)] (h : House) : Apart m h (h.startTimeReached n) := by
  unfold House.startTimeReached
  split
  · split
    · exact House.startShow_apart ..
    · exact .refl h
  · exact .refl h


end Machine
end Sys2Proof
end

