-- ==== Sys2Proof/Laws/Memory.lean ====
section
/-! SUPPORT. The audio DRAM: every operation keeps the canonical form, and what is read after a write. -/

set_option autoImplicit false

namespace Sys2Proof
namespace Machine

/-! ### The canonical form -/

theorem Memory.wf_cons (c : Host.Cell) (m : Memory) :
    Memory.wf (c :: m) = true ↔ c.2 ≠ unlistedByte ∧ (∀ d ∈ m.head?, c.1 < d.1) ∧ Memory.wf m = true := by
  cases m with
  | nil => simp [Memory.wf]
  | cons d rest => simp [Memory.wf, and_assoc]

/-- In the canonical form every later address lies above the first. -/
theorem Memory.wf_above (c : Host.Cell) (m : Memory) (w : Memory.wf (c :: m) = true) : ∀ d ∈ m, c.1 < d.1 := by
  induction m generalizing c with
  | nil => intro d x; cases x
  | cons e rest ih =>
    rw [Memory.wf_cons] at w
    obtain ⟨_, up, w'⟩ := w
    have ce : c.1 < e.1 := up e rfl
    intro d x
    cases x with
    | head => exact ce
    | tail _ x => exact Nat.lt_trans ce (ih e w' d x)

theorem Memory.wf_of (c : Host.Cell) (m : Memory) (ne : c.2 ≠ unlistedByte) (above : ∀ d ∈ m, c.1 < d.1)
    (w : Memory.wf m = true) : Memory.wf (c :: m) = true := by
  rw [Memory.wf_cons]
  refine ⟨ne, ?_, w⟩
  intro d x
  cases m with
  | nil => cases x
  | cons e rest =>
    obtain rfl : e = d := by simpa using x
    exact above e (List.mem_cons_self ..)

theorem writeByte_mem (m : Memory) (a : Nat) (b : Byte) : ∀ d ∈ writeByte m a b, d.1 = a ∨ d ∈ m := by
  induction m with
  | nil =>
    intro d x
    unfold writeByte at x
    split at x
    · cases x
    · simp only [List.mem_singleton] at x; rw [x]; exact .inl rfl
  | cons c rest ih =>
    intro d x
    unfold writeByte at x
    split at x
    · cases x with
      | head => exact .inr (List.mem_cons_self ..)
      | tail _ x => exact (ih d x).imp id (List.mem_cons_of_mem _)
    · split at x
      · split at x
        · exact .inr (List.mem_cons_of_mem _ x)
        · cases x with
          | head => exact .inl rfl
          | tail _ x => exact .inr (List.mem_cons_of_mem _ x)
      · split at x
        · exact .inr x
        · cases x with
          | head => exact .inl rfl
          | tail _ x => exact .inr x

/-- A write keeps the canonical form. -/
theorem writeByte_wf (m : Memory) (a : Nat) (b : Byte) (w : m.wf = true) : (writeByte m a b).wf = true := by
  induction m with
  | nil =>
    unfold writeByte
    split
    · exact w
    · next ne => exact Memory.wf_of _ _ ne (fun _ x => by cases x) rfl
  | cons c rest ih =>
    have above := Memory.wf_above c rest w
    obtain ⟨ne, _, w'⟩ := (Memory.wf_cons c rest).mp w
    unfold writeByte
    split
    · next lt =>
      refine Memory.wf_of _ _ ne ?_ (ih w')
      intro d x
      rcases writeByte_mem rest a b d x with here | x
      · rw [here]; exact lt
      · exact above d x
    · split
      · next e =>
        split
        · exact w'
        · next nz =>
          refine Memory.wf_of _ _ nz ?_ w'
          intro d x
          show a < d.1
          have := above d x
          omega
      · split
        · exact w
        · next nz =>
          refine Memory.wf_of _ _ nz ?_ w
          intro d x
          show a < d.1
          cases x with
          | head => omega
          | tail _ x => have := above d x; omega

theorem writeSample_wf (m : Memory) (pages : List Nat) (i : Nat) (v : Int) (w : m.wf = true) :
    (writeSample m pages i v).wf = true := writeByte_wf _ _ _ (writeByte_wf _ _ _ w)

theorem writeSamples_wf (vs : List Int) (m : Memory) (pages : List Nat) (i : Nat) (w : m.wf = true) :
    (writeSamples m pages i vs).wf = true := by
  induction vs generalizing m i with
  | nil => exact w
  | cons v rest ih => exact ih _ _ (writeSample_wf m pages i v w)

theorem filter_wf (p : Host.Cell → Bool) (m : Memory) (w : m.wf = true) : Memory.wf (m.filter p) = true := by
  induction m with
  | nil => rfl
  | cons c rest ih =>
    obtain ⟨ne, _, w'⟩ := (Memory.wf_cons c rest).mp w
    rw [List.filter_cons]
    split
    · exact Memory.wf_of _ _ ne (fun d x => Memory.wf_above c rest w d (List.mem_filter.mp x).1) (ih w')
    · exact ih w'

theorem erasePages_wf (m : Memory) (pages : List Nat) (w : m.wf = true) : (erasePages m pages).wf = true :=
  filter_wf _ m w

theorem reset_dram_wf : State.reset.dram.wf = true := rfl

/-! ### Reading after a write -/

theorem readByte_above (m : Memory) (a : Nat) (above : ∀ d ∈ m, a < d.1) : readByte m a = unlistedByte := by
  induction m with
  | nil => rfl
  | cons c rest ih =>
    unfold readByte
    have := above c (List.mem_cons_self ..)
    rw [if_neg (by omega)]
    exact ih fun d x => above d (List.mem_cons_of_mem _ x)

/-- A read after a write to the same address gives the byte written. -/
theorem readByte_writeByte_self (m : Memory) (a : Nat) (b : Byte) (w : m.wf = true) :
    readByte (writeByte m a b) a = b := by
  induction m with
  | nil =>
    unfold writeByte
    split
    · next e => exact e.symm
    · simp [readByte]
  | cons c rest ih =>
    have above := Memory.wf_above c rest w
    obtain ⟨_, _, w'⟩ := (Memory.wf_cons c rest).mp w
    unfold writeByte
    split
    · next lt =>
      unfold readByte
      rw [if_neg (by omega)]
      exact ih w'
    · split
      · next e =>
        split
        · next z => rw [z]; exact readByte_above rest a fun d x => by have := above d x; omega
        · simp [readByte]
      · split
        · next z =>
          rw [z]
          refine readByte_above (c :: rest) a ?_
          intro d x
          cases x with
          | head => omega
          | tail _ x => have := above d x; omega
        · simp [readByte]

/-- A write leaves every other address alone. -/
theorem readByte_writeByte_ne (m : Memory) (a x : Nat) (b : Byte) (ne : x ≠ a) :
    readByte (writeByte m a b) x = readByte m x := by
  induction m with
  | nil =>
    unfold writeByte
    split
    · rfl
    · simp [readByte, ne.symm]
  | cons c rest ih =>
    unfold writeByte
    split
    · unfold readByte
      split
      · rfl
      · exact ih
    · split
      · next e =>
        split
        · conv => rhs; unfold readByte
          rw [if_neg (by omega)]
        · unfold readByte
          rw [if_neg (by simpa using ne.symm), if_neg (by omega)]
      · split
        · rfl
        · conv => lhs; unfold readByte
          rw [if_neg (by simpa using ne.symm)]

end Machine
end Sys2Proof
end

