-- ==== Sys2Proof/Laws/Link.lean ====
section
/-! SUPPORT. The Site Link Interface: what a request frame does in each of the three cases of R189 and R201, and how a
property of the state passes through the taking of a request. -/

set_option autoImplicit false

namespace Sys2Proof
namespace Machine

/-! ### The three cases of a request frame -/

/-- A request that is taken: its rule acts on `s.taken`, and its reply joins the reply order (R189 to R192). -/
theorem State.receive_taken (kind tag : Nat) (rule : State → State × Answer) (after : State → State) (s : State)
    (a : s.accepting) :
    s.receive kind tag rule after =
      after ((rule s.taken).1.answered kind tag (rule s.taken).2.status (rule s.taken).2.fields) := by
  unfold State.receive
  dsimp only
  have a1 : ¬ Config.requestRoom ≤ s.link.requests := Nat.not_le.mpr a.1
  have a2 : ¬ s.link.resetTaken = true := by rw [a.2]; decide
  rw [if_neg (show ¬ Config.requestRoom ≤ (s.onLink fun l => { l with framer := .hunting }).link.requests from a1),
    if_neg (show ¬ (s.onLink fun l => { l with framer := .hunting }).link.resetTaken = true from a2)]
  rfl

theorem request_taken (kind tag : Nat) (rule : State → State × Answer) (s : State) (a : s.accepting) :
    request kind tag rule s =
      .next ((rule s.taken).1.answered kind tag (rule s.taken).2.status (rule s.taken).2.fields) :=
  congrArg _ (State.receive_taken kind tag rule id s a)

theorem houseRequest_taken (kind tag : Nat) (rule : House → House × Answer) (s : State) (a : s.accepting) :
    houseRequest kind tag rule s =
      .next ((s.taken.withHouse (rule s.taken.house).1).answered kind tag (rule s.taken.house).2.status
        (rule s.taken.house).2.fields) :=
  request_taken kind tag (onHouseRule rule) s a

theorem readRequest_taken (kind tag : Nat) (answer : State → Answer) (s : State) (a : s.accepting) :
    readRequest kind tag answer s =
      .next (s.taken.answered kind tag (answer s.taken).status (answer s.taken).fields) :=
  request_taken kind tag (fun s => (s, answer s)) s a

/-- A request frame at a buffer that holds 4 requests is marked busy or discarded (R189). -/
theorem State.receive_busy (kind tag : Nat) (rule : State → State × Answer) (after : State → State) (s : State)
    (full : 4 ≤ s.link.requests) :
    s.receive kind tag rule after = (s.onLink fun l => { l with framer := .hunting }).busyFrame kind tag := by
  unfold State.receive
  exact if_pos full

/-- A request frame behind a taken SITE RESET is kept and not taken (R201). -/
theorem State.receive_untaken (kind tag : Nat) (rule : State → State × Answer) (after : State → State) (s : State)
    (room : s.link.requests < 4) (waits : s.link.resetTaken = true) :
    s.receive kind tag rule after =
      (s.onLink fun l => { l with framer := .hunting }).enqueue
        { kind := kind, tag := tag, busy := false, siteReset := false, reply := none } := by
  unfold State.receive
  rw [if_neg (show ¬ Config.requestRoom ≤ (s.onLink fun l => { l with framer := .hunting }).link.requests from
    Nat.not_le.mpr room)]
  exact if_pos waits

/-! ### Properties that pass through a request -/

/-- A property that the link's receive side and the transmitter do not touch, and that the rule keeps, is kept by the
request. -/
theorem State.receive_keeps (P : State → Prop) (link : ∀ s l, P s → P { s with link := l })
    (out : ∀ s : State, P s → P (s.onHouse fun h => { h with out := h.out.startReply })) (kind tag : Nat)
    (rule : State → State × Answer) (after : State → State) (ruleKeeps : ∀ s, P s → P (rule s).1)
    (afterKeeps : ∀ s, P s → P (after s)) (s : State) (p : P s) : P (s.receive kind tag rule after) := by
  unfold State.receive
  dsimp only
  have p1 : P (s.onLink fun l => { l with framer := .hunting }) := link _ _ p
  generalize (s.onLink fun l => { l with framer := .hunting }) = s1 at p1
  split
  · unfold State.busyFrame
    split
    · exact link _ _ (link _ _ (out _ p1))
    · exact link _ _ p1
  · split
    · exact link _ _ p1
    · unfold State.take
      exact afterKeeps _ (link _ _ (ruleKeeps _ (out _ p1)))

/-! ### The receive buffer -/

theorem Link.requests_append (b : List LinkEntry) (e : LinkEntry) (l : Link) :
    Link.requests { l with buffer := b ++ [e] } = Link.requests { l with buffer := b } + (if e.busy then 0 else 1) := by
  simp only [Link.requests, List.countP_append, List.countP_cons, List.countP_nil]
  cases e.busy <;> rfl

theorem Link.busyMarks_append (b : List LinkEntry) (e : LinkEntry) (l : Link) :
    Link.busyMarks { l with buffer := b ++ [e] } = Link.busyMarks { l with buffer := b } + (if e.busy then 1 else 0) := by
  simp only [Link.busyMarks, List.countP_append, List.countP_cons, List.countP_nil]
  cases e.busy <;> rfl

theorem bumpTo_le (limit n : Nat) : bumpTo limit n ≤ limit := by unfold bumpTo; split <;> omega

end Machine
end Sys2Proof
end

