-- ==== Sys2Proof/Laws/Run.lean ====
section
/-! SUPPORT. What every command but TIME SET and power-on reset does to the whole state, said once: `State.Run s t`
holds when `t` comes from `s` by a chain of the changes named below. -/

set_option autoImplicit false

namespace Sys2Proof
namespace Machine

/-- The chains of changes that commands make. -/
inductive State.Run : State → State → Prop where
  | refl (s : State) : Run s s
  | trans {a b c : State} : Run a b → Run b c → Run a c
  /-- lanes, lots, shows, announcements and orders -/
  | act {s t : State} : State.Act s t → Run s t
  /-- the receive side of the link changes -/
  | link (l : Link) (s : State) : Run s { s with link := l }
  /-- the house changes within its bounds, the clock apart -/
  | settings {h : House} (s : State) (keeps : s.house.bounded → h.bounded) (clock : h.clock = s.house.clock)
    (timeUnset : h.timeUnset = s.house.timeUnset) : Run s { s with house := h }
  /-- a channel pair changes and keeps its residues in range -/
  | channel (c : Vector Channel 4) (s : State)
    (keeps : (∀ n, (tget s.channels n).residuesFine) → ∀ n, (tget c n).residuesFine) : Run s { s with channels := c }
  /-- the partition, the monitor and the free values -/
  | site (units : Nat) (stagedUnits : Option Nat) (monitor : Option Screen) (stagedMonitor : Option (Option Screen))
    (mon : StereoFrame) (draws : Nat) (s : State) :
    Run s { s with
      units := units, stagedUnits := stagedUnits, monitor := monitor, stagedMonitor := stagedMonitor, mon := mon,
      draws := draws }
  /-- the audio DRAM changes and keeps its form -/
  | dram (m : Memory) (s : State) (keeps : s.dram.wf = true → m.wf = true) : Run s { s with dram := m }
  /-- the lanes change -/
  | lanes (l : Vector EntryLane 6) (x : Vector ExitLane 2) (p : Nat) (s : State) :
    Run s { s with lanes := l, exits := x, present := p }

/-- What no such change breaks. -/
structure State.RunKept (s t : State) : Prop where
  clock : t.house.clock = s.house.clock
  timeUnset : t.house.timeUnset = s.house.timeUnset
  pending : t.pending = s.pending
  bounded : s.house.bounded → t.house.bounded
  residues : (∀ n, (s.channel n).residuesFine) → ∀ n, (t.channel n).residuesFine
  dram : s.dram.wf = true → t.dram.wf = true

theorem State.Run.kept {s t : State} (x : State.Run s t) : State.RunKept s t := by
  induction x with
  | refl s => exact ⟨rfl, rfl, rfl, id, id, id⟩
  | trans _ _ p q =>
    exact ⟨q.clock.trans p.clock, q.timeUnset.trans p.timeUnset, q.pending.trans p.pending, q.bounded ∘ p.bounded,
      q.residues ∘ p.residues, q.dram ∘ p.dram⟩
  | act a =>
    have k := a.kept
    refine ⟨k.house.clock, k.house.timeUnset, k.pending, k.fine, ?_, ?_⟩
    · intro f n; unfold State.channel; rw [k.channels]; exact f n
    · intro f; rw [k.dram]; exact f
  | link l s => exact ⟨rfl, rfl, rfl, id, id, id⟩
  | settings s keeps clock timeUnset => exact ⟨clock, timeUnset, rfl, keeps, id, id⟩
  | channel c s keeps => exact ⟨rfl, rfl, rfl, id, keeps, id⟩
  | site _ _ _ _ _ _ s => exact ⟨rfl, rfl, rfl, id, id, id⟩
  | dram m s keeps => exact ⟨rfl, rfl, rfl, id, id, keeps⟩
  | lanes l x p s => exact ⟨rfl, rfl, rfl, id, id, id⟩

open State (Run)

theorem State.onHouse_run (f : House → House) (s : State) (x : House.Stage s.house (f s.house)) : Run s (s.onHouse f) :=
  .act (.house s x)

theorem State.startReply_run (s : State) : Run s (s.onHouse fun h => { h with out := h.out.startReply }) :=
  .settings s (fun ⟨a, b, c, d, e⟩ => ⟨a, b, c, d, Outbox.startReply_bounded _ e⟩) rfl rfl

theorem State.busyFrame_run (kind tag : Nat) (s : State) : Run s (s.busyFrame kind tag) := by
  unfold State.busyFrame
  split
  · exact .trans (State.startReply_run s) (.trans (.link _ _) (.link _ _))
  · exact .link _ _

theorem State.receive_run (kind tag : Nat) (rule : State → State × Answer) (after : State → State) (s : State)
    (ruleRun : ∀ s, Run s (rule s).1) (afterRun : ∀ s, Run s (after s)) : Run s (s.receive kind tag rule after) := by
  unfold State.receive
  dsimp only
  refine .trans (.link { s.link with framer := .hunting } s) ?_
  show Run (s.onLink fun l => { l with framer := .hunting }) _
  generalize (s.onLink fun l => { l with framer := .hunting }) = s1
  split
  · exact State.busyFrame_run ..
  · split
    · exact .link _ _
    · unfold State.take
      exact .trans (State.startReply_run s1) (.trans (ruleRun _) (.trans (.link _ _) (afterRun _)))

theorem request_run (kind tag : Nat) (rule : State → State × Answer) (s t : State)
    (ruleRun : ∀ s, Run s (rule s).1) (e : request kind tag rule s = .next t) : Run s t := by
  unfold request at e
  cases e
  exact State.receive_run kind tag rule id s ruleRun fun s => .refl s

/-- A house rule made of stages. -/
theorem houseRequest_run (kind tag : Nat) (rule : House → House × Answer) (s t : State)
    (ruleStage : ∀ h, House.Stage h (rule h).1) (e : houseRequest kind tag rule s = .next t) : Run s t :=
  request_run kind tag (onHouseRule rule) s t (fun s => .act (.house s (ruleStage s.house))) e

/-- A house rule that keeps the bounds and the clock. -/
theorem houseRequest_run' (kind tag : Nat) (rule : House → House × Answer) (s t : State)
    (keeps : ∀ h, h.bounded → (rule h).1.bounded) (clock : ∀ h, (rule h).1.clock = h.clock)
    (unset : ∀ h, (rule h).1.timeUnset = h.timeUnset) (e : houseRequest kind tag rule s = .next t) : Run s t :=
  request_run kind tag (onHouseRule rule) s t (fun s => .settings s (keeps s.house) (clock _) (unset _)) e

theorem readRequest_run (kind tag : Nat) (answer : State → Answer) (s t : State)
    (e : readRequest kind tag answer s = .next t) : Run s t :=
  request_run kind tag (fun s => (s, answer s)) s t (fun s => .refl s) e

theorem houseEvent_run (f : House → House) (s t : State) (x : ∀ h, House.Stage h (f h))
    (e : houseEvent f s = .next t) : Run s t := by
  cases e; exact State.onHouse_run f s (x _)

end Machine
end Sys2Proof
end

