-- ==== Sys2Proof/Laws/CommandRuns.lean ====
section
/-! SUPPORT. Every command but TIME SET and power-on reset is a chain of the changes of Laws/Run.lean. -/

set_option autoImplicit false

namespace Sys2Proof
namespace Machine

open House (Stage)
open State (Run Act)

theorem onScreen_stage (screen : Nat) (rule : Screen → House → House × Answer) (x : ∀ n h, Stage h (rule n h).1)
    (h : House) : Stage h (onScreen screen rule h).1 := by
  unfold onScreen
  split
  · exact x _ h
  · exact .refl h

theorem onScreen_of {P : House → House → Prop} (refl : ∀ h, P h h) (screen : Nat)
    (rule : Screen → House → House × Answer) (x : ∀ n h, P h (rule n h).1) (h : House) :
    P h (onScreen screen rule h).1 := by
  unfold onScreen
  split
  · exact x _ h
  · exact refl h

theorem onEntry_run (lane : Nat) (rule : EntryId → State → State × Answer) (x : ∀ k s, Run s (rule k s).1) (s : State) :
    Run s (onEntry lane rule s).1 := by
  unfold onEntry
  split
  · exact x _ s
  · exact .refl s

theorem entryRequest_run (kind tag lane : Nat) (rule : EntryId → State → State × Answer) (s t : State)
    (x : ∀ k s, Run s (rule k s).1) (e : entryRequest kind tag lane rule s = .next t) : Run s t :=
  request_run kind tag _ s t (onEntry_run lane rule x) e

theorem State.onChannel_run (n : Screen) (f : Channel → Channel) (s : State)
    (keeps : (s.channel n).residuesFine → (f (s.channel n)).residuesFine) : Run s (s.onChannel n f) := by
  refine .channel (tmod s.channels n f) s ?_
  intro x m
  rw [tget_tmod]
  split
  · next e => subst e; exact keeps (x _)
  · exact x m

/-! ### Site commands -/

theorem State.chooseFrame_run (s : State) : Run s s.chooseFrame := by
  unfold State.chooseFrame
  split
  · split
    · exact .settings s (fun ⟨a, b, c, d, e⟩ => ⟨a, b, c, d, e⟩) rfl rfl
    · exact .settings s (fun ⟨a, b, c, d, e⟩ => ⟨a, b, c, d, Outbox.startNotice_bounded _ e⟩) rfl rfl
  · exact .settings s (fun ⟨a, b, c, d, e⟩ => ⟨a, b, c, d, Outbox.startNotice_bounded _ e⟩) rfl rfl

theorem State.freeTransmitter_run (s : State) : Run s s.freeTransmitter :=
  .settings s (fun ⟨a, b, c, d, e⟩ => ⟨a, b, c, d, e⟩) rfl rfl

theorem CueLine.siteReset_bounded (l : CueLine) : l.siteReset.bounded := by
  have b : CueLine.reset.bounded := ⟨by decide, by decide, by decide, by decide, by decide⟩
  exact b

theorem defaultPolicy_duck (p : Fin 6) : (tget defaultPolicy p).duck ≤ 32768 := by
  revert p; decide

theorem House.siteReset_bounded (h : House) (b : h.bounded) : h.siteReset.bounded := by
  have e : House.ordersFine .reset := ⟨by decide, by decide, by decide, by decide, by decide⟩
  refine ⟨e, ⟨?_, ?_⟩, ⟨b.gains.1, defaultPolicy_duck⟩, ?_, ?_⟩
  · intro n; show (tget (Vector.replicate 4 []) n).length ≤ 12; rw [tget_replicate]; decide
  · intro n; show (tget (h.stations.map Station.siteReset) n).ticketsFine 1; rw [tget_map]
    exact (⟨by decide, by decide, by decide⟩ : Station.ticketsFine 1 Station.reset)
  · intro n
    show (tget (h.lines.map CueLine.siteReset) n).bounded
    rw [tget_map]
    exact CueLine.siteReset_bounded _
  · have o : Outbox.reset.bounded := ⟨by decide, by decide, by decide⟩
    exact o

theorem State.siteReset_run (s : State) : Run s s.siteReset := by
  refine .trans (.settings (h := s.house.siteReset) s (House.siteReset_bounded _) rfl rfl) ?_
  refine .trans (.lanes (s.lanes.map EntryLane.siteReset) (s.exits.map ExitLane.siteReset) 0 _) ?_
  refine .trans (.channel (Vector.ofFn fun n => (s.channel n).siteReset (s.house.clipTail n)) _ ?_) ?_
  · intro f n; rw [tget_ofFn]; exact f n
  exact .trans (.site s.units s.stagedUnits s.monitor (some none) s.mon s.draws _) (.link _ _)

theorem State.frameSent_run (s : State) : Run s s.frameSent := by
  unfold State.frameSent
  split
  · exact .refl s
  · exact .trans (State.freeTransmitter_run s) (State.chooseFrame_run _)
  · split
    · exact .trans (State.freeTransmitter_run s) (State.chooseFrame_run _)
    · split
      · exact State.siteReset_run s
      · exact .trans (State.freeTransmitter_run s) (.trans (.link _ _) (State.chooseFrame_run _))

theorem State.clearStatus_run (b : Bool) (s : State) : Run s (State.clearStatus b s) := by
  unfold State.clearStatus
  try dsimp only
  have x : Run s (s.onHouse fun h => { h with out := { h.out with noticeLost := false, lostCount := 0 } }) :=
    .settings s (fun ⟨a, b, c, d, e⟩ => ⟨a, b, c, d, ⟨e.1, Nat.zero_le _, e.2.2⟩⟩) rfl rfl
  split
  · exact .trans x (.link _ _)
  · exact x

theorem execSiteStatus_run (tag clear : Nat) (s t : State) (e : execSiteStatus tag clear s = .next t) : Run s t := by
  unfold execSiteStatus at e
  split at e
  · cases e; exact State.receive_run _ _ _ _ s (fun s => .refl s) (State.clearStatus_run _)
  · exact readRequest_run _ _ _ _ _ e

theorem execSiteReset_run (tag : Nat) (s t : State) (e : execSiteReset tag s = .next t) : Run s t := by
  cases e; exact State.receive_run _ _ _ _ s (fun s => .refl s) fun s => .link _ _

theorem execSiteResetTakesEffect_run (s t : State) (e : execSiteResetTakesEffect s = .next t) : Run s t := by
  unfold execSiteResetTakesEffect at e
  cases e
  split
  · exact State.siteReset_run s
  · exact .refl s

theorem execNoticeMask_run (tag mask : Nat) (s t : State) (e : execNoticeMask tag mask s = .next t) : Run s t := by
  refine houseRequest_run' _ _ _ s t ?_ ?_ ?_ e
  · intro h b
    try dsimp only
    split
    · exact b
    · next m => exact ⟨b.orders, b.queues, b.gains, b.lines, ⟨b.out.1, b.out.2.1, by show mask < 4194304; omega⟩⟩
  · intro h; (try dsimp only); split <;> rfl
  · intro h; (try dsimp only); split <;> rfl

theorem execUnknownKind_run (kind tag : Nat) (body : List Nat) (s t : State)
    (e : execUnknownKind kind tag body s = .next t) : Run s t := by
  unfold execUnknownKind at e
  split at e
  · cases e; exact .refl s
  · split at e
    · exact readRequest_run _ _ _ _ _ e
    · exact readRequest_run _ _ _ _ _ e
    · exact request_run _ _ _ s t (onEntry_run _ _ fun k s => .refl s) e
    · cases e; exact .refl s

theorem execLinkBusyMark_run (kind tag : Nat) (s t : State) (e : execLinkBusyMark kind tag s = .next t) : Run s t := by
  unfold execLinkBusyMark at e
  cases e
  split
  · exact .trans (.link { s.link with framer := .hunting } s) (State.busyFrame_run ..)
  · exact .refl s

theorem execReceiveFrameDiscarded_run (bytes : List Nat) (s t : State)
    (e : execReceiveFrameDiscarded bytes s = .next t) : Run s t := by
  unfold execReceiveFrameDiscarded at e
  split at e <;> cases e
  · exact .trans (.link { s.link with framer := .hunting } s) (.link _ _)
  · exact .trans (.link { s.link with framer := .hunting } s) (.link _ _)
  · exact .refl s
  · exact .refl s

theorem execFrameGapTimeout_run (s t : State) (e : execFrameGapTimeout s = .next t) : Run s t := by
  unfold execFrameGapTimeout at e
  split at e <;> cases e
  · exact .trans (.link { s.link with framer := .hunting } s) (.link _ _)
  · exact .refl s

theorem execLineBreak_run (s t : State) (e : execLineBreak s = .next t) : Run s t := by cases e; exact .link _ _

theorem execStartByteReceived_run (s t : State) (e : execStartByteReceived s = .next t) : Run s t := by
  cases e; exact .link _ _

theorem execTransmitFrameEnd_run (s t : State) (e : execTransmitFrameEnd s = .next t) : Run s t := by
  cases e; exact State.frameSent_run s

/-! ### Show commands -/

/-- A house that differs in tables outside the bounds. -/
theorem House.bounded.tables {h h' : House} (b : h.bounded) (e1 : h'.orders = h.orders) (e2 : h'.queues = h.queues)
    (e3 : h'.stations = h.stations) (e4 : h'.gains = h.gains) (e5 : h'.policy = h.policy) (e6 : h'.lines = h.lines)
    (e7 : h'.out = h.out) (e8 : h'.nextNumber = h.nextNumber) (e9 : h'.nextJoin = h.nextJoin := by rfl) : h'.bounded :=
  b.of_eq e1 e2 e3 e4 e5 e6 e7 e8 e9

theorem execCueWrite_run (tag i k c l p f q : Nat) (s t : State) (e : execCueWrite tag i k c l p f q s = .next t) :
    Run s t := by
  refine houseRequest_run' _ _ _ s t ?_ ?_ ?_ e
  · intro h b
    try dsimp only
    repeat' split
    all_goals first | exact b | exact b.tables rfl rfl rfl rfl rfl rfl rfl rfl
  · intro h; repeat' split
    all_goals rfl
  · intro h; repeat' split
    all_goals rfl

theorem House.placeShow_stage (n : Screen) (d : ShowDesc) (h : House) : Stage h (h.placeShow n d) := by
  unfold House.placeShow
  try dsimp only
  refine .trans (House.takeRefs_stage (h.startClips d) h) ?_
  split
  · exact .trans (.ctl ..) (.trans (House.refreshCountdown_stage ..) (.trans (House.publish_stage ..) (House.evalStart_stage ..)))
  · exact .ctl ..

theorem House.showLoad_stage (screen : Nat) (d : Option ShowDesc) (h : House) : Stage h (h.showLoad screen d).1 := by
  unfold House.showLoad
  repeat' split
  all_goals first | exact .refl h | exact House.placeShow_stage ..

theorem execShowLoad_run (tag n i a c r p m d q : Nat) (s t : State)
    (e : execShowLoad tag n i a c r p m d q s = .next t) : Run s t :=
  houseRequest_run _ _ _ s t (House.showLoad_stage _ _) e

theorem execShowStart_run (tag screen : Nat) (s t : State) (e : execShowStart tag screen s = .next t) : Run s t := by
  refine houseRequest_run _ _ _ s t (onScreen_stage _ _ fun n h => ?_) e
  try dsimp only
  split
  · exact House.startShow_stage ..
  · exact .refl h

theorem execHoldExpired_run (n : Screen) (s t : State) (e : execHoldExpired n s = .next t) : Run s t := by
  refine houseEvent_run _ s t (fun h => ?_) e
  try dsimp only
  split
  · exact House.holdExpired_stage ..
  · exact .refl h

theorem execShowNext_run (tag screen : Nat) (s t : State) (e : execShowNext tag screen s = .next t) : Run s t := by
  refine houseRequest_run _ _ _ s t (onScreen_stage _ _ fun n h => ?_) e
  try dsimp only
  split
  · exact House.entryEnd_stage ..
  · exact .refl h

theorem execShowAbort_run (tag screen : Nat) (s t : State) (e : execShowAbort tag screen s = .next t) : Run s t := by
  refine houseRequest_run _ _ _ s t (onScreen_stage _ _ fun n h => ?_) e
  try dsimp only
  split
  · exact .refl h
  · exact House.abort_stage ..

theorem execShowRelease_run (tag screen : Nat) (s t : State) (e : execShowRelease tag screen s = .next t) : Run s t := by
  refine houseRequest_run _ _ _ s t (onScreen_stage _ _ fun n h => ?_) e
  try dsimp only
  split
  · exact .trans (House.emptySlot_stage ..) (House.promote_stage ..)
  · exact .refl h

theorem execShowPromote_run (tag screen : Nat) (s t : State) (e : execShowPromote tag screen s = .next t) : Run s t := by
  refine houseRequest_run _ _ _ s t (onScreen_stage _ _ fun n h => ?_) e
  try dsimp only
  repeat' split
  all_goals first | exact .refl h | exact House.promote_stage ..

theorem execScreenStatus_run (tag screen : Nat) (s t : State) (e : execScreenStatus tag screen s = .next t) : Run s t :=
  houseRequest_run _ _ _ s t (onScreen_stage _ _ fun _ h => .refl h) e

theorem State.screenReset_run (n : Screen) (s : State) : Run s (s.screenReset n) := by
  exact .trans (State.onHouse_run _ s (House.resetShow_stage n _)) (State.onChannel_run _ _ _ id)

theorem execScreenReset_run (tag screen : Nat) (s t : State) (e : execScreenReset tag screen s = .next t) : Run s t := by
  refine request_run _ _ _ s t (fun s => ?_) e
  try dsimp only
  split
  · exact State.screenReset_run ..
  · exact .refl s

theorem House.bounded.setPolicy {h : House} (b : h.bounded) (p : Fin 6) (row : PolicyRow) (d : row.duck ≤ 32768) :
    House.bounded { h with policy := tset h.policy p row } := by
  refine ⟨b.orders, b.queues, ⟨b.gains.1, fun q => ?_⟩, b.lines, b.out⟩
  show (tget (tset h.policy p row) q).duck ≤ 32768
  rw [tget_tset]
  split
  · exact d
  · exact b.gains.2 q

theorem execPhasePolicySetRow_run (tag p a i c d : Nat) (s t : State)
    (e : execPhasePolicySetRow tag p a i c d s = .next t) : Run s t := by
  refine houseRequest_run' _ _ _ s t ?_ ?_ ?_ e
  · intro h b
    split
    · split
      · next q => exact (House.policyChanged_stage _).fine (b.setPolicy _ _ q)
      · exact b
    · exact b
  · intro h
    split
    · split
      · exact (House.policyChanged_stage _).kept.clock
      · rfl
    · rfl
  · intro h
    split
    · split
      · exact (House.policyChanged_stage _).kept.timeUnset
      · rfl
    · rfl

theorem execPhasePolicySetLimits_run (tag a b : Nat) (s t : State)
    (e : execPhasePolicySetLimits tag a b s = .next t) : Run s t := by
  refine houseRequest_run' _ _ _ s t ?_ ?_ ?_ e
  · intro h b
    split
    · exact (House.policyChanged_stage _).fine (b.tables rfl rfl rfl rfl rfl rfl rfl rfl)
    · exact b
  · intro h
    split
    · exact (House.policyChanged_stage _).kept.clock
    · rfl
  · intro h
    split
    · exact (House.policyChanged_stage _).kept.timeUnset
    · rfl

theorem execFramePulse_run (n : Screen) (s t : State) (e : execFramePulse n s = .next t) : Run s t := by
  refine houseEvent_run _ s t (fun h => ?_) e
  try dsimp only
  split
  · exact .refl h
  · exact House.pulse_stage ..

theorem execCueLineSet_run (tag screen a b : Nat) (s t : State) (e : execCueLineSet tag screen a b s = .next t) :
    Run s t := by
  refine houseRequest_run _ _ _ s t (onScreen_stage _ _ fun n h => ?_) e
  try dsimp only
  split
  · next r => exact House.onLine_stage _ _ _ fun l x => ⟨x.1, r.1, r.2.1, r.2.2, x.2.2.2.2⟩
  · exact .refl h

theorem execFaultRead_run (tag screen : Nat) (s t : State) (e : execFaultRead tag screen s = .next t) : Run s t :=
  houseRequest_run _ _ _ s t (onScreen_stage _ _ fun _ h => .refl h) e

theorem execFaultClear_run (tag screen : Nat) (s t : State) (e : execFaultClear tag screen s = .next t) : Run s t :=
  houseRequest_run _ _ _ s t (onScreen_stage _ _ fun _ _ => House.onLine_stage _ _ _) e

theorem execProjectorPass_run (tag n v c q : Nat) (s t : State) (e : execProjectorPass tag n v c q s = .next t) :
    Run s t := by
  refine houseRequest_run _ _ _ s t (onScreen_stage _ _ fun n h => ?_) e
  try dsimp only
  repeat' split
  all_goals first | exact .refl h | exact House.beginExchange_stage ..

theorem execCueLineReceived_run (n : Screen) (cs : List CueChar) (s t : State)
    (e : execCueLineReceived n cs s = .next t) : Run s t := by
  refine houseEvent_run _ s t (fun h => ?_) e
  try dsimp only
  split
  · exact .refl h
  · exact House.foldl_stage _ (House.takeChar_stage n) _ h

/-! ### Sound commands -/

theorem mixSample_residue (p : Int) (gp : Nat) (a : Int) (ga : Nat) (r : Int) :
    0 ≤ (mixSample p gp a ga r).residue ∧ (mixSample p gp a ga r).residue ≤ 32767 := by
  unfold mixSample
  try dsimp only
  split
  · exact ⟨by decide, by decide⟩
  · split
    · exact ⟨by decide, by decide⟩
    · dsimp only
      omega

theorem Channel.frame_residues (c g : Nat) (x : Option Int) (p : StereoFrame) (ch : Channel) :
    (ch.frame c g x p).residuesFine := by
  have l := fun a b c d e => mixSample_residue a b c d e
  exact ⟨(l _ _ _ _ _).1, (l _ _ _ _ _).2, (l _ _ _ _ _).1, (l _ _ _ _ _).2⟩

theorem State.sampleFrame_run (pgm : Vector StereoFrame 4) (s : State) : Run s (s.sampleFrame pgm) := by
  unfold State.sampleFrame
  extract_lets channels mon
  refine .trans (.channel channels s ?_) (.trans (.site s.units s.stagedUnits s.monitor s.stagedMonitor mon s.draws _)
    (.act (.house _ (.sound (House.foldl_sound _ (fun h n => House.advancePlayer_sound n h) allScreens s.house)))))
  intro _ n
  unfold channels
  rw [tget_ofFn]
  exact Channel.frame_residues ..

theorem House.clearQueue_bounded (n : Screen) (h : House) (b : h.bounded) : (h.clearQueue n).bounded := by
  unfold House.clearQueue
  have x : ∀ (l : List Ann) (h : House), h.bounded → (l.foldl (fun h a => h.dropRefs a.clips) h).bounded := by
    intro l
    induction l with
    | nil => exact fun _ => id
    | cons a rest ih => exact fun h b => ih _ ((House.dropRefs_stage a.clips h).fine b)
  have y := x (h.queue n) h b
  generalize (h.queue n).foldl (fun h a => h.dropRefs a.clips) h = h1 at y
  exact ⟨y.orders, ⟨House.queues_tmod h1 n _ y.queues.1 (Nat.zero_le _), y.queues.2⟩, y.gains, y.lines, y.out⟩

theorem House.clearQueue_clock (n : Screen) (h : House) :
    (h.clearQueue n).clock = h.clock ∧ (h.clearQueue n).timeUnset = h.timeUnset := by
  have x := (House.foldl_stage (fun h (a : Ann) => h.dropRefs a.clips) (fun h a => House.dropRefs_stage a.clips h)
    (h.queue n) h).kept
  exact ⟨x.clock, x.timeUnset⟩

theorem House.onGain_bounded (n : Screen) (f : Gain → Gain) (h : House) (b : h.bounded)
    (le : (f (h.gain n)).gp ≤ 32768) : (h.onGain n f).bounded := by
  refine ⟨b.orders, b.queues, ⟨fun m => ?_, b.gains.2⟩, b.lines, b.out⟩
  rw [House.onGain_gain_any]
  split
  · next e => rw [e]; exact le
  · exact b.gains.1 m

theorem House.startBlockReset_bounded (n : Screen) (r : Option StagedReset) (h : House) (b : h.bounded) :
    (h.startBlockReset n r).bounded := by
  unfold House.startBlockReset
  split
  · exact (House.rescheduleCalls_sound ..).fine (House.clearQueue_bounded _ _
      (House.onGain_bounded n (fun _ => .reset) h b (Nat.le_refl _)))
  · exact (House.rescheduleCalls_sound ..).fine (House.clearQueue_bounded _ _
      (House.onGain_bounded n (fun _ => .reset) h b (Nat.le_refl _)))
  · exact House.onGain_bounded n (fun _ => .reset) h b (Nat.le_refl _)
  · exact b

theorem House.startBlockReset_clock (n : Screen) (r : Option StagedReset) (h : House) :
    (h.startBlockReset n r).clock = h.clock ∧ (h.startBlockReset n r).timeUnset = h.timeUnset := by
  unfold House.startBlockReset
  split
  · exact House.clearQueue_clock n (h.onGain n fun _ => .reset)
  · exact House.clearQueue_clock n (h.onGain n fun _ => .reset)
  · exact ⟨rfl, rfl⟩
  · exact ⟨rfl, rfl⟩

theorem moveGain_le (gp target step : Nat) : moveGain gp target step ≤ max gp target := by
  unfold moveGain
  split
  · split <;> omega
  · split <;> omega

theorem House.gainTarget_le (h : House) (n : Screen) (m : MixSettings) (b : h.gainsFine) :
    (h.gainTarget n m).1 ≤ 32768 := by
  unfold House.gainTarget
  split
  · exact Nat.zero_le _
  · split
    · exact b.2 _
    · exact Nat.le_refl _

theorem House.gainReports_stage (n : Screen) (target : Nat) (h : House) : Stage h (h.gainReports n target) := by
  unfold House.gainReports
  extract_lets gp h1
  have x : Stage h h1 := by
    unfold h1
    split
    · exact .sound (.trans (House.startClip_sound ..) (House.settleQueue_sound ..))
    · split
      · exact .sound (.trans (.player ..) (House.wakePlayer_sound ..))
      · exact .refl _
  clear_value h1
  split
  · exact .trans x (House.stoppingCheck_stage ..)
  · exact x

theorem Channel.cleared_residues (c : Channel) : c.cleared.residuesFine :=
  ⟨Int.le_refl _, Int.le_of_lt (by decide : (0 : Int) < 32767), Int.le_refl _,
    Int.le_of_lt (by decide : (0 : Int) < 32767)⟩

theorem Channel.startBlock_residues (c : Channel) (f : c.residuesFine) : c.startBlock.residuesFine := by
  unfold Channel.startBlock
  try dsimp only
  split
  · exact c.cleared_residues
  · exact c.cleared_residues
  · exact c.cleared_residues
  · exact f

theorem State.startScreen_run (s : State) (n : Screen) : Run s (s.startScreen n) := by
  unfold State.startScreen
  extract_lets c h c1 level goal h1
  have k1 : Run s { s with house := h1.gainReports n goal.1 } := by
    refine .settings s ?_ ?_ ?_
    · intro b
      have bh : h.bounded := House.startBlockReset_bounded _ _ _ b
      refine (House.gainReports_stage ..).fine (House.onGain_bounded n _ h bh ?_)
      exact Nat.le_trans (moveGain_le ..) (Nat.max_le.mpr ⟨bh.gains.1 n, House.gainTarget_le _ _ _ bh.gains⟩)
    · exact (House.gainReports_stage ..).kept.clock.trans (House.startBlockReset_clock ..).1
    · exact (House.gainReports_stage ..).kept.timeUnset.trans (House.startBlockReset_clock ..).2
  refine .trans k1 (.trans (.site s.units s.stagedUnits s.monitor s.stagedMonitor s.mon
    (if h.heldAnn n = none then s.draws + 1 else s.draws) _)
    (State.onChannel_run n (fun _ => { c1 with level := level, target := goal.1 }) _ fun f => ?_))
  have := Channel.startBlock_residues c f
  exact this

/-- A chain of chains. -/
theorem State.foldl_run {β : Type} (f : State → β → State) (step : ∀ s b, Run s (f s b)) (l : List β) (s : State) :
    Run s (l.foldl f s) := by
  induction l generalizing s with
  | nil => exact .refl s
  | cons b rest ih => exact .trans (step s b) (ih _)

theorem State.blockStart_run (s : State) : Run s s.blockStart :=
  .trans (.site s.latestUnits none (s.stagedMonitor.getD s.monitor) none s.mon s.draws s)
    (State.foldl_run _ State.startScreen_run _ _)

theorem House.endSilence_stage (n : Screen) (silent : Bool) (limit : Nat) (h : House) :
    Stage h (h.endSilence n silent limit) := by
  unfold House.endSilence
  extract_lets listening h1 entry
  split
  · have x : Stage h h1 := .gain n _ h fun _ => rfl
    clear_value h1
    split
    · exact .trans x (.trans (.gain n (fun g => { g with reported := true }) _ fun _ => rfl)
        (.trans (House.silenceReport_stage ..) (House.notify_stage ..)))
    · exact x
  · exact .gain n _ h fun _ => rfl

theorem State.endScreen_run (s : State) (n : Screen) : Run s (s.endScreen n) := by
  unfold State.endScreen
  extract_lets c c1 h
  have x : Stage s.house h := by
    unfold h
    split
    · exact House.notify_stage ..
    · exact .refl _
  refine .trans (.act (.house s (.trans x (House.endSilence_stage n c1.silent c1.settings.limit h)))) (State.onChannel_run n (fun _ => c1) _ id)

theorem execMixSet_run (tag n a b c d e f g : Nat) (s t : State) (x : execMixSet tag n a b c d e f g s = .next t) :
    Run s t := by
  refine request_run _ _ _ s t (fun s => ?_) x
  try dsimp only
  split
  · unfold State.mixSet
    try dsimp only
    repeat' split
    all_goals first | exact .refl s | skip
    exact State.onChannel_run _ _ s id
  · exact .refl s

theorem execPartitionSet_run (tag u : Nat) (s t : State) (e : execPartitionSet tag u s = .next t) : Run s t := by
  refine request_run _ _ _ s t (fun s => ?_) e
  unfold State.partitionSet
  repeat' split
  all_goals first | exact .refl s | skip
  refine .trans (.site s.units (some u) s.monitor s.stagedMonitor s.mon s.draws s) (.channel _ _ ?_)
  intro f m
  rw [tget_map]
  exact f m

theorem execLevelRead_run (tag n c : Nat) (s t : State) (e : execLevelRead tag n c s = .next t) : Run s t := by
  unfold execLevelRead at e
  split at e
  · split at e
    · cases e
      refine State.receive_run _ _ _ _ s (fun s => .refl s) fun s => ?_
      split
      · exact State.onChannel_run _ _ s id
      · exact .refl s
    · exact readRequest_run _ _ _ _ _ e
  · exact readRequest_run _ _ _ _ _ e

theorem execMonitorSelect_run (tag n : Nat) (s t : State) (e : execMonitorSelect tag n s = .next t) : Run s t := by
  refine request_run _ _ _ s t (fun s => ?_) e
  try dsimp only
  repeat' split
  all_goals first
    | exact .refl s
    | exact .site s.units s.stagedUnits s.monitor _ s.mon s.draws s

/-! ### Clips -/

theorem House.setClip_stage (id : Nat) (r : ClipRec) (h : House) : Stage h (h.setClip id r) := by
  rw [House.setClip_eq]; exact .clips ..

theorem execClipBegin_run (tag i l : Nat) (s t : State) (e : execClipBegin tag i l s = .next t) : Run s t := by
  refine request_run _ _ _ s t (fun s => ?_) e
  unfold State.clipBegin
  split
  · exact .refl s
  · split
    · exact .refl s
    · split
      · exact .refl s
      · extract_lets pages
        have x : Run s { s with house := s.house.setClip i { state := .loading, length := l, pages := pages, refs := 0 } } :=
          .act (.house s (House.setClip_stage i _ s.house))
        exact .trans x (.dram (erasePages s.dram pages) _ (erasePages_wf _ _))

theorem execClipData_run (tag i o : Nat) (vs : List Int) (s t : State) (e : execClipData tag i o vs s = .next t) :
    Run s t := by
  refine request_run _ _ _ s t (fun s => ?_) e
  unfold State.clipData
  dsimp only
  repeat' split
  all_goals first | exact .refl s | skip
  exact .dram _ _ (writeSamples_wf vs _ _ _)

theorem execClipEnd_run (tag i c : Nat) (s t : State) (e : execClipEnd tag i c s = .next t) : Run s t := by
  refine request_run _ _ _ s t (fun s => ?_) e
  unfold State.clipEnd
  dsimp only
  split
  · exact .refl s
  · split
    · exact .refl s
    · exact State.onHouse_run _ s (House.setClip_stage ..)

theorem execClipFree_run (tag i : Nat) (s t : State) (e : execClipFree tag i s = .next t) : Run s t := by
  refine houseRequest_run _ _ _ s t (fun h => ?_) e
  repeat' split
  all_goals first | exact .refl h | exact House.setClip_stage ..

theorem House.bounded.refs {h : House} (b : h.bounded) (ids : List Nat) : (h.dropRefs ids).bounded :=
  (House.dropRefs_stage ids h).fine b

theorem execCallClipsSet_run (tag p q : Nat) (ds : List Nat) (s t : State)
    (e : execCallClipsSet tag p q ds s = .next t) : Run s t := by
  refine houseRequest_run' _ _ _ s t ?_ ?_ ?_ e
  · intro h b
    dsimp only
    split
    · split
      · exact b
      · dsimp only
        exact (((House.takeRefs_stage _ h).fine b).refs _).tables rfl rfl rfl rfl rfl rfl rfl rfl
    · exact b
  · intro h
    dsimp only
    split
    · split
      · rfl
      · dsimp only
        exact ((House.takeRefs_stage _ h).kept.trans (House.dropRefs_stage _ _).kept).clock
    · rfl
  · intro h
    dsimp only
    split
    · split
      · rfl
      · dsimp only
        exact ((House.takeRefs_stage _ h).kept.trans (House.dropRefs_stage _ _).kept).timeUnset
    · rfl

theorem execCallClipsUnconfigure_run (tag : Nat) (s t : State) (e : execCallClipsUnconfigure tag s = .next t) :
    Run s t := by
  refine houseRequest_run' _ _ _ s t ?_ ?_ ?_ e
  · intro h b
    dsimp only
    exact (b.refs _).tables rfl rfl rfl rfl rfl rfl rfl rfl
  · intro h
    dsimp only
    exact (House.dropRefs_stage _ h).kept.clock
  · intro h
    dsimp only
    exact (House.dropRefs_stage _ h).kept.timeUnset

/-! ### Classes, routes and announcements -/

theorem House.settleAll_sound (h : House) : House.Sound h (allScreens.foldl (fun h n => h.settleQueue n) h) :=
  House.foldl_sound _ (fun h n => House.settleQueue_sound n h) _ h

theorem execClassSetRow_run (tag a b c d : Nat) (s t : State) (e : execClassSetRow tag a b c d s = .next t) :
    Run s t := by
  refine houseRequest_run' _ _ _ s t ?_ ?_ ?_ e
  · intro h b
    split
    · split
      · split
        · dsimp only
          exact (House.settleAll_sound _).fine (b.tables rfl rfl rfl rfl rfl rfl rfl rfl)
        · exact b
      · split
        · dsimp only
          exact (House.settleAll_sound _).fine (b.tables rfl rfl rfl rfl rfl rfl rfl rfl)
        · exact b
    · exact b
  · intro h
    split
    · split
      · split
        · dsimp only
          exact (House.settleAll_sound _).kept.clock
        · exact rfl
      · split
        · dsimp only
          exact (House.settleAll_sound _).kept.clock
        · exact rfl
    · exact rfl
  · intro h
    split
    · split
      · split
        · dsimp only
          exact (House.settleAll_sound _).kept.timeUnset
        · exact rfl
      · split
        · dsimp only
          exact (House.settleAll_sound _).kept.timeUnset
        · exact rfl
    · exact rfl

theorem execClassSetGap_run (tag g : Nat) (s t : State) (e : execClassSetGap tag g s = .next t) : Run s t := by
  refine houseRequest_run' _ _ _ s t ?_ ?_ ?_ e
  · intro h b
    split
    · exact b.tables rfl rfl rfl rfl rfl rfl rfl rfl
    · exact b
  · intro h; split <;> rfl
  · intro h; split <;> rfl

theorem execRouteSet_run (tag c x : Nat) (s t : State) (e : execRouteSet tag c x s = .next t) : Run s t := by
  refine houseRequest_run' _ _ _ s t ?_ ?_ ?_ e
  · intro h b
    repeat' split
    all_goals first | exact b | exact b.tables rfl rfl rfl rfl rfl rfl rfl rfl
  · intro h; repeat' split
    all_goals rfl
  · intro h; repeat' split
    all_goals rfl

theorem House.announceAll_sound (c : AnnClass) (clips : List Nat) (route : List Screen) (h : House) :
    House.Sound h (h.announceAll c clips route).1 := by
  induction route generalizing h with
  | nil => exact .refl h
  | cons n rest ih => exact .trans (House.offerManual_sound ..) (ih _)

theorem House.announce_sound (screen cls : Nat) (clips : List Nat) (h : House) :
    House.Sound h (h.announce screen cls clips).1 := by
  unfold House.announce
  split
  · exact .refl h
  · next c _ =>
    split
    · exact .refl h
    · split
      · exact .refl h
      · split
        · next n _ =>
          have x := House.offerManual_sound n c clips h
          split
          · next e => rw [e] at x; exact x
          · next e => rw [e] at x; exact x
        · dsimp only
          split
          · exact .refl h
          · exact House.announceAll_sound ..

theorem execAnnounce_run (tag n c : Nat) (clips : List Nat) (s t : State) (e : execAnnounce tag n c clips s = .next t) :
    Run s t :=
  houseRequest_run _ _ _ s t (fun _ => .sound (House.announce_sound ..)) e

theorem execAnnounceCancel_run (tag id : Nat) (s t : State) (e : execAnnounceCancel tag id s = .next t) : Run s t := by
  refine houseRequest_run _ _ _ s t (fun h => ?_) e
  repeat' split
  all_goals first | exact .refl h | exact .sound (House.removeAnn_sound ..)

theorem execQueueRead_run (tag n f : Nat) (s t : State) (e : execQueueRead tag n f s = .next t) : Run s t := by
  refine houseRequest_run _ _ _ s t (onScreen_stage _ _ fun n h => ?_) e
  split <;> exact .refl h

theorem execAnnouncementExpiry_run (id : Nat) (s t : State) (e : execAnnouncementExpiry id s = .next t) : Run s t := by
  refine houseEvent_run _ s t (fun h => ?_) e
  repeat' split
  all_goals first
    | exact .refl h
    | exact .sound (.trans (House.depart_sound ..) (House.settleQueue_sound ..))

theorem execGapEnd_run (n : Screen) (s t : State) (e : execGapEnd n s = .next t) : Run s t := by
  refine houseEvent_run _ s t (fun h => ?_) e
  split
  · exact .sound (House.endGap_sound ..)
  · exact .refl h

/-! ### Lanes and lot -/

theorem execLaneSet_run (tag l m d a p : Nat) (s t : State) (e : execLaneSet tag l m d a p s = .next t) : Run s t := by
  unfold execLaneSet at e
  split at e
  · refine request_run _ _ _ s t (fun s => ?_) e
    split
    · exact .act (.exit ..)
    · exact .refl s
  · refine entryRequest_run _ _ _ _ s t (fun k s => ?_) e
    repeat' split
    all_goals first | exact .refl s | exact .act (.lane ..)

theorem execLaneOpen_run (tag l : Nat) (s t : State) (e : execLaneOpen tag l s = .next t) : Run s t :=
  entryRequest_run _ _ _ _ s t (fun k s => .act (State.laneOpen_act k s)) e

theorem execLaneClose_run (tag l : Nat) (s t : State) (e : execLaneClose tag l s = .next t) : Run s t := by
  refine entryRequest_run _ _ _ _ s t (fun k s => ?_) e
  split
  · exact .refl s
  · exact .act (State.closeLane_act k s)
  · exact .act (State.closeLane_act k s)
  · exact .act (.lane ..)

theorem execAdmit_run (tag l n : Nat) (p : Option (Nat × Nat)) (q : Nat) (s t : State)
    (e : execAdmit tag l n p q s = .next t) : Run s t :=
  entryRequest_run _ _ _ _ s t (fun k s => .act (State.admit_act k n p q s)) e

theorem execRefuse_run (tag l : Nat) (s t : State) (e : execRefuse tag l s = .next t) : Run s t := by
  refine entryRequest_run _ _ _ _ s t (fun k s => ?_) e
  split
  · exact .act (.lane ..)
  · exact .refl s
  · exact .refl s

theorem execAttendantPass_run (tag l : Nat) (s t : State) (e : execAttendantPass tag l s = .next t) : Run s t := by
  refine entryRequest_run _ _ _ _ s t (fun k s => ?_) e
  split
  · exact .act (State.passGrant_act ..)
  · exact .refl s
  · exact .refl s

/-- A rule of the house that is a chain of the state's. -/
theorem houseRequest_act (kind tag : Nat) (rule : House → House × Answer) (s t : State)
    (x : ∀ s : State, Act s { s with house := (rule s.house).1 }) (e : houseRequest kind tag rule s = .next t) :
    Run s t :=
  request_run kind tag (onHouseRule rule) s t (fun s => .act (x s)) e

theorem onScreen_act (screen : Nat) (rule : Screen → House → House × Answer)
    (x : ∀ n (s : State), Act s { s with house := (rule n s.house).1 }) (s : State) :
    Act s { s with house := (onScreen screen rule s.house).1 } := by
  unfold onScreen
  split
  · exact x _ s
  · exact .refl s

theorem onStallOf_act (screen row position : Nat) (rule : Screen → House → House × Answer)
    (x : ∀ n (s : State), Act s { s with house := (rule n s.house).1 }) (s : State) :
    Act s { s with house := (onStallOf screen row position rule s.house).1 } := by
  refine onScreen_act screen _ (fun n s => ?_) s
  split
  · exact x n s
  · exact .refl s

theorem State.lotThenFull_act (n : Screen) (f : Lot → Lot) (s : State) :
    Act s { s with house := (s.house.onLot n f).refreshFull n } :=
  .trans (.lot n f s) (State.refreshFull_act n _)

theorem execLotConfigLayout_run (tag n r : Nat) (cs fs : List Nat) (c : Nat) (s t : State)
    (e : execLotConfigLayout tag n r cs fs c s = .next t) : Run s t := by
  refine houseRequest_act _ _ _ s t (onScreen_act _ _ fun n s => ?_) e
  repeat' split
  all_goals first | exact .refl s | exact State.lotThenFull_act ..

theorem execLotConfigCapacity_run (tag n c : Nat) (s t : State)
    (e : execLotConfigCapacity tag n c s = .next t) : Run s t := by
  refine houseRequest_act _ _ _ s t (onScreen_act _ _ fun n s => ?_) e
  split
  · exact .refl s
  · exact State.lotThenFull_act ..

theorem execStallRead_run (tag f n r p : Nat) (s t : State) (e : execStallRead tag f n r p s = .next t) : Run s t := by
  refine houseRequest_act _ _ _ s t (onStallOf_act _ _ _ _ fun n s => ?_) e
  split <;> exact .refl s

theorem execStallBlock_run (tag n r p : Nat) (s t : State) (e : execStallBlock tag n r p s = .next t) : Run s t := by
  refine houseRequest_act _ _ _ s t (onStallOf_act _ _ _ _ fun n s => ?_) e
  split
  · exact State.onStall_act ..
  · exact .refl s

theorem execStallUnblock_run (tag n r p : Nat) (s t : State) (e : execStallUnblock tag n r p s = .next t) : Run s t := by
  refine houseRequest_act _ _ _ s t (onStallOf_act _ _ _ _ fun n s => ?_) e
  split
  · exact State.onStall_act ..
  · exact .refl s

theorem execDepart_run (tag n r p : Nat) (s t : State) (e : execDepart tag n r p s = .next t) : Run s t := by
  refine houseRequest_act _ _ _ s t (onStallOf_act _ _ _ _ fun n s => ?_) e
  split
  · exact State.departStall_act ..
  · exact .refl s

theorem State.sweep_act (n : Screen) (stalls : List (Nat × Nat)) (s : State) :
    Act s { s with house := stalls.foldl (House.departStall n) s.house } := by
  induction stalls generalizing s with
  | nil => exact .refl s
  | cons p rest ih => exact .trans (State.departStall_act n p s) (ih (s.onHouse fun h => h.departStall n p))

theorem execSweep_run (tag n : Nat) (s t : State) (e : execSweep tag n s = .next t) : Run s t :=
  houseRequest_act _ _ _ s t (onScreen_act _ _ fun n s => State.sweep_act n _ s) e

theorem execCountersRead_run (tag l c : Nat) (s t : State) (e : execCountersRead tag l c s = .next t) : Run s t := by
  refine request_run _ _ _ s t (fun s => ?_) e
  split
  · split
    · unfold State.readEntry
      extract_lets l result fields
      clear_value result
      split
      · exact .act (.lane ..)
      · exact .refl s
    · unfold State.readExit
      extract_lets x result fields
      clear_value result
      split
      · exact .act (.exit ..)
      · exact .refl s
    · exact .refl s
  · exact onEntry_run _ _ (fun k s => .refl s) s

/-! ### Orders and kitchen -/

theorem execItemClassSet_run (tag i st b p : Nat) (s t : State) (e : execItemClassSet tag i st b p s = .next t) :
    Run s t := by
  refine houseRequest_run' _ _ _ s t ?_ ?_ ?_ e
  · intro h b
    repeat' split
    all_goals first | exact b | exact b.tables rfl rfl rfl rfl rfl rfl rfl rfl
  · intro h; repeat' split
    all_goals rfl
  · intro h; repeat' split
    all_goals rfl

theorem House.onStation_bounded (st : StationId) (f : Station → Station) (h : House) (b : h.bounded)
    (same : (f (h.station st)).queue = (h.station st).queue) : (h.onStation st f).bounded := by
  refine ⟨b.orders, ⟨b.queues.1, fun su => ?_⟩, b.gains, b.lines, b.out⟩
  rw [House.onStation_station_any]
  split
  · next e => subst e; exact (b.queues.2 _).less (by rw [same])
  · exact b.queues.2 su

theorem State.onStation_run (st : StationId) (f : Station → Station) (s : State)
    (same : (f (s.house.station st)).queue = (s.house.station st).queue) :
    Run s { s with house := s.house.onStation st f } :=
  .settings s (fun b => House.onStation_bounded st f _ b same) rfl rfl

theorem execStationSet_run (tag n o c w : Nat) (s t : State) (e : execStationSet tag n o c w s = .next t) : Run s t := by
  refine request_run _ _ (onHouseRule _) s t (fun s => ?_) e
  unfold onHouseRule
  dsimp only
  repeat' split
  all_goals first | exact .refl s | skip
  exact .trans (State.onStation_run _ _ s rfl) (.act (.house _ (.sound (House.fillSlots_sound ..))))

theorem execOrderPolicySet_run (tag a b c d f : Nat) (s t : State) (e : execOrderPolicySet tag a b c d f s = .next t) :
    Run s t := by
  refine houseRequest_run' _ _ _ s t ?_ ?_ ?_ e
  · intro h b
    dsimp only
    split
    · exact (House.releaseAll_sound _).fine (b.tables rfl rfl rfl rfl rfl rfl rfl rfl)
    · exact b
  · intro h
    dsimp only
    split
    · exact (House.releaseAll_sound _).kept.clock
    · rfl
  · intro h
    dsimp only
    split
    · exact (House.releaseAll_sound _).kept.timeUnset
    · rfl

theorem House.endOrder_run (o : OrderOutcome) (r : EndReason) (k : Nat) (h : House) : Stage h (h.endOrder o r k) :=
  .sound (House.endOrder_sound o r h k)

theorem execOrderCancel_run (tag k : Nat) (s t : State) (e : execOrderCancel tag k s = .next t) : Run s t := by
  refine houseRequest_run _ _ _ s t (fun h => ?_) e
  split
  · dsimp only; exact House.endOrder_run ..
  · exact .refl h

theorem execOrderCollect_run (tag k : Nat) (s t : State) (e : execOrderCollect tag k s = .next t) : Run s t := by
  refine houseRequest_run _ _ _ s t (fun h => ?_) e
  split
  · split
    · dsimp only; exact House.endOrder_run ..
    · exact .refl h
  · exact .refl h

theorem execOrderDelivered_run (tag k : Nat) (s t : State) (e : execOrderDelivered tag k s = .next t) : Run s t := by
  refine houseRequest_run _ _ _ s t (fun h => ?_) e
  split
  · split
    · dsimp only; exact House.endOrder_run ..
    · exact .refl h
  · exact .refl h

theorem execCallRepeatDue_run (k : Nat) (s t : State) (e : execCallRepeatDue k s = .next t) : Run s t := by
  exact houseEvent_run _ s t (fun h => .sound (House.repeatDue_sound h k)) e

theorem House.bumpQueued_sound (st : StationId) (x : Ticket) (h : House) : House.Sound h (h.bumpQueued st x) :=
  .trans (House.onTicket_sound _ _ _ _ (by intro _; rfl)) (House.ticketDone_sound ..)

theorem House.bumpNamed_sound (st : StationId) (k : Nat) (h : House) : House.Sound h (h.bumpNamed st k).1 := by
  unfold House.bumpNamed
  repeat' split
  all_goals first
    | exact .refl h
    | exact House.bumpQueued_sound ..
    | exact House.finishTicket_sound ..
    | exact House.clearVoid_sound ..

theorem execBump_run (tag k st : Nat) (s t : State) (e : execBump tag k st s = .next t) : Run s t := by
  refine houseRequest_run _ _ _ s t (fun h => ?_) e
  repeat' split
  all_goals first | exact .refl h | exact .sound (House.bumpNamed_sound ..)

theorem execButtonBump_run (st : StationId) (s t : State) (e : execButtonBump st s = .next t) : Run s t := by
  refine houseEvent_run _ s t (fun h => ?_) e
  split
  · exact .refl h
  · exact .sound (House.bumpButton_sound ..)

/-! ### Numbers of orders (R140) -/

theorem nextOrderNumber_range (i : Nat) (lo : 1 ≤ i) (hi : i ≤ 999) : 1 ≤ nextOrderNumber i ∧ nextOrderNumber i ≤ 999 := by
  unfold nextOrderNumber; split <;> omega

theorem firstFree_range (used : List Nat) (fuel i : Nat) (lo : 1 ≤ i) (hi : i ≤ 999) :
    1 ≤ firstFree nextOrderNumber used fuel i ∧ firstFree nextOrderNumber used fuel i ≤ 999 := by
  induction fuel generalizing i with
  | zero => exact ⟨lo, hi⟩
  | succ fuel ih =>
    unfold firstFree
    split
    · have := nextOrderNumber_range i lo hi; exact ih _ this.1 this.2
    · exact ⟨lo, hi⟩

/-- The `j`-th number after `i` in the cycle of 999. -/
def cycled (i j : Nat) : Nat := (i - 1 + j) % 999 + 1

theorem nextOrderNumber_cycled (i j : Nat) : nextOrderNumber (cycled i j) = cycled i (j + 1) := by
  unfold nextOrderNumber cycled; split <;> omega

/-- The first free number is the first of the cycle that is not used, or the one after `fuel` used ones. -/
theorem firstFree_cycled (used : List Nat) (fuel i j : Nat) :
    (firstFree nextOrderNumber used fuel (cycled i j) ∉ used) ∨ ∀ k ≤ fuel, k < fuel → cycled i (j + k) ∈ used := by
  induction fuel generalizing j with
  | zero => exact .inr fun k _ lt => absurd lt (Nat.not_lt_zero k)
  | succ fuel ih =>
    unfold firstFree
    split
    · next m =>
      rw [nextOrderNumber_cycled]
      rcases ih (j + 1) with free | all
      · exact .inl free
      · refine .inr fun k _ lt => ?_
        cases k with
        | zero => exact List.contains_iff_mem.mp m
        | succ k =>
          have := all k (by omega) (by omega)
          rwa [show j + (k + 1) = j + 1 + k by omega]
    · next m => exact .inl fun x => m (List.contains_iff_mem.mpr x)

theorem firstFree_end (used : List Nat) (fuel i j : Nat) (all : ∀ k < fuel, cycled i (j + k) ∈ used) :
    firstFree nextOrderNumber used fuel (cycled i j) = cycled i (j + fuel) := by
  induction fuel generalizing j with
  | zero => rfl
  | succ fuel ih =>
    unfold firstFree
    rw [if_pos (List.contains_iff_mem.mpr (show cycled i j ∈ used from all 0 (by omega))), nextOrderNumber_cycled,
      ih (j + 1) (fun k lt => by have := all (k + 1) (by omega); rwa [show j + 1 + k = j + (k + 1) by omega])]
    congr 1; omega

/-- With fewer than 999 numbers in use the number given is free. -/
theorem firstFree_free (used : List Nat) (i : Nat) (lo : 1 ≤ i) (hi : i ≤ 999) (room : used.length < 999) :
    firstFree nextOrderNumber used used.length i ∉ used := by
  have start : i = cycled i 0 := by unfold cycled; omega
  rcases firstFree_cycled used used.length i 0 with free | all
  · rw [start]; exact free
  · intro m
    have stop := firstFree_end used used.length i 0 fun k lt => all k (Nat.le_of_lt lt) lt
    rw [← start] at stop
    rw [stop] at m
    -- the numbers of the cycle up to here are all different, and all used
    have nodup : ((List.range (used.length + 1)).map fun k => cycled i k).Nodup := by
      refine List.Nodup.map_on ?_ List.nodup_range
      intro x hx y hy e
      have := List.mem_range.mp hx
      have := List.mem_range.mp hy
      unfold cycled at e
      omega
    have sub : ((List.range (used.length + 1)).map fun k => cycled i k) ⊆ used := by
      intro x hx
      obtain ⟨k, hk, rfl⟩ := List.mem_map.mp hx
      have lt := List.mem_range.mp hk
      rcases Nat.lt_or_ge k used.length with l | g
      · have := all k (Nat.le_of_lt l) l; rwa [Nat.zero_add] at this
      · have : k = used.length := by omega
        rw [this]; rwa [Nat.zero_add] at m
    have := (List.Nodup.subperm nodup sub).length_le
    simp only [List.length_map, List.length_range] at this
    omega

theorem House.enterOrder_bounded (n : Screen) (r p q : Nat) (m : OrderMode) (ls : List OrderLine) (st : OrderState)
    (ts : List StationId) (h : House) (room : h.orders.length < 192) (b : h.bounded) :
    (h.enterOrder n r p q m ls st ts).bounded := by
  obtain ⟨⟨b1, b2, b3, b4, b5⟩, bq, bg, bl, bo⟩ := b
  have free : h.freeNumber ∉ h.orders.map Order.number := by
    have := firstFree_free (h.orders.map Order.number) h.nextNumber b4 b5 (by rw [List.length_map]; omega)
    rwa [List.length_map] at this
  have range := firstFree_range (h.orders.map Order.number) h.orders.length h.nextNumber b4 b5
  have next := nextOrderNumber_range _ range.1 range.2
  refine ⟨⟨?_, ?_, ?_, next.1, next.2⟩, bq, bg, bl, bo⟩
  · show (h.orders ++ [_]).length ≤ 192
    simp only [List.length_append, List.length_singleton]; omega
  · show ((h.orders ++ [_]).map Order.number).Nodup
    rw [List.map_append]
    refine List.Nodup.append b2 (by simp) ?_
    intro x hx hy
    simp only [List.map_cons, List.map_nil, List.mem_singleton] at hy
    exact free (hy ▸ hx)
  · intro o mem
    rcases List.mem_append.mp mem with x | x
    · exact b3 o x
    · simp only [List.mem_singleton] at x
      rw [x]
      exact range

theorem House.enterOrder_touched (n : Screen) (r p q : Nat) (m : OrderMode) (ls : List OrderLine) (st : OrderState)
    (ts : List StationId) (h : House) (lines : List OrderLine) :
    (h.enterOrder n r p q m ls st ts).touched lines = h.touched lines
      ∧ ∀ su, (h.enterOrder n r p q m ls st ts).station su = h.station su := ⟨rfl, fun _ => rfl⟩

/-- What a rule must do to be a command's: keep the bounds, the clock and TIME_UNSET. -/
def House.Keeps (h h' : House) : Prop :=
  (h.bounded → h'.bounded) ∧ h'.clock = h.clock ∧ h'.timeUnset = h.timeUnset

theorem House.Sound.keeps {h h' : House} (x : House.Sound h h') : House.Keeps h h' :=
  ⟨x.fine, x.kept.clock, x.kept.timeUnset⟩

theorem House.Keeps.trans {a b c : House} (x : House.Keeps a b) (y : House.Keeps b c) : House.Keeps a c :=
  ⟨y.1 ∘ x.1, y.2.1.trans x.2.1, y.2.2.trans x.2.2⟩

theorem House.enterOrder_keeps (n : Screen) (r p q : Nat) (m : OrderMode) (ls : List OrderLine) (st : OrderState)
    (ts : List StationId) (h : House) (room : h.orders.length < 192) :
    House.Keeps h (h.enterOrder n r p q m ls st ts) :=
  ⟨House.enterOrder_bounded n r p q m ls st ts h room, rfl, rfl⟩

theorem House.placeOpen_keeps (n : Screen) (r p q : Nat) (m : OrderMode) (ls : List OrderLine) (h : House)
    (room : h.orders.length < 192) (stations : ∀ st ∈ h.touched ls, (h.station st).hasRoom = true) :
    House.Keeps h (h.placeOpen n r p q m ls).1 := by
  unfold House.placeOpen
  extract_lets e number sts h1 h2
  refine (House.enterOrder_keeps n r p q m ls .queued sts h room).trans (House.Sound.keeps ?_)
  exact .trans (House.joinTickets_sound number ls _ stations) (House.onOrder_sound _ _ _)

theorem House.placeOrder_keeps (n : Screen) (r p q : Nat) (m : OrderMode) (ls : List OrderLine) (h : House) :
    House.Keeps h (h.placeOrder n r p q m ls).1 := by
  have stay : House.Keeps h h := (House.Sound.refl h).keeps
  unfold House.placeOrder
  dsimp only
  split
  · exact stay
  · next room =>
    have room' : h.orders.length < 192 := by unfold Config.orderRecords at room; omega
    split
    · exact stay
    · split
      · exact stay
      · exact House.enterOrder_keeps _ _ _ _ _ _ _ _ h room'
      · split
        · exact stay
        · next all =>
          split
          · exact stay
          · refine House.placeOpen_keeps n r p q m ls h room' ?_
            intro st mem
            have := List.find?_eq_none.mp all st mem
            simpa using this

theorem execOrderPlace_run (tag n r p m : Nat) (ls : List OrderLine) (s t : State)
    (e : execOrderPlace tag n r p m ls s = .next t) : Run s t := by
  have all : ∀ h, House.Keeps h (h.orderPlace n r p m ls).1 := by
    intro h
    unfold House.orderPlace
    repeat' split
    all_goals first | exact (House.Sound.refl h).keeps | exact House.placeOrder_keeps ..
  cases e
  refine State.receive_run _ _ _ _ s (fun u => .settings u (all u.house).1 (all _).2.1 (all _).2.2)
    fun u => .act (.house u ?_)
  unfold House.startPlaced
  split
  · exact .sound (House.foldl_sound _ House.fillSlots_sound _ _)
  · exact .refl _

/-! ### Rehearsal -/

theorem House.rehearseScreen_stage (n : Screen) (on : Bool) (a : Option Nat) (h : House) :
    Stage h (h.rehearseScreen n on a).1 := by
  unfold House.rehearseScreen
  extract_lets setting c
  clear_value setting
  split
  · exact .refl h
  · split
    · split
      · exact .ctl ..
      · exact .refl h
    · split
      · exact .refl h
      · split
        · exact .trans (.ctl ..) (House.onLine_stage _ _ _ fun l b => ⟨b.1, b.2.1, b.2.2.1, b.2.2.2.1, Nat.zero_le _⟩)
        · exact .trans (.ctl ..) (House.onLine_stage _ _ _)

theorem State.rehearseStation_run (st : StationId) (on : Bool) (s : State) :
    Run s { s with house := (s.house.rehearseStation st on).1 } := by
  unfold House.rehearseStation
  dsimp only
  repeat' split
  all_goals first
    | exact .refl s
    | exact State.onStation_run _ _ s rfl
    | exact .trans (State.onStation_run st (fun x => { x with rehearsal := false, pressWait := Config.pressMs }) s rfl)
        (.act (.house _ (.sound (House.clearVoids_sound ..))))

theorem execRehearse_run (tag u x : Nat) (a : Option Nat) (s t : State) (e : execRehearse tag u x a s = .next t) :
    Run s t := by
  refine request_run _ _ _ s t (fun s => ?_) e
  unfold State.rehearse
  split
  · split
    · exact onEntry_run _ _ (fun k s => .refl s) s
    · exact .refl s
  · split
    · exact .act (.house s (House.rehearseScreen_stage ..))
    · refine onEntry_run _ _ (fun k s => ?_) s
      unfold State.rehearseLane
      dsimp only
      repeat' split
      all_goals first | exact .refl s | exact .act (.lane ..)
    · exact State.rehearseStation_run ..
    · exact .refl s

theorem onRehearsing_stage (screen : Nat) (rule : Screen → House → House × Answer) (x : ∀ n h, Stage h (rule n h).1)
    (h : House) : Stage h (onRehearsing screen rule h).1 := by
  refine onScreen_stage _ _ (fun n h => ?_) h
  split
  · exact x n h
  · exact .refl h

theorem execInjectAnswer_run (tag n a q : Nat) (s t : State) (e : execInjectAnswer tag n a q s = .next t) : Run s t := by
  refine houseRequest_run _ _ _ s t (fun h => ?_) e
  split
  · exact onRehearsing_stage _ _ (fun n h => House.answer_stage ..) h
  · exact .refl h

theorem execInjectEnded_run (tag n c : Nat) (s t : State) (e : execInjectEnded tag n c s = .next t) : Run s t := by
  refine houseRequest_run _ _ _ s t (fun h => ?_) e
  split
  · exact onRehearsing_stage _ _ (fun n h => House.endedReport_stage ..) h
  · exact .refl h

theorem execInjectStall_run (tag n : Nat) (s t : State) (e : execInjectStall tag n s = .next t) : Run s t :=
  houseRequest_run _ _ _ s t (onRehearsing_stage _ _ fun _ _ => .ctl ..) e

theorem execInjectResume_run (tag n : Nat) (s t : State) (e : execInjectResume tag n s = .next t) : Run s t :=
  houseRequest_run _ _ _ s t (onRehearsing_stage _ _ fun _ _ => .ctl ..) e

theorem onRehearsingLane_run (rule : EntryId → State → State × Answer) (x : ∀ k s, Run s (rule k s).1) (k : EntryId)
    (s : State) : Run s (onRehearsingLane rule k s).1 := by
  unfold onRehearsingLane
  split
  · exact x k s
  · exact .refl s

theorem execInjectLoop_run (tag l o v : Nat) (s t : State) (e : execInjectLoop tag l o v s = .next t) : Run s t := by
  refine entryRequest_run _ _ _ _ s t (fun k s => ?_) e
  dsimp only
  split
  all_goals first
    | exact .refl s
    | exact onRehearsingLane_run _ (fun k s => .act (.lane ..)) k s

theorem execInjectJam_run (tag l a : Nat) (s t : State) (e : execInjectJam tag l a s = .next t) : Run s t := by
  refine entryRequest_run _ _ _ _ s t (fun k s => ?_) e
  split
  all_goals first
    | exact .refl s
    | exact onRehearsingLane_run _ (fun k s => .act (.lane ..)) k s

theorem execInjectBump_run (tag st : Nat) (s t : State) (e : execInjectBump tag st s = .next t) : Run s t := by
  refine houseRequest_run _ _ _ s t (fun h => ?_) e
  repeat' split
  all_goals first | exact .refl h | exact .sound (House.bumpButton_sound ..)

/-! ### Every command -/

/-- Every command but TIME SET and power-on reset is a chain of the changes of Laws/Run.lean. -/
theorem exec_run (c : Instr) (s t : State) (e : exec c s = .next t) (notTime : ∀ tag d m, c ≠ .timeSet tag d m)
    (notPower : ∀ b1 b0, c ≠ .powerOnReset b1 b0) : Run s t := by
  cases c with
  | powerOnReset b1 b0 => exact absurd rfl (notPower b1 b0)
  | hello _ => exact readRequest_run _ _ _ s t e
  | siteStatus _ _ => exact execSiteStatus_run _ _ s t e
  | siteReset _ => exact execSiteReset_run _ s t e
  | siteResetTakesEffect => exact execSiteResetTakesEffect_run s t e
  | timeSet tag d m => exact absurd rfl (notTime tag d m)
  | noticeMask _ _ => exact execNoticeMask_run _ _ s t e
  | unknownKind _ _ _ => exact execUnknownKind_run _ _ _ s t e
  | linkBusyMark _ _ => exact execLinkBusyMark_run _ _ s t e
  | receiveFrameDiscarded _ => exact execReceiveFrameDiscarded_run _ s t e
  | frameGapTimeout => exact execFrameGapTimeout_run s t e
  | lineBreak => exact execLineBreak_run s t e
  | transmitFrameEnd => exact execTransmitFrameEnd_run s t e
  | wholeSecond => exact houseEvent_run _ s t (House.wholeSecond_stage) e
  | expirySweep => exact houseEvent_run _ s t (House.wholeMinute_stage) e
  | lateWindowEnd _ => exact houseEvent_run _ s t (House.lateWindowEnd_stage _) e
  | cueWrite _ _ _ _ _ _ _ _ => exact execCueWrite_run _ _ _ _ _ _ _ _ s t e
  | cueRead _ _ => exact readRequest_run _ _ _ s t e
  | showLoad _ _ _ _ _ _ _ _ _ _ => exact execShowLoad_run _ _ _ _ _ _ _ _ _ _ s t e
  | showStart _ _ => exact execShowStart_run _ _ s t e
  | showStartTimeReached _ => exact houseEvent_run _ s t (House.startTimeReached_stage _) e
  | holdExpired _ => exact execHoldExpired_run _ s t e
  | showNext _ _ => exact execShowNext_run _ _ s t e
  | showAbort _ _ => exact execShowAbort_run _ _ s t e
  | showRelease _ _ => exact execShowRelease_run _ _ s t e
  | showPromote _ _ => exact execShowPromote_run _ _ s t e
  | screenStatus _ _ => exact execScreenStatus_run _ _ s t e
  | screenReset _ _ => exact execScreenReset_run _ _ s t e
  | phasePolicySetRow _ _ _ _ _ _ => exact execPhasePolicySetRow_run _ _ _ _ _ _ s t e
  | phasePolicySetLimits _ _ _ => exact execPhasePolicySetLimits_run _ _ _ s t e
  | framePulse _ => exact execFramePulse_run _ s t e
  | pictureStall _ => exact houseEvent_run _ s t (House.pictureStall_stage _) e
  | timebaseFrame _ => exact houseEvent_run _ s t (House.timebaseFrame_stage _) e
  | skipTimebaseFrame _ => exact houseEvent_run _ s t (House.skipFrame_stage _) e
  | holdEntryElapsed _ => exact houseEvent_run _ s t (House.holdOver_stage _) e
  | cueLineSet _ _ _ _ => exact execCueLineSet_run _ _ _ _ s t e
  | faultRead _ _ => exact execFaultRead_run _ _ s t e
  | faultClear _ _ => exact execFaultClear_run _ _ s t e
  | projectorPass _ _ _ _ _ => exact execProjectorPass_run _ _ _ _ _ s t e
  | verbLineSent _ => exact houseEvent_run _ s t (House.lineSent_stage _) e
  | cueLineReceived _ _ => exact execCueLineReceived_run _ _ s t e
  | answerTimeout _ => exact houseEvent_run _ s t (House.answerTimeout_stage _) e
  | backoffEnd _ => exact houseEvent_run _ s t (House.backoffEnd_stage _) e
  | sampleFrame _ _ _ _ => cases e; exact State.sampleFrame_run ..
  | blockStart => cases e; exact State.blockStart_run s
  | blockEnd => cases e; exact State.foldl_run _ State.endScreen_run _ s
  | mixSet _ _ _ _ _ _ _ _ _ => exact execMixSet_run _ _ _ _ _ _ _ _ _ s t e
  | partitionSet _ _ => exact execPartitionSet_run _ _ s t e
  | levelRead _ _ _ => exact execLevelRead_run _ _ _ s t e
  | monitorSelect _ _ => exact execMonitorSelect_run _ _ s t e
  | clipBegin _ _ _ => exact execClipBegin_run _ _ _ s t e
  | clipData _ _ _ _ => exact execClipData_run _ _ _ _ s t e
  | clipEnd _ _ _ => exact execClipEnd_run _ _ _ s t e
  | clipFree _ _ => exact execClipFree_run _ _ s t e
  | clipList _ _ => exact readRequest_run _ _ _ s t e
  | callClipsSet _ _ _ _ => exact execCallClipsSet_run _ _ _ _ s t e
  | callClipsUnconfigure _ => exact execCallClipsUnconfigure_run _ s t e
  | classSetRow _ _ _ _ _ => exact execClassSetRow_run _ _ _ _ _ s t e
  | classSetGap _ _ => exact execClassSetGap_run _ _ s t e
  | routeSet _ _ _ => exact execRouteSet_run _ _ _ s t e
  | announce _ _ _ _ => exact execAnnounce_run _ _ _ _ s t e
  | announceCancel _ _ => exact execAnnounceCancel_run _ _ s t e
  | queueRead _ _ _ => exact execQueueRead_run _ _ _ s t e
  | announcementExpiry _ => exact execAnnouncementExpiry_run _ s t e
  | gapEnd _ => exact execGapEnd_run _ s t e
  | laneSet _ _ _ _ _ _ => exact execLaneSet_run _ _ _ _ _ _ s t e
  | laneOpen _ _ => exact execLaneOpen_run _ _ s t e
  | laneClose _ _ => exact execLaneClose_run _ _ s t e
  | admitCar _ _ _ _ _ => exact execAdmit_run _ _ _ _ _ s t e
  | refuse _ _ => exact execRefuse_run _ _ s t e
  | attendantPass _ _ => exact execAttendantPass_run _ _ s t e
  | loopRawChange _ _ => cases e; exact .act (State.loopRaw_act ..)
  | arriveSettles _ => cases e; exact .act (State.arriveSettles_act ..)
  | clearSettles _ => cases e; exact .act (State.clearSettles_act ..)
  | exitSettles _ => cases e; exact .act (State.exitSettles_act ..)
  | armupAsserted _ _ => cases e; exact .act (State.armUpLevel_act ..)
  | armdnAsserted _ _ => cases e; exact .act (State.armDownLevel_act ..)
  | armTimeout _ => cases e; exact .act (State.armTimeout_act ..)
  | passTimeout _ => cases e; exact .act (State.passTimeout_act ..)
  | lotConfigLayout _ _ _ _ _ _ => exact execLotConfigLayout_run _ _ _ _ _ _ s t e
  | lotConfigCapacity _ _ _ => exact execLotConfigCapacity_run _ _ _ s t e
  | stallRead _ _ _ _ _ => exact execStallRead_run _ _ _ _ _ s t e
  | stallBlock _ _ _ _ => exact execStallBlock_run _ _ _ _ s t e
  | stallUnblock _ _ _ _ => exact execStallUnblock_run _ _ _ _ s t e
  | depart _ _ _ _ => exact execDepart_run _ _ _ _ s t e
  | sweep _ _ => exact execSweep_run _ _ s t e
  | countersRead _ _ _ => exact execCountersRead_run _ _ _ s t e
  | itemClassSet _ _ _ _ _ => exact execItemClassSet_run _ _ _ _ _ s t e
  | stationSet _ _ _ _ _ => exact execStationSet_run _ _ _ _ _ s t e
  | orderPlace _ _ _ _ _ _ => exact execOrderPlace_run _ _ _ _ _ _ s t e
  | orderCancel _ _ => exact execOrderCancel_run _ _ s t e
  | orderCollect _ _ => exact execOrderCollect_run _ _ s t e
  | orderDelivered _ _ => exact execOrderDelivered_run _ _ s t e
  | callRepeatDue _ => exact execCallRepeatDue_run _ s t e
  | bump _ _ _ => exact execBump_run _ _ _ s t e
  | buttonBump _ => exact execButtonBump_run _ s t e
  | orderRead _ _ _ => exact readRequest_run _ _ _ s t e
  | stationRead _ _ _ => exact readRequest_run _ _ _ s t e
  | orderPolicySet _ _ _ _ _ _ => exact execOrderPolicySet_run _ _ _ _ _ _ s t e
  | rehearse _ _ _ _ => exact execRehearse_run _ _ _ _ s t e
  | injectAnswer _ _ _ _ => exact execInjectAnswer_run _ _ _ _ s t e
  | autoAnswer _ => exact houseEvent_run _ s t (House.autoAnswered_stage _) e
  | injectEnded _ _ _ => exact execInjectEnded_run _ _ _ s t e
  | injectStall _ _ => exact execInjectStall_run _ _ s t e
  | injectResume _ _ => exact execInjectResume_run _ _ s t e
  | generatedFramePulse _ => exact houseEvent_run _ s t (House.generatedPulse_stage _) e
  | injectLoop _ _ _ _ => exact execInjectLoop_run _ _ _ _ s t e
  | injectJam _ _ _ => exact execInjectJam_run _ _ _ s t e
  | simulatedArmTravelEnd _ => cases e; exact .act (State.armTravelEnd_act ..)
  | injectBump _ _ => exact execInjectBump_run _ _ s t e
  | startByteReceived => exact execStartByteReceived_run s t e

end Machine
end Sys2Proof
end

