-- ==== Sys2Proof/Laws/Tick.lean ====
section
/-! SUPPORT. One millisecond: what the counts' moving on leaves alone, and what a tick keeps. -/

set_option autoImplicit false

namespace Sys2Proof
namespace Machine

theorem House.pass_clock (h : House) : h.pass.clock = h.clock.next := by unfold House.pass; rfl
@[simp] theorem House.pass_timeUnset (h : House) : h.pass.timeUnset = h.timeUnset := by unfold House.pass; rfl
@[simp] theorem House.pass_out (h : House) : h.pass.out = h.out := by unfold House.pass; rfl
@[simp] theorem House.pass_cues (h : House) : h.pass.cues = h.cues := by unfold House.pass; rfl
@[simp] theorem House.pass_policy (h : House) : h.pass.policy = h.policy := by unfold House.pass; rfl
@[simp] theorem House.pass_maxLaneHold (h : House) : h.pass.maxLaneHold = h.maxLaneHold := by unfold House.pass; rfl
@[simp] theorem House.pass_lateLimit (h : House) : h.pass.lateLimit = h.lateLimit := by unfold House.pass; rfl
@[simp] theorem House.pass_gains (h : House) : h.pass.gains = h.gains := by unfold House.pass; rfl
@[simp] theorem House.pass_clips (h : House) : h.pass.clips = h.clips := by unfold House.pass; rfl
@[simp] theorem House.pass_callClips (h : House) : h.pass.callClips = h.callClips := by unfold House.pass; rfl
@[simp] theorem House.pass_classes (h : House) : h.pass.classes = h.classes := by unfold House.pass; rfl
@[simp] theorem House.pass_gap (h : House) : h.pass.gap = h.gap := by unfold House.pass; rfl
@[simp] theorem House.pass_routes (h : House) : h.pass.routes = h.routes := by unfold House.pass; rfl
@[simp] theorem House.pass_nextAnn (h : House) : h.pass.nextAnn = h.nextAnn := by unfold House.pass; rfl
@[simp] theorem House.pass_players (h : House) : h.pass.players = h.players := by unfold House.pass; rfl
@[simp] theorem House.pass_lots (h : House) : h.pass.lots = h.lots := by unfold House.pass; rfl
@[simp] theorem House.pass_backlog (h : House) : h.pass.backlog = h.backlog := by unfold House.pass; rfl
@[simp] theorem House.pass_nextNumber (h : House) : h.pass.nextNumber = h.nextNumber := by unfold House.pass; rfl
@[simp] theorem House.pass_nextSequence (h : House) : h.pass.nextSequence = h.nextSequence := by unfold House.pass; rfl
@[simp] theorem House.pass_orderPolicy (h : House) : h.pass.orderPolicy = h.orderPolicy := by unfold House.pass; rfl
@[simp] theorem House.pass_items (h : House) : h.pass.items = h.items := by unfold House.pass; rfl
@[simp] theorem House.pass_nextJoin (h : House) : h.pass.nextJoin = h.nextJoin := by unfold House.pass; rfl
@[simp] theorem House.pass_nextCook (h : House) : h.pass.nextCook = h.nextCook := by unfold House.pass; rfl
theorem House.pass_orders (h : House) : h.pass.orders = h.orders.map fun o => { o with due := countDown o.due } := by
  unfold House.pass; rfl
theorem House.pass_ctl (h : House) (n : Screen) : h.pass.ctl n = (h.ctl n).pass (h.entry n) := by
  unfold House.pass House.ctl; rw [tget_ofFn]
theorem House.pass_line (h : House) (n : Screen) : h.pass.line n = (h.line n).pass := by
  unfold House.pass House.line; rw [tget_map]
theorem House.pass_queue (h : House) (n : Screen) :
    h.pass.queue n = (h.queue n).map fun a => { a with wait := a.wait + 1 } := by
  unfold House.pass House.queue; rw [tget_map]
theorem House.pass_station (h : House) (st : StationId) :
    h.pass.station st = (h.station st).pass := by
  unfold House.pass House.station; rw [tget_map]

/-- The counts' moving on keeps the bounds of the house. -/
theorem House.pass_bounded (h : House) (b : h.bounded) : h.pass.bounded := by
  obtain ⟨o, q, g, l, n⟩ := b
  refine ⟨?_, ⟨?_, ?_⟩, ?_, ?_, ?_⟩
  · have o' := House.ordersFine_map (fun o => { o with due := countDown o.due }) h (fun o => ⟨rfl, rfl, rfl, rfl, rfl⟩) o
    unfold House.ordersFine at *
    rw [House.pass_orders, House.pass_nextNumber]
    exact o'
  · intro m; rw [House.pass_queue, List.length_map]; exact q.1 m
  · intro m
    rw [House.pass_station, House.pass_nextJoin]
    have e : Ticket.joined ∘ Ticket.pass = Ticket.joined := by
      funext t
      show (Ticket.pass t).joined = t.joined
      unfold Ticket.pass
      split <;> rfl
    refine (q.2 m).less ?_
    show (((h.station m).queue.map Ticket.pass).map Ticket.joined).Sublist _
    rw [List.map_map, e]
  · unfold House.gainsFine House.gain at *; rw [House.pass_gains, House.pass_policy]; exact g
  · intro m; rw [House.pass_line]; exact l m
  · rw [House.pass_out]; exact n

@[simp] theorem State.pass_pending (s : State) : s.pass.pending = s.pending := by unfold State.pass; rfl
@[simp] theorem State.pass_dram (s : State) : s.pass.dram = s.dram := by unfold State.pass; rfl
@[simp] theorem State.pass_link (s : State) : s.pass.link = s.link := by unfold State.pass; rfl
@[simp] theorem State.pass_channels (s : State) : s.pass.channels = s.channels := by unfold State.pass; rfl
@[simp] theorem State.pass_units (s : State) : s.pass.units = s.units := by unfold State.pass; rfl
@[simp] theorem State.pass_stagedUnits (s : State) : s.pass.stagedUnits = s.stagedUnits := by unfold State.pass; rfl
@[simp] theorem State.pass_monitor (s : State) : s.pass.monitor = s.monitor := by unfold State.pass; rfl
@[simp] theorem State.pass_stagedMonitor (s : State) : s.pass.stagedMonitor = s.stagedMonitor := by unfold State.pass; rfl
@[simp] theorem State.pass_mon (s : State) : s.pass.mon = s.mon := by unfold State.pass; rfl
@[simp] theorem State.pass_present (s : State) : s.pass.present = s.present := by unfold State.pass; rfl
@[simp] theorem State.pass_draws (s : State) : s.pass.draws = s.draws := by unfold State.pass; rfl
theorem State.pass_house (s : State) : s.pass.house = s.house.pass := by unfold State.pass; rfl

/-- What a tick keeps. -/
structure State.TickKept (s t : State) : Prop where
  clock : t.house.clock = s.house.clock.next
  timeUnset : t.house.timeUnset = s.house.timeUnset
  pending : t.pending = s.pending
  dram : t.dram = s.dram
  link : t.link = s.link
  channels : t.channels = s.channels
  units : t.units = s.units
  monitor : t.monitor = s.monitor
  mon : t.mon = s.mon
  settings : t.house.settingsKept s.house
  gains : ∀ n, (t.house.gain n).gp = (s.house.gain n).gp
  bounded : s.house.bounded → t.house.bounded

/-- What happens in a tick after the counts have moved on. -/
def State.fallDue (s : State) : State :=
  (([0, 1] : List ExitId).foldl State.exitDue (allLanes.foldl State.laneDue s)).onHouse fun h =>
    (allScreens.foldl House.screenDue h).callsDue.clockDue

theorem State.fallDue_act (s : State) : State.Act s s.fallDue :=
  .trans (State.foldl_act _ State.laneDue_act _ _) (.trans (State.foldl_act _ State.exitDue_act _ _)
    (.house _ (.trans (House.foldl_stage _ House.screenDue_stage _ _)
      (.trans (.sound (House.callsDue_sound _)) (House.clockDue_stage _)))))

theorem State.tick_eq (s : State) : s.tick = s.pass.fallDue := rfl

theorem State.tick_kept (s : State) : State.TickKept s s.tick := by
  rw [State.tick_eq]
  have k := (State.fallDue_act s.pass).kept
  have e := State.pass_house s
  have e1 := State.pass_pending s
  have e2 := State.pass_dram s
  have e3 := State.pass_link s
  have e4 := State.pass_channels s
  have e5 := State.pass_units s
  have e6 := State.pass_monitor s
  have e7 := State.pass_mon s
  have b := House.pass_bounded s.house
  generalize s.pass = s1 at k e e1 e2 e3 e4 e5 e6 e7
  generalize s1.fallDue = t at k
  have h := k.house
  rw [e] at h
  refine ⟨h.clock.trans (House.pass_clock _), h.timeUnset.trans (House.pass_timeUnset _), k.pending.trans e1,
    k.dram.trans e2, k.link.trans e3, k.channels.trans e4, k.units.trans e5, k.monitor.trans e6, k.mon.trans e7, ?_,
    fun n => (h.gains n).trans ?_, fun x => k.fine (e ▸ b x)⟩
  · exact ⟨h.mask.trans (congrArg Outbox.mask (House.pass_out _)), h.cues.trans (House.pass_cues _),
      h.policy.trans (House.pass_policy _), h.maxLaneHold.trans (House.pass_maxLaneHold _),
      h.lateLimit.trans (House.pass_lateLimit _), h.callClips.trans (House.pass_callClips _),
      h.classes.trans (House.pass_classes _), h.gap.trans (House.pass_gap _), h.routes.trans (House.pass_routes _),
      h.nextNumber.trans (House.pass_nextNumber _), h.nextSequence.trans (House.pass_nextSequence _),
      h.orderPolicy.trans (House.pass_orderPolicy _), h.items.trans (House.pass_items _)⟩
  · rw [House.gain, House.pass_gains]; rfl

end Machine
end Sys2Proof
end

