-- ==== Sys2Proof/Tests/Slice0.lean ====
section
/-! SUPPORT. Tests: ill-formed commands refused, frames written out by hand, the manual's worked examples, and for every
statement with hypotheses a state that meets them (`test_w_…`). Expected values come from the manual's tables and
examples, or from its rules by hand. -/

set_option autoImplicit false
-- the proofs below wait on one another; one after another they need no thread each
set_option Elab.async false

namespace Sys2Proof
namespace Tests

open Machine

/-- The state a command leaves. -/
def ran (c : Instr) (s : State) : State :=
  match exec c s with
  | .next t => t
  | _ => s

/-- The state a step leaves. -/
def stepped (s : State) : State :=
  match step s with
  | .next t => t
  | _ => s

/-- The state a run of commands leaves. -/
def runs (cs : List Instr) (s : State) : State := cs.foldl (fun s c => ran c s) s

/-- The status of the last place of the reply order. -/
def lastStatus (s : State) : Option Status := (s.link.buffer.getLast?.bind LinkEntry.reply).map Reply.status

/-- The fields of the last place of the reply order. -/
def lastFields (s : State) : List Field := (((s.link.buffer.getLast?.bind LinkEntry.reply).map Reply.fields).getD [])

/-- The state with an empty receive buffer, as after all its replies were sent. -/
def drained (s : State) : State := { s with link := { s.link with buffer := [] } }

/-! ### Well-formedness: one ill-formed command for each check -/

theorem test_wf_ok : (Instr.cueWrite 9 255 1 65535 16777215 1 3 127).wf = true := by decide +kernel
theorem test_wf_field_too_wide : (Instr.cueWrite 9 256 1 65535 16777215 1 3 127).wf = false := by decide +kernel
theorem test_wf_tag_not_a_byte : (Instr.hello 256).wf = false := by decide +kernel
theorem test_wf_body_too_long : (Instr.announce 0 1 1 (List.replicate 238 1)).wf = false := by decide +kernel
theorem test_wf_sample : (Instr.clipData 0 1 0 [32768]).wf = false := by decide +kernel
theorem test_wf_digits : (Instr.callClipsSet 0 1 0 [1, 2, 3]).wf = false := by decide +kernel
theorem test_wf_rows : (Instr.lotConfigLayout 0 1 2 [5] [1, 2] 5).wf = false := by decide +kernel
theorem test_wf_garbled_sequence : (Instr.injectAnswer 0 1 4 3).wf = false := by decide +kernel
theorem test_wf_exit_settings : (Instr.laneSet 0 0x21 1 150 0 0).wf = false := by decide +kernel
theorem test_wf_kind_not_a_byte : (Instr.unknownKind 256 0 []).wf = false := by decide +kernel
theorem test_wf_unknown_tag : (Instr.unknownKind 0 256 []).wf = false := by decide +kernel
theorem test_wf_unknown_byte : (Instr.unknownKind 0 0 [256]).wf = false := by decide +kernel
theorem test_wf_unknown_long : (Instr.unknownKind 0 0 (List.replicate 241 0)).wf = false := by decide +kernel
theorem test_wf_busy_mark : (Instr.linkBusyMark 0x10 256).wf = false := by decide +kernel
theorem test_wf_discarded : (Instr.receiveFrameDiscarded [300]).wf = false := by decide +kernel
theorem test_wf_cue_character : (Instr.cueLineReceived 0 [{ byte := 256 }]).wf = false := by decide +kernel
theorem test_wf_frame_sample : (Instr.sampleFrame ⟨8388608, 0⟩ ⟨0, 0⟩ ⟨0, 0⟩ ⟨0, 0⟩).wf = false := by decide +kernel
theorem test_wf_no_announcement : (Instr.announcementExpiry 0).wf = false := by decide +kernel
theorem test_wf_no_order : (Instr.callRepeatDue 1000).wf = false := by decide +kernel

/-! ### Frames written out from R186 and R195 to R197 -/

/-- Site: TIME SET, day 3, 12:00:00.000 (43,200,000 = 0x02932E00). -/
theorem test_decode_time_set :
    decodeRequest 0x13 7 [0x00, 0x03, 0x02, 0x93, 0x2E, 0x00] = .request (.timeSet 7 3 43200000) := by decide +kernel
/-- Show: CUE WRITE of index 5 with the 9 bytes of R196. -/
theorem test_decode_cue_write :
    decodeRequest 0x20 1 [5, 1, 0x12, 0x34, 0x00, 0x38, 0x40, 2, 1, 9] =
      .request (.cueWrite 1 5 1 0x1234 14400 2 1 9) := by decide +kernel
/-- Sound: CLIP DATA of clip 3 from sample 256 on, two samples, the second −2 in two's complement. -/
theorem test_decode_clip_data :
    decodeRequest 0x35 2 [3, 0x00, 0x01, 0x00, 2, 0x01, 0x00, 0xFF, 0xFE] =
      .request (.clipData 2 3 256 [256, -2]) := by decide +kernel
/-- Lanes and lot: ADMIT of E2 to screen 3, ANY stall, party 500. -/
theorem test_decode_admit :
    decodeRequest 0x43 4 [0x12, 0x03, 0, 0, 0, 0x01, 0xF4] = .request (.admitCar 4 0x12 3 none 500) := by decide +kernel
/-- Orders: ORDER PLACE of R196 with two lines. -/
theorem test_decode_order_place :
    decodeRequest 0x52 5 [1, 2, 3, 1, 2, 10, 3, 11, 1] = .request (.orderPlace 5 1 2 3 1 [⟨10, 3⟩, ⟨11, 1⟩]) := by
  decide +kernel
/-- Orders: a body whose length is not 5 + 2n draws BAD_LENGTH (R196). -/
theorem test_decode_order_place_length : decodeRequest 0x52 5 [1, 2, 3, 1, 2, 10, 3] = .badLength := by decide +kernel
/-- Rehearsal: REHEARSE of screen 4, ON, with auto-answer ON. -/
theorem test_decode_rehearse :
    decodeRequest 0x60 6 [4, 1, 1, 1] = .request (.rehearse 6 4 1 (some 1)) := by decide +kernel
/-- A kind that R195 does not list. -/
theorem test_decode_unknown : decodeRequest 0x7E 0 [] = .badKind := by decide +kernel
/-- The CRC of R186 over the digits 1 to 9 is 0x29B1, the published check value of this CRC. -/
theorem test_crc : crc16 [0x31, 0x32, 0x33, 0x34, 0x35, 0x36, 0x37, 0x38, 0x39] = 0x29B1 := by decide +kernel
/-- Lines of R30: L 1A2F 3, H 7. -/
theorem test_verb_line : VerbLine.bytes ⟨.l, 0x1A2F, 3⟩ = [0x4C, 0x20, 0x31, 0x41, 0x32, 0x46, 0x20, 0x33, 0x0D] := by
  decide +kernel
/-- Lines of R31: D 3, E 1A2F, an echoed G 3, a line with a missing space. -/
theorem test_line_forms :
    lineForm [0x44, 0x20, 0x33] = .done 3 ∧ lineForm [0x45, 0x20, 0x31, 0x41, 0x32, 0x46] = .ended 0x1A2F
      ∧ lineForm [0x47, 0x20, 0x33] = .garbled ∧ lineForm [0x44, 0x33] = .garbled := by decide +kernel

/-! ### The manual's worked examples -/

/-- The four cases of section 3.3. -/
theorem test_mix_cases :
    mixSample 3000001 8192 3072000 32768 20000 = ⟨3822000, 28192, false⟩
      ∧ mixSample 3000001 8192 3072000 32768 28192 = ⟨3822001, 3616, false⟩
      ∧ mixSample (-1) 16384 0 0 0 = ⟨-1, 16384, false⟩ ∧ mixSample (-1) 16384 0 0 16384 = ⟨0, 0, false⟩
      ∧ mixSample 8000000 32768 8388352 16384 0 = ⟨8388607, 0, true⟩ := by decide +kernel

/-- Gains of section 3.4: block 1, block 48 (the remaining distance is the step), and the way back. -/
theorem test_gain_steps :
    moveGain 32768 8192 512 = 32256 ∧ moveGain 8704 8192 512 = 8192 ∧ moveGain 8192 32768 512 = 8704
      ∧ moveGain 32256 32768 512 = 32768 := by decide +kernel

/-- The grill of section 9.9. -/
def grill : Station :=
  { Station.reset with
    slots := 3
    queue :=
      [⟨1, [], 240, .queued, 1, none, none, 0⟩, ⟨2, [], 180, .queued, 2, none, none, 0⟩,
       ⟨3, [], 300, .queued, 3, none, none, 0⟩, ⟨4, [], 300, .cooking, 4, some 1, none, 120000⟩,
       ⟨5, [], 240, .cooking, 5, some 2, none, 250000⟩, ⟨6, [], 180, .cooking, 6, some 3, none, 200000⟩] }

/-- The backlog, the wait with the new ticket, and the promised time of section 9.9. -/
theorem test_estimate :
    grill.backlog = 900 ∧ grill.wait 300 = 400
      ∧ House.promise { House.reset with clock := ⟨0, 74475000⟩ } 400 = ⟨0, 74940000⟩ := by decide +kernel

/-- The entries 40 to 44 of section 1.9. -/
def evening : House :=
  let e (k : EntryKind) (len : Nat) (t : PhaseTag) : CueEntry := ⟨k, if k = .hold then 0 else 7, len, t, false, false, 0⟩
  { House.reset with
    cues := ((((House.reset.cues.setIfInBounds 40 (e .play 14400 .preshow)).setIfInBounds 41
      (e .hold 120 .preshow)).setIfInBounds 42 (e .play 129600 .feature)).setIfInBounds 43
      (e .hold 900 .break)).setIfInBounds 44 (e .play 100800 .feature) }

/-- Screen 3 of section 1.9 at an entry. -/
def eveningAt (i progress held : Nat) : House :=
  evening.onCtl 2 fun c =>
    { c with
      state := .showing, running := some ⟨1, 40, 5, 24, .stopOnFault, .onCommand⟩, holdElapsed := held
      record := { c.record with current := some i, progress := progress } }

/-- The five countdowns of section 1.9. -/
theorem test_countdown :
    (eveningAt 40 4800 0).countdownOf 2 = some 5920 ∧ (eveningAt 41 45 45400).countdownOf 2 = some 5475
      ∧ (eveningAt 42 1000 0).countdownOf 2 = some 5359 ∧ (eveningAt 43 0 0).countdownOf 2 = some 0
      ∧ (eveningAt 44 0 0).countdownOf 2 = none := by decide +kernel

/-- The day count returns to 0 after 65,535 (R198). -/
theorem test_clock_wraps : SiteTime.next ⟨65535, 86399999⟩ = ⟨0, 0⟩ := by decide +kernel
/-- A call of order 305 speaks 3, 0, 5 between preamble and postamble (R149). -/
theorem test_call_digits :
    CallClips.compose ⟨20, 21, [10, 11, 12, 13, 14, 15, 16, 17, 18, 19]⟩ 305 = [20, 13, 10, 15, 21] := by
  decide +kernel

/-! ### Witnesses: the site link, the clock and the resets -/

/-- A place of the reply order without a reply yet. -/
def waitingRequest : LinkEntry := { kind := 0x10, tag := 1, busy := false, siteReset := false, reply := none }

/-- A link that holds some places. -/
def linked (buffer : List LinkEntry) : State := { State.reset with link := { State.reset.link with buffer := buffer } }

/-- A transmitter in a state. -/
def transmitting (tx : Transmit) (s : State) : State :=
  s.onHouse fun h => { h with out := { h.out with tx := tx } }

/-- A filled-in reply. -/
def someReply : Reply := { status := .ok, flags := 0, fields := [] }

/-- R187, R189: three requests leave room for a fourth. -/
theorem test_w_accepting :
    (linked (List.replicate 3 waitingRequest)).accepting
      ∧ lastStatus (ran (.hello 2) (linked (List.replicate 3 waitingRequest))) = some .ok := by
  unfold State.accepting; decide +kernel

/-- StepRunsFrontCommand and IdleStepIsOneMillisecond: a queue of one command, and an empty one. -/
theorem test_w_step :
    (stepped { State.reset with pending := [.siteReset 1] }).link.resetTaken = true
      ∧ State.reset.pending = [] ∧ (stepped State.reset).house.clock = ⟨0, 1⟩ := by decide +kernel

/-- StepKeepsAudioState, StepKeepsLinkBounds: a state at the bounds. -/
def crowded : State :=
  { linked (List.replicate 4 waitingRequest ++ List.replicate 4 { waitingRequest with busy := true }) with
    dram := [(1, 255), (2, 1)]
    channels := Vector.replicate 4 { Channel.reset with residueL := 32767, residueR := 0 } }

theorem test_w_bounds :
    crowded.link.bounded ∧ crowded.dram.wf = true ∧ (∀ n, (crowded.channel n).residuesFine)
      ∧ stepped { crowded with pending := [.lineBreak] } = crowded := by
  unfold Link.bounded Channel.residuesFine; decide +kernel

/-- StepKeepsHouseBounds: a house with an order, a ticket and a notice in it. -/
def busyHouse : House :=
  let o : Order :=
    { number := 999, screen := 0, row := 1, position := 1, party := 0, mode := .pickup, placed := ⟨0, 0⟩, sequence := 1,
      promised := some ⟨0, 60000⟩, lines := [⟨1, 1⟩], tickets := [0], state := .ready, ready := some ⟨0, 1⟩, made := 0,
      remaining := 3, call := none, due := none, age := 19, late := false, callWaiting := false, notCalled := false }
  (({ House.reset with orders := [o], nextNumber := 1, nextJoin := 2 }.onStation 0 fun x =>
    { x with queue := [⟨999, [⟨1, 1⟩], 60, .done, 1, some 1, some ⟨0, 0⟩, 0⟩] }).notify .lotFull [])

theorem test_w_house_bounds :
    busyHouse.ordersFine ∧ busyHouse.queuesFine ∧ busyHouse.gainsFine ∧ (∀ n, (busyHouse.line n).bounded)
      ∧ busyHouse.out.bounded := by
  unfold House.ordersFine House.queuesFine House.gainsFine Station.ticketsFine CueLine.bounded Outbox.bounded
  decide +kernel

/-- StepKeepsLaneBalance: a lane with a grant in flight. -/
def granted : State :=
  State.reset.onLane 0 fun l =>
    { l with
      state := .raising, demand := true, raise := true, armTimer := some 4000
      arrive := { l.arrive with occupied := true, raw := true }
      grant := some { screen := 0, row := 1, position := 1, party := 7, time := ⟨0, 0⟩, seen := false }
      counters := { Counters.zero with grants := 1 } }

theorem test_w_balance : ∀ k, (granted.lane k).balanced := by
  unfold EntryLane.balanced EntryLane.grantFine Counters.exact EntryLane.settled; decide +kernel

/-- DecodeOfEncodeIsTheRequest: a well-formed request at the ends of its fields. -/
theorem test_w_encode :
    (Instr.timeSet 255 65535 4294967295).wf = true
      ∧ encodeRequest (.timeSet 255 65535 4294967295) = some (0x13, [255, 255, 255, 255, 255, 255]) := by decide +kernel

/-- FramerChecksFrames: a frame of R186 with its CRC, one with another CRC, one whose length byte is below 2. -/
theorem test_w_framer :
    judgeFrame ((frameBytes 0x10 5 []).drop 1) = .checked 0x10 5 [] ∧ judgeFrame [2, 0x10, 5, 0, 0] = .badCrc
      ∧ judgeFrame [1] = .badLength ∧ judgeFrame [243] = .badLength
      ∧ (ran .frameGapTimeout (ran .startByteReceived .reset)).link.linkErrors = 1
      ∧ (ran (.receiveFrameDiscarded [1]) .reset).link.linkErrors = 1
      ∧ (ran .lineBreak (ran .startByteReceived .reset)).link.linkErrors = 0 := by decide +kernel

/-- FullBufferMarksBusy: 4 requests with room for a mark, and with 4 marks. -/
theorem test_w_full_buffer :
    4 ≤ (linked (List.replicate 4 waitingRequest)).link.requests
      ∧ lastStatus (ran (.hello 1) (linked (List.replicate 4 waitingRequest))) = some .linkBusy
      ∧ (ran (.linkBusyMark 0x10 1) (linked (List.replicate 4 waitingRequest))).link.busyCount = 1
      ∧ (ran (.hello 1) crowded).link.linkErrors = 1 := by decide +kernel

/-- UnknownKindIsAnswered: a kind of no request, and SITE STATUS with two bytes. -/
theorem test_w_unknown :
    State.reset.accepting ∧ 0x7E ∉ requestKinds ∧ 0x11 ∈ oneByteKinds
      ∧ lastStatus (ran (.unknownKind 0x7E 3 []) .reset) = some .badKind
      ∧ lastStatus (ran (.unknownKind 0x11 3 [0, 0]) .reset) = some .badLength := by
  unfold State.accepting; decide +kernel

/-- TransmitterTakesRepliesFirst: another reply behind the one sent; none and no notice; none and a notice. -/
theorem test_w_transmitter :
    let filled : LinkEntry := { waitingRequest with reply := some someReply }
    let quiet := transmitting .reply (linked [filled])
    let noticed := quiet.onHouse fun h => { h with out := { h.out with notices := [⟨.lotFull, ⟨0, 0⟩, []⟩] } }
    quiet.house.out.tx = .reply ∧ filled.siteReset = false ∧ quiet.house.out.notices = []
      ∧ (ran .transmitFrameEnd (transmitting .reply (linked [filled, filled]))).house.out.tx = .reply
      ∧ (ran .transmitFrameEnd quiet).house.out.tx = .idle
      ∧ (ran .transmitFrameEnd noticed).house.out.tx = .notice ⟨.lotFull, ⟨0, 0⟩, []⟩ := by decide +kernel

/-- SiteStatusAndNoticeMask at the ends of their ranges. -/
theorem test_w_site_status :
    State.reset.accepting ∧ lastStatus (ran (.siteStatus 1 1) .reset) = some .ok
      ∧ lastStatus (ran (.siteStatus 1 2) .reset) = some .badValue
      ∧ (ran (.noticeMask 1 4194303) .reset).house.out.mask = 4194303
      ∧ lastStatus (ran (.noticeMask 1 4194304) .reset) = some .badValue := by
  unfold State.accepting; decide +kernel

/-- OnlyTimeSetSetsClock at the ends of its ranges. -/
theorem test_w_time_set :
    (ran (.timeSet 1 65535 86399999) .reset).house.clock = ⟨65535, 86399999⟩
      ∧ lastStatus (ran (.timeSet 1 65536 0) .reset) = some .badValue
      ∧ lastStatus (ran (.timeSet 1 0 86400000) .reset) = some .badValue := by decide +kernel

/-- SITE RESET: taken, a request behind it, and the end of its reply. -/
theorem test_w_site_reset :
    let s := ran (.siteReset 1) .reset
    State.reset.accepting ∧ s.link.resetTaken = true ∧ s.link.requests < 4 ∧ s.house.out.tx = .reply
      ∧ s.link.buffer.head?.map LinkEntry.siteReset = some true ∧ lastStatus (ran (.hello 2) s) = none
      ∧ (ran .transmitFrameEnd s).link.resetTaken = false := by
  unfold State.accepting; decide +kernel

/-- Power-on reset samples the BAUD pins (R185). -/
theorem test_power_on_rate : (ran (.powerOnReset true false) crowded).link = .reset 2 := by decide +kernel

/-- ClockHandsOut: an order whose age reaches the limit of 20 minutes, and one a minute younger. -/
theorem test_w_sweep :
    let s : State := { State.reset with house := busyHouse }
    let young := s.onHouse (House.onOrder 999 fun o => { o with age := 18 })
    (∀ o ∈ s.house.orders, o.state = .ready ∧ s.house.orderPolicy.limit ≤ o.age + 1)
      ∧ (ran .expirySweep s).house.orders = []
      ∧ (∀ o ∈ young.house.orders, o.age + 1 < young.house.orderPolicy.limit)
      ∧ ((ran .expirySweep young).house.orders.map Order.age) = [19]
      ∧ (∀ o ∈ s.house.orders, o.state ≠ .deferred) := by decide +kernel

/-! ### Witnesses: shows -/

/-- A cue table: PLAY, HOLD, SKIP, and a PLAY with a lane hold. -/
def table : House :=
  { House.reset with
    cues := (((House.reset.cues.setIfInBounds 0 ⟨.play, 7, 2, .preshow, false, false, 0⟩).setIfInBounds 1
      ⟨.hold, 0, 3, .feature, false, false, 0⟩).setIfInBounds 2 ⟨.skip, 8, 2, .break, false, false, 0⟩).setIfInBounds 3
      ⟨.play, 9, 1, .closing, true, true, 0⟩ }

/-- A show over the table. -/
def feature : ShowDesc :=
  { showId := 5, start := 0, count := 4, rate := 24, policy := .runThrough, mode := .onCommand }

/-- Screen 1 with the show in its running slot, changed by `f`. -/
def withShow (f : ShowCtl → ShowCtl) : State :=
  { State.reset with
    house := table.onCtl 0 fun c => f { c with state := .armed, running := some feature, record := .zeroed 5 } }

/-- Screen 1 SHOWING an entry, its picture halted, changed by `f`. -/
def showing (i : Nat) (f : ShowCtl → ShowCtl) : State :=
  withShow fun c =>
    f { c with state := .showing, halted := true, record := { c.record with current := some i } }

/-- The fault record of screen 1's show says how many faults. -/
def faults (s : State) : Nat := (s.house.ctl 0).record.faults

/-- PhasePolicySetsRows at the ends of its ranges, and a late window. -/
theorem test_w_policy :
    let late := showing 1 fun c => { c with record := { c.record with featureStart := some ⟨0, 0⟩ } }
    State.reset.accepting ∧ Phase.ofCode 6 = some .closing ∧ Admit.ofCode 3 = some .late
      ∧ Intake.ofCode 2 = some .defer
      ∧ lastFields (ran (.phasePolicySetRow 1 6 3 2 30 32768) .reset) = [u8 1]
      ∧ lastFields (ran (.phasePolicySetRow 1 6 3 2 31 32768) .reset) = [u8 0]
      ∧ lastStatus (ran (.phasePolicySetRow 1 6 3 2 31 32769) .reset) = some .badValue
      ∧ lastStatus (ran (.phasePolicySetRow 1 6 3 2 32 0) .reset) = some .badValue
      ∧ (ran (.phasePolicySetLimits 1 900 3600) .reset).house.lateLimit = 3600
      ∧ lastStatus (ran (.phasePolicySetLimits 1 901 0) .reset) = some .badValue
      ∧ lastStatus (ran (.phasePolicySetLimits 1 0 3601) .reset) = some .badValue
      ∧ (late.house.row 0).admission = .late ∧ (State.reset.house.row 0).admission ≠ .late
      ∧ ((ran (.lateWindowEnd 0) late).house.lot 0).admission = false := by
  unfold State.accepting; decide +kernel

/-- CueWriteSetsEntry: a code out of range, a protected index at both ends of its range, an entry written. -/
theorem test_w_cue_write :
    let s := withShow id
    s.accepting ∧ lastStatus (ran (.cueWrite 1 9 4 0 0 1 0 0) s) = some .badValue
      ∧ lastStatus (ran (.cueWrite 1 9 3 0 0 5 0 0) s) = some .badValue
      ∧ lastStatus (ran (.cueWrite 1 0 0 0 0 0 0 0) s) = some .inUse
      ∧ lastStatus (ran (.cueWrite 1 3 0 0 0 0 0 0) s) = some .inUse
      ∧ (ran (.cueWrite 1 4 3 0 60 4 2 127) s).house.cue 4 = ⟨.hold, 0, 60, .closing, false, true, 127⟩
      ∧ (ran (.cueWrite 1 255 0 9 9 9 3 9) s).house.cue 255 = .blank := by
  unfold State.accepting; decide +kernel

/-- ReadsAnswerAndChangeNothing: units and positions at the ends of their ranges. -/
theorem test_w_reads :
    State.reset.accepting ∧ screenOfCode 4 = some 3 ∧ stationOfCode 0x34 = some 3
      ∧ lastStatus (ran (.cueRead 1 255) .reset) = some .ok ∧ lastStatus (ran (.screenStatus 1 4) .reset) = some .ok
      ∧ lastFields (ran (.faultRead 1 4) .reset) = faultFields none
      ∧ lastStatus (ran (.queueRead 1 4 1) .reset) = some .ok
      ∧ lastStatus (ran (.stallRead 1 2 4 16 120) .reset) = some .ok
      ∧ lastFields (ran (.clipList 1 127) .reset) =
          [u16 7936, u16 7936, u8 1, u8 127, u8 1, u8 0, u24 0, u16 0, u32 0, u8 127]
      ∧ lastStatus (ran (.orderRead 1 1 999) .reset) = some .notFound
      ∧ lastFields (ran (.orderRead 1 2 999) .reset) = [u8 0, u8 0, u16 0]
      ∧ lastStatus (ran (.stationRead 1 0x34 48) .reset) = some .ok := by
  unfold State.accepting; decide +kernel

/-- ShowLoadTakesSlot: the running slot, the pending slot, and each refusal. -/
theorem test_w_show_load :
    let s : State := { State.reset with house := table }
    let load (n : Nat) (start count mode : Nat) : Instr := .showLoad 1 n 5 start count 24 2 mode 0 0
    s.accepting ∧ loadedShow 5 0 4 24 2 2 0 0 = some feature ∧ s.house.slotOpen 0 = true ∧ s.house.timeUnset = true
      ∧ (∀ i, i < 4 → s.house.loadable i = true)
      ∧ ((ran (load 1 0 4 2) s).house.ctl 0).state = .armed
      ∧ ((runs [load 1 0 4 2, load 1 0 4 2] s).house.ctl 0).waiting = some feature
      ∧ lastStatus (runs [load 1 0 4 2, load 1 0 4 2, load 1 0 4 2] s) = some .full
      ∧ lastStatus (ran (load 1 0 4 1) s) = some .badState
      ∧ loadedShow 5 200 57 24 2 2 0 0 = none ∧ lastStatus (ran (load 1 200 57 2) s) = some .badValue
      ∧ lastFields (ran (load 1 0 5 2) s) = [u8 1, u8 4] := by
  unfold State.accepting; decide +kernel

/-- ShowsStart: by command, by the clock, and out of LANE_WAIT. -/
theorem test_w_show_start :
    let timed := withShow fun c => { c with running := some { feature with mode := .atTime ⟨0, 0⟩ } }
    let waiting := withShow fun c =>
      { c with
        state := .laneWait, waitLeft := some 1, waitSpent := 2000, record := { c.record with current := some 3 } }
    (withShow id).accepting ∧ ((withShow id).house.ctl 0).state = .armed ∧ (timed.house.ctl 0).state = .armed
      ∧ ((ran (.showStart 1 1) (withShow id)).house.ctl 0).state = .showing
      ∧ lastStatus (ran (.showStart 1 1) .reset) = some .badState
      ∧ ((ran (.showStartTimeReached 0) timed).house.ctl 0).record.current = some 0
      ∧ (waiting.house.ctl 0).state = .laneWait
      ∧ ((ran (.holdExpired 0) waiting).house.ctl 0).record.laneHoldSecs = 2 := by
  unfold State.accepting; decide +kernel

/-- HoldEntryEnds: a HOLD before the last entry, ended by command and by its length. -/
theorem test_w_hold :
    let s := showing 1 id
    s.accepting ∧ s.house.inEntry 0 .hold feature 1
      ∧ ((ran (.showNext 1 1) s).house.ctl 0).record.current = some 2
      ∧ ((ran (.holdEntryElapsed 0) s).house.ctl 0).record.completed = 1
      ∧ lastStatus (ran (.showNext 1 1) (showing 0 id)) = some .badState := by
  unfold State.accepting House.inEntry; decide +kernel

/-- FramesCountProgress: a PLAY counting pulses, on the timebase, rehearsed; a SKIP; the last frame. -/
theorem test_w_frames :
    let counting := showing 0 fun c => { c with counting := .pulses }
    let onBase := showing 0 fun c => { c with counting := .timebase, timebase := 1000 }
    let rehearsed := showing 0 fun c => { c with counting := .pulses, rehearsal := true, generator := some 1000 }
    let late := showing 2 fun c => { c with timebase := 1000, record := { c.record with progress := 1 } }
    counting.house.inEntry 0 .play feature 0 ∧ (counting.house.ctl 0).record.progress + 1 < (counting.house.cue 0).length
      ∧ ((ran (.framePulse 0) counting).house.ctl 0).record.progress = 1
      ∧ ((ran (.timebaseFrame 0) onBase).house.ctl 0).record.progress = 1
      ∧ ((ran (.generatedFramePulse 0) rehearsed).house.ctl 0).record.progress = 1
      ∧ ran (.framePulse 0) rehearsed = rehearsed
      ∧ late.house.inEntry 0 .skip feature 2 ∧ (late.house.cue 2).length ≤ (late.house.ctl 0).record.progress + 1
      ∧ ((ran (.skipTimebaseFrame 0) late).house.ctl 0).record.current = some 3
      ∧ ((runs [.framePulse 0, .framePulse 0] counting).house.ctl 0).record.current = some 1 := by
  unfold House.inEntry; decide +kernel

/-- PictureStallIsAFault under both fault policies. -/
theorem test_w_stall :
    let s := showing 0 fun c => { c with counting := .pulses, stallTimer := some 0 }
    let strict := showing 0 fun c =>
      { c with counting := .pulses, stallTimer := some 0, running := some { feature with policy := .stopOnFault } }
    (s.house.ctl 0).stallTimer.isSome = true ∧ (s.house.ctl 0).running = some feature ∧ feature.policy = .runThrough
      ∧ ((ran (.pictureStall 0) s).house.ctl 0).counting = .timebase ∧ faults (ran (.pictureStall 0) s) = 1
      ∧ ((ran (.pictureStall 0) strict).house.ctl 0).state = .stopping := by decide +kernel

/-- ShowAbortByState in every state. -/
theorem test_w_abort :
    let inState (st : ScreenState) := showing 0 fun c => { c with state := st }
    (inState .armed).accepting ∧ lastStatus (ran (.showAbort 1 1) .reset) = some .badState
      ∧ ((ran (.showAbort 1 1) (inState .armed)).house.ctl 0).record.outcome = .aborted
      ∧ ((ran (.showAbort 1 1) (inState .laneWait)).house.ctl 0).state = .idle
      ∧ ((ran (.showAbort 1 1) (inState .held)).house.ctl 0).running = none
      ∧ ((ran (.showAbort 1 1) (inState .showing)).house.ctl 0).state = .stopping
      ∧ ((ran (.showAbort 1 1) (inState .stopping)).house.ctl 0).stopAbort = true := by
  unfold State.accepting; decide +kernel

/-- ReleaseAndPromote: HELD without and with a pending show; IDLE with and without one. -/
theorem test_w_release :
    let held (w : Option ShowDesc) := showing 0 fun c => { c with state := .held, waiting := w }
    let idle (w : Option ShowDesc) : State := State.reset.onHouse (House.onCtl 0 fun c => { c with waiting := w })
    (held none).accepting ∧ ((held none).house.ctl 0).state = .held ∧ feature.mode = .onCommand
      ∧ ((ran (.showRelease 1 1) (held none)).house.ctl 0).state = .idle
      ∧ ((ran (.showRelease 1 1) (held (some feature))).house.ctl 0).state = .armed
      ∧ lastStatus (ran (.showRelease 1 1) .reset) = some .badState
      ∧ (idle (some feature)).house.slotOpen 0 = true
      ∧ ((ran (.showPromote 1 1) (idle (some feature))).house.ctl 0).running = some feature
      ∧ lastStatus (ran (.showPromote 1 1) (idle none)) = some .notFound
      ∧ (held none).house.slotOpen 0 = false
      ∧ lastStatus (ran (.showPromote 1 1) (held none)) = some .badState := by
  unfold State.accepting; decide +kernel

/-- ScreenResetReturnsScreen: a screen, and a code of none. -/
theorem test_w_screen_reset :
    (showing 0 id).accepting ∧ screenOfCode 1 = some 0 ∧ screenOfCode 5 = none
      ∧ (ran (.screenReset 1 1) (showing 0 id)).house.ctl 0 = .reset
      ∧ ((ran (.screenReset 1 1) (showing 0 id)).channel 0).stagedReset = some .screen
      ∧ lastStatus (ran (.screenReset 1 5) .reset) = some .badValue := by
  unfold State.accepting; decide +kernel

/-! ### Witnesses: cue lines -/

/-- Screen 1's cue line in AWAIT of an exchange. -/
def awaiting (x : Exchange) (s : State) : State := s.onHouse (House.onLine 0 fun l => { l with unit := .await x 500 })

/-- An exchange at its first attempt. -/
def attempt (pass : Bool) (v : Verb) : Exchange :=
  { pass := pass, quiet := pass, verb := v, content := 7, firstSeq := 3, seq := 3, used := 1, allowed := 3, timeout := 500 }

/-- CueLineRequests at the ends of their ranges; a pass on a free line, a busy one, a showing screen. -/
theorem test_w_cue_line :
    State.reset.accepting ∧ ((ran (.cueLineSet 1 1 100 0) .reset).house.line 0).answerTimeout = 100
      ∧ ((ran (.cueLineSet 1 1 2000 3) .reset).house.line 0).retries = 3
      ∧ lastStatus (ran (.cueLineSet 1 1 99 0) .reset) = some .badValue
      ∧ lastStatus (ran (.cueLineSet 1 1 2001 0) .reset) = some .badValue
      ∧ lastStatus (ran (.cueLineSet 1 1 100 4) .reset) = some .badValue
      ∧ lastStatus (ran (.faultClear 1 1) .reset) = some .ok
      ∧ passRequest 1 0 0 = none ∧ passRequest 5 1 0 = none ∧ passRequest 4 0 1 = some ⟨.q, 0⟩
      ∧ lastFields (ran (.projectorPass 1 1 4 0 1) .reset) = [u8 0]
      ∧ ((ran (.projectorPass 1 1 1 65535 0) .reset).house.line 0).sendingLines = [⟨.l, 65535, 0⟩]
      ∧ lastStatus (ran (.projectorPass 1 1 4 0 1) (showing 0 id)) = some .busy
      ∧ lastStatus (ran (.projectorPass 1 1 4 0 1) (awaiting (attempt true .q) .reset)) = some .busy := by
  unfold State.accepting; decide +kernel

/-- AttemptsMoveOn: the end of a line, of an abandoned line, an answer timeout, the retry interval. -/
theorem test_w_attempts :
    let x := attempt true .q
    let sending (ls : List VerbLine) : State :=
      State.reset.onHouse (House.onLine 0 fun l => { l with unit := .sending x, sendingLines := ls })
    ((ran (.verbLineSent 0) (sending [⟨.q, 0, 3⟩])).house.line 0).unit = .await x 500
      ∧ ((ran (.verbLineSent 0) (sending [⟨.l, 1, 2⟩, ⟨.q, 0, 3⟩])).house.line 0).unit = .sending x
      ∧ x.used < x.allowed ∧ ((ran (.answerTimeout 0) (awaiting x .reset)).house.line 0).unit = .backoff x 300
      ∧ ((runs [.answerTimeout 0, .backoffEnd 0] (awaiting x .reset)).house.line 0).seq = 1 := by decide +kernel

/-- AnswersEndAttempts: W, another number, D and N of a pass, D of a show's L and G. -/
theorem test_w_answers :
    let pass := awaiting (attempt true .q) .reset
    (pass.house.line 0).rx = .blank ∧ (pass.house.line 0).unit = .await (attempt true .q) 500
      ∧ ((ran (.cueLineReceived 0 (answerLine 0x57 3)) pass).house.line 0).unit = .backoff (attempt true .q) 300
      ∧ ran (.cueLineReceived 0 (answerLine 0x44 15)) pass = pass
      ∧ ((ran (.cueLineReceived 0 (answerLine 0x44 3)) pass).house.line 0).unit = .quiet
      ∧ ((ran (.cueLineReceived 0 (answerLine 0x4E 3)) pass).house.line 0).fault.isSome = true
      ∧ ((ran (.cueLineReceived 0 (answerLine 0x44 3)) (awaiting (attempt false .l) (showing 0 id))).house.line
          0).sendingLines = [⟨.g, 0, 0⟩]
      ∧ ((ran (.cueLineReceived 0 (answerLine 0x44 3)) (awaiting (attempt false .g) (showing 0 id))).house.ctl
          0).counting = .pulses := by decide +kernel

/-! ### Witnesses: sound -/

/-- The mix at the ends of the output range (R54, R55), by hand: the largest and the smallest unsaturated sample, and one
step past each. -/
theorem test_w_mix :
    mixSample 8388607 32768 0 0 32767 = ⟨8388607, 32767, false⟩
      ∧ mixSample (-8388608) 32768 0 0 0 = ⟨-8388608, 0, false⟩
      ∧ mixSample 8388607 32768 1 1 32767 = ⟨8388607, 0, true⟩
      ∧ mixSample (-8388608) 32768 (-1) 1 0 = ⟨-8388608, 0, true⟩
      ∧ (mixRun 16384 0 0 [(-1, 0), (-1, 0)]).map Mixed.out = [-1, 0] := by decide +kernel

/-- A screen's delay line plays the frame written one frame earlier (R50): with a whole block received and a delay of
1, the second frame read is the first one written. -/
theorem test_sample_delay :
    let s : State := State.reset.onChannel 0 fun c =>
      { c with
        settings := { c.settings with delay := 1 }
        inFrames := ⟨5, -5⟩ :: List.replicate 47 ⟨0, 0⟩ }
    let z : StereoFrame := ⟨0, 0⟩
    ((runs [.sampleFrame z z z z, .sampleFrame z z z z] s).channel 0).outFrames = [⟨0, 0⟩, ⟨5, -5⟩] := by
  decide +kernel

/-- A block start takes the duck step toward the duck gain (R56, R57), and a block end judges the block (R59). -/
theorem test_blocks :
    let ducked := State.reset.onHouse (House.onPlayer 0 fun p => { p with state := .gap, gapLeft := 9 })
    let loud := State.reset.onChannel 0 fun c => { c with peakIn := 2047, peakOut := 7500000, clips := 2 }
    ((ran .blockStart ducked).house.gain 0).gp = 32256
      ∧ ((ran .blockEnd loud).channel 0).silent = true ∧ ((ran .blockEnd loud).channel 0).hot = true
      ∧ ((ran .blockEnd loud).channel 0).lastClips = 2 ∧ ((ran .blockEnd loud).channel 0).summary = true := by
  decide +kernel

/-- MixRequestsStage at the ends of their ranges. -/
theorem test_w_mix_requests :
    let mix (delay fade : Nat) : Instr := .mixSet 1 1 delay fade 1 32768 8388608 8388607 60
    State.reset.accepting ∧ screenOfCode 1 = some 0
      ∧ lastFields (ran (mix 16777215 32768) .reset) = [u24 32767]
      ∧ lastStatus (ran (mix 0 32769) .reset) = some .badValue ∧ lastStatus (ran (mix 0 0) .reset) = some .badValue
      ∧ lastStatus (ran (mix 5 1) (showing 0 id)) = some .badState
      ∧ lastStatus (ran (mix 0 1) (showing 0 id)) = some .ok
      ∧ (ran (.partitionSet 1 64) .reset).stagedUnits = some 64
      ∧ lastStatus (ran (.partitionSet 1 65) .reset) = some .badValue
      ∧ lastStatus (ran (.partitionSet 1 0) (showing 0 id)) = some .badState
      ∧ lastStatus (ran (.levelRead 1 1 1) .reset) = some .ok
      ∧ (ran (.monitorSelect 1 4) .reset).stagedMonitor = some (some 3)
      ∧ (ran (.monitorSelect 1 0) .reset).stagedMonitor = some none
      ∧ lastStatus (ran (.monitorSelect 1 5) .reset) = some .badValue := by
  unfold State.accepting; decide +kernel

/-- Clips 1 and 2 READY, clip 3 LOADING, clip 4 BAD, clip 5 referenced. -/
def loaded : State :=
  State.reset.onHouse fun h =>
    ((((h.setClip 1 ⟨.ready, 2, [256], 0⟩).setClip 2 ⟨.ready, 1, [257], 0⟩).setClip 3 ⟨.loading, 3, [258], 0⟩).setClip 4
      ⟨.bad, 3, [259], 0⟩).setClip 5 ⟨.ready, 1, [260], 2⟩

/-- A page of clip 1 that a larger partition would take refuses it IN_USE (R51). -/
theorem test_w_partition :
    (∃ p ∈ loaded.house.heldPages, 16 * loaded.latestUnits ≤ p ∧ p < 16 * 17)
      ∧ (∀ n, (loaded.house.ctl n).state = .idle)
      ∧ lastStatus (ran (.partitionSet 1 17) loaded) = some .inUse := by decide +kernel

/-- ClipBeginAndEnd: the first and the last length, no free page, a record not EMPTY, and the three ends. -/
theorem test_w_clip :
    loaded.accepting ∧ (loaded.house.clip 127).state = .empty
      ∧ (ran (.clipBegin 1 127 2049) loaded).house.clip 127 = ⟨.loading, 2049, [261, 262], 0⟩
      ∧ ((ran (.clipBegin 1 127 1) loaded).house.clip 127).pages = [261]
      ∧ lastStatus (ran (.clipBegin 1 1 5) loaded) = some .badState
      ∧ lastStatus (ran (.clipBegin 1 127 2049) { loaded with units := 512 }) = some .full
      ∧ (loaded.house.clip 3).state = .loading
      ∧ ((ran (.clipEnd 1 3 (clipCrc [] [258] 3)) loaded).house.clip 3).state = .ready
      ∧ ((ran (.clipEnd 1 3 (clipCrc [] [258] 3 + 1)) loaded).house.clip 3).state = .bad
      ∧ lastStatus (ran (.clipEnd 1 127 0) loaded) = some .notFound
      ∧ lastStatus (ran (.clipEnd 1 4 0) loaded) = some .badState := by
  unfold State.accepting; decide +kernel

/-- ClipDataWritesItsSamples: the last sample of a clip, high byte first, one past it, and the wrong states. -/
theorem test_w_clip_data :
    loaded.accepting ∧ loaded.dram.wf = true ∧ (loaded.house.clip 3).pages.Nodup
      ∧ (ran (.clipData 1 3 2 [-2]) loaded).dram = [(1056772, 255), (1056773, 254)]
      ∧ readSample (ran (.clipData 1 3 2 [-2]) loaded).dram [258] 2 = -2
      ∧ lastStatus (ran (.clipData 1 3 3 [1]) loaded) = some .badValue
      ∧ lastStatus (ran (.clipData 1 127 0 [1]) loaded) = some .notFound
      ∧ lastStatus (ran (.clipData 1 4 0 [1]) loaded) = some .badState := by
  unfold State.accepting; decide +kernel

/-- ClipFreeEmptiesRecord at the ends of the ids. -/
theorem test_w_clip_free :
    loaded.accepting ∧ lastStatus (ran (.clipFree 1 0) loaded) = some .badValue
      ∧ lastStatus (ran (.clipFree 1 128) loaded) = some .badValue
      ∧ lastStatus (ran (.clipFree 1 127) loaded) = some .notFound
      ∧ lastFields (ran (.clipFree 1 5) loaded) = [u32 2]
      ∧ (ran (.clipFree 1 1) loaded).house.clip 1 = .blank
      ∧ lastStatus (ran (.clipEnd 2 3 0) (ran (.clipFree 1 3) loaded)) = some .notFound := by
  unfold State.accepting; decide +kernel

/-- SoundTablesSet at the ends of their ranges. -/
theorem test_w_sound_tables :
    let cc : CallClips := ⟨1, 0, List.replicate 10 2⟩
    loaded.accepting ∧ (∀ c ∈ cc.roles, 1 ≤ c ∧ c ≤ 127 ∧ (loaded.house.clip c).state = .ready)
      ∧ ((ran (.callClipsSet 1 1 0 (List.replicate 10 2)) loaded).house.clip 2).refs = 10
      ∧ ((runs [.callClipsSet 1 1 0 (List.replicate 10 2), .callClipsUnconfigure 1] loaded).house.clip 2).refs = 0
      ∧ AnnClass.ofCode 5 = some .promo
      ∧ (ran (.classSetRow 1 5 7 32768 3600) loaded).house.classRow .promo = ⟨7, 32768, 3600⟩
      ∧ lastStatus (ran (.classSetRow 1 1 1 0 10) loaded) = some .badValue
      ∧ lastStatus (ran (.classSetRow 1 5 0 0 10) loaded) = some .badValue
      ∧ lastStatus (ran (.classSetRow 1 5 1 0 9) loaded) = some .badValue
      ∧ (ran (.classSetGap 1 500) loaded).house.gap = 500
      ∧ lastStatus (ran (.classSetGap 1 501) loaded) = some .badValue
      ∧ tget (ran (.routeSet 1 5 9) loaded).house.routes 4 = [0, 3]
      ∧ lastStatus (ran (.routeSet 1 5 16) loaded) = some .badValue := by
  unfold State.accepting; decide +kernel

/-- An announcement of clip 1. -/
def promo (id : Nat) (cls : AnnClass) (priority : Nat) : Ann :=
  { id := id, cls := cls, priority := priority, clips := [1], origin := .manual, enqueued := ⟨0, 0⟩, wait := 0,
    position := 1, removed := false }

/-- Screen 1's queue holds these announcements. -/
def queued (q : List Ann) : State := loaded.onHouse (House.onQueue 0 fun _ => q)

/-- AnnounceQueues: room for one more behind 11, a full queue, an empty route. -/
theorem test_w_announce :
    let eleven := queued ((List.range 11).map fun i => promo (i + 1) .manual 3)
    let twelve := queued ((List.range 12).map fun i => promo (i + 1) .safety 0)
    let noRoute := loaded.onHouse fun h => { h with routes := tset h.routes 3 [] }
    eleven.accepting ∧ eleven.house.queuesFine ∧ (eleven.house.queue 0).length < 12 ∧ eleven.house.nobodyExpires 0
      ∧ 0 < (eleven.house.classRow .manual).maxWait
      ∧ lastFields (ran (.announce 1 1 4 [1, 2]) eleven) = [u16 12]
      ∧ ((ran (.announce 1 1 1 [1]) eleven).house.queue 0).head?.map Ann.cls = some .safety
      ∧ twelve.house.victim 0 (twelve.house.classRow .manual).priority = none
      ∧ lastStatus (ran (.announce 1 1 4 [1]) twelve) = some .full
      ∧ lastStatus (ran (.announce 1 0x0F 4 [1]) noRoute) = some .notFound := by
  unfold State.accepting House.queuesFine House.nobodyExpires Station.ticketsFine; decide +kernel

/-- AnnouncementsEnd: the playing announcement and a waiting one, cancelled and expired; a gap. -/
theorem test_w_announcements_end :
    let s := queued [promo 1 .manual 3, promo 2 .manual 3]
    let playing := s.onHouse (House.onPlayer 0 fun _ => { state := .playing, held := some 1, sample := 0, gapLeft := 0 })
    let gap := s.onHouse (House.onPlayer 0 fun _ => { state := .gap, held := some 1, sample := 2, gapLeft := 1 })
    playing.accepting ∧ playing.house.findAnn 2 = some (0, promo 2 .manual 3)
      ∧ lastFields (ran (.announceCancel 1 1) playing) = [u8 0]
      ∧ lastFields (ran (.announceCancel 1 2) playing) = [u8 1]
      ∧ ((ran (.announceCancel 1 2) playing).house.queue 0).map Ann.id = [1]
      ∧ ((ran (.announcementExpiry 2) playing).house.queue 0).map Ann.id = [1]
      ∧ lastStatus (ran (.announceCancel 1 9) playing) = some .notFound
      ∧ gap.house.heldAnn 0 = some (promo 1 .manual 3)
      ∧ (showing 0 id).house.suspends 0 (promo 1 .manual 3) = false
      ∧ ran (.gapEnd 0) playing = playing := by
  unfold State.accepting; decide +kernel

/-- A gap on a GATHER screen ends with the next clip. -/
theorem test_gap_end :
    let s : State := (withShow id).onHouse fun h =>
      ((h.setClip 1 ⟨.ready, 2, [256], 1⟩).onQueue 0 fun _ => [promo 1 .manual 3]).onPlayer 0 fun _ =>
        { state := .gap, held := some 1, sample := 2, gapLeft := 1 }
    s.house.suspends 0 (promo 1 .manual 3) = false
      ∧ (ran (.gapEnd 0) s).house.player 0 = { state := .playing, held := some 1, sample := 0, gapLeft := 0 } := by
  decide +kernel

/-! ### Witnesses: lanes and the lot -/

/-- Screen 1 with two stalls, admission OPEN. -/
def lot : State :=
  State.reset.onHouse (House.onLot 0 fun _ =>
    { rows := [[Stall.vacant, Stall.vacant]], fill := [1], capacity := 2, full := false, admission := true })

/-- Entry lane E1 changed by `f`, over that lot. -/
def atLane (f : EntryLane → EntryLane) : State := lot.onLane 0 f

/-- A car waits on E1. -/
def waitingCar : State :=
  atLane fun l => { l with state := .waiting, arrive := { l.arrive with raw := true, occupied := true } }

/-- A grant in flight on E1 for row 1, position 1. -/
def inFlight (st : LaneState) (f : EntryLane → EntryLane) : State :=
  (atLane fun l => f
    { l with
      state := st, demand := true, raise := true
      arrive := { l.arrive with raw := true, occupied := true }
      armTimer := if st = .raising then some 4000 else none
      passTimer := if st = .passing then some 60000 else none
      grant := some { screen := 0, row := 1, position := 1, party := 7, time := ⟨0, 0⟩, seen := false } }).onHouse
    (House.onStall 0 1 1 fun x => { x with state := .assigned, party := 7, lane := some 0 })

/-- LanesOpenAndClose: settings at the ends of their ranges, and every state that opens or closes. -/
theorem test_w_lanes :
    let car := atLane fun l => { l with arrive := { l.arrive with raw := true, occupied := true } }
    let up := atLane fun l => { l with raise := true }
    State.reset.accepting ∧ exitOfCode 0x22 = some 1 ∧ entryOfCode 0x11 = some 0
      ∧ ((ran (.laneSet 1 0x22 0 500 0 0) .reset).exitLane 1).debounce = 500
      ∧ entrySettings 4 50 10 300 = some ⟨some 3, 50, 10, 300⟩ ∧ entrySettings 0 501 1 10 = none
      ∧ ((ran (.laneSet 1 0x11 4 50 10 300) .reset).lane 0).settings = ⟨some 3, 50, 10, 300⟩
      ∧ lastStatus (ran (.laneSet 1 0x11 4 50 10 300) waitingCar) = some .badState
      ∧ ((ran (.laneOpen 1 0x11) .reset).lane 0).state = .idle
      ∧ ((ran (.laneOpen 1 0x11) car).lane 0).state = .waiting
      ∧ lastStatus (ran (.laneOpen 1 0x11) up) = some .busy
      ∧ lastStatus (ran (.laneClose 1 0x11) .reset) = some .badState
      ∧ ((runs [.laneOpen 1 0x11, .laneClose 2 0x11] .reset).lane 0).state = .closed
      ∧ ((ran (.laneClose 1 0x11) waitingCar).lane 0).closePending = true
      ∧ ((runs [.laneClose 1 0x11, .laneOpen 1 0x11] waitingCar).lane 0).closePending = false := by
  unfold State.accepting; decide +kernel

/-- AdmitGrantsAStall: a given stall and ANY, and each refusal. -/
theorem test_w_admit :
    let admitAt (stall : Option (Nat × Nat)) : Instr := .admitCar 1 0x11 1 stall 7
    let shut := waitingCar.onHouse (House.onLot 0 fun l => { l with admission := false })
    let full := waitingCar.onHouse (House.onLot 0 fun l => { l with capacity := 0 })
    let mapped := waitingCar.onLane 0 fun l => { l with settings := { l.settings with map := some 1 } }
    waitingCar.accepting ∧ stallInRange 1 2 = true ∧ (waitingCar.lane 0).upSense = false
      ∧ waitingCar.house.stallState 0 1 2 = some .free ∧ (waitingCar.house.lot 0).anyStall = some (1, 1)
      ∧ ((ran (admitAt (some (1, 2))) waitingCar).lane 0).state = .raising
      ∧ (ran (admitAt none) waitingCar).house.stallState 0 1 1 = some .assigned
      ∧ lastStatus (ran (admitAt (some (16, 120))) waitingCar) = some .taken
      ∧ lastStatus (ran (admitAt none) shut) = some .closed ∧ lastStatus (ran (admitAt none) full) = some .full
      ∧ lastStatus (ran (admitAt none) mapped) = some .badValue
      ∧ lastStatus (ran (admitAt none) (atLane fun l => { l with state := .idle })) = some .noVehicle
      ∧ lastStatus (ran (admitAt none) lot) = some .badState := by
  unfold State.accepting; decide +kernel

/-- RefuseAndAttendantPass in their states. -/
theorem test_w_refuse :
    let s := inFlight .passing id
    s.accepting ∧ (s.lane 0).grant.isSome = true ∧ (s.lane 0).downSense = false
      ∧ ((ran (.refuse 1 0x11) waitingCar).lane 0).refused = true
      ∧ lastStatus (ran (.refuse 1 0x11) (atLane fun l => { l with state := .idle })) = some .noVehicle
      ∧ lastStatus (ran (.refuse 1 0x11) lot) = some .badState
      ∧ lastStatus (ran (.attendantPass 1 0x11) (atLane fun l => { l with state := .idle })) = some .noVehicle
      ∧ lastStatus (ran (.attendantPass 1 0x11) lot) = some .badState
      ∧ (ran (.attendantPass 1 0x11) s).house.stallState 0 1 1 = some .admitted
      ∧ (ran (.attendantPass 1 0x11) s).present = 1 := by
  unfold State.accepting; decide +kernel

/-- LoopsSettle: raw levels, arrivals, a car that leaves, an unpaid crossing, an exit. -/
theorem test_w_loops :
    let due (l : Loop) : Loop := { l with timer := some 0 }
    let coming := atLane fun l => { l with state := .idle, arrive := due l.arrive }
    let leaving := waitingCar.onLane 0 fun l => { l with arrive := due l.arrive }
    let crossing := atLane fun l => { l with clear := due l.clear }
    let exiting (b : Bool) := lot.onExit 1 fun x => { x with loop := { x.loop with occupied := b, timer := some 0 }, noted := b }
    ((ran (.loopRawChange (.arrive 5) true) .reset).lane 5).arrive.timer = some 150
      ∧ ((ran (.loopRawChange (.clear 5) true) .reset).lane 5).clear.raw = true
      ∧ ((ran (.loopRawChange (.exit 1) true) .reset).exitLane 1).loop.timer = some 150
      ∧ (coming.lane 0).arrive.timer.isSome = true ∧ ((ran (.arriveSettles 0) coming).lane 0).state = .waiting
      ∧ ((ran (.arriveSettles 0) leaving).lane 0).counters.leftUnpaid = 1
      ∧ ((ran (.clearSettles 0) crossing).lane 0).counters.unpaid = 1 ∧ (ran (.clearSettles 0) crossing).present = 1
      ∧ ((ran (.exitSettles 1) (exiting false)).exitLane 1).noted = true
      ∧ ((ran (.exitSettles 1) (exiting true)).exitLane 1).exits = 1 := by decide +kernel

/-- ArmsAndTimers: each sense and timer in its state. -/
theorem test_w_arms :
    let raising := inFlight .raising id
    let passing := inFlight .passing id
    let lowering := atLane fun l => { l with state := .lowering, armTimer := some 0 }
    let rehearsed := atLane fun l =>
      { l with rehearsal := true, sim := { SimArm.initial with position := .rising, travel := some 0, raise := true } }
    ((ran (.armupAsserted 0 false) raising).lane 0).state = .raising
      ∧ ((ran (.armupAsserted 0 true) raising).lane 0).state = .passing
      ∧ ((ran (.armupAsserted 0 true) raising).lane 0).passTimer = some 60000
      ∧ ((ran (.armdnAsserted 0 true) lowering).lane 0).state = .idle
      ∧ ((ran (.armTimeout 0) raising).lane 0).state = .jammed
      ∧ ((ran (.armTimeout 0) raising).lane 0).counters.lapses = 1
      ∧ ((ran (.armTimeout 0) lowering).lane 0).counters.armFaults = 1
      ∧ (passing.lane 0).downSense = false ∧ (ran (.passTimeout 0) passing).house.stallState 0 1 1 = some .free
      ∧ ((ran (.simulatedArmTravelEnd 0) rehearsed).lane 0).sim.position = .up
      ∧ ran (.simulatedArmTravelEnd 0) lot = lot := by decide +kernel

/-- LotIsConfigured at the ends of their ranges. -/
theorem test_w_lot :
    let layout (rows : Nat) (counts fill : List Nat) (capacity : Nat) : Instr :=
      .lotConfigLayout 1 2 rows counts fill capacity
    let crowd := lot.onHouse (House.onStall 0 1 1 fun x => { x with state := .admitted })
    lot.accepting ∧ layoutInRange 2 [120, 0] [2, 1] 120 = true ∧ layoutInRange 1 [121] [1] 0 = false
      ∧ layoutInRange 1 [5] [1] 6 = false ∧ layoutInRange 17 [] [] 0 = false
      ∧ ((ran (layout 2 [120, 0] [2, 1] 120) lot).house.lot 1).stallCount = 120
      ∧ ((ran (layout 2 [120, 0] [2, 1] 120) lot).house.lot 1).full = false
      ∧ lastStatus (ran (layout 1 [5] [1] 6) lot) = some .badValue
      ∧ lastStatus (ran (.lotConfigLayout 1 1 1 [5] [1] 5) crowd) = some .badState
      ∧ ((ran (.lotConfigCapacity 1 1 0) crowd).house.lot 0).capacity = 1
      ∧ lastStatus (ran (.lotConfigCapacity 1 1 3) crowd) = some .badValue
      ∧ (ran (.stallBlock 1 1 1 2) lot).house.stallState 0 1 2 = some .blocked
      ∧ lastStatus (ran (.stallBlock 1 1 1 1) crowd) = some .badState
      ∧ (runs [.stallBlock 1 1 1 2, .stallUnblock 1 1 1 2] lot).house.stallState 0 1 2 = some .free
      ∧ lastStatus (ran (.stallUnblock 1 1 1 2) lot) = some .badState := by
  unfold State.accepting; decide +kernel

/-- Ten rows of 120 stalls fill the site's 1,200, so another screen has none left (R115, R116). -/
theorem test_w_lot_site :
    let s := lot.onHouse (House.onLot 3 fun l => { l with rows := List.replicate 10 (List.replicate 120 Stall.vacant) })
    s.house.stallsLeft 1 = 0
      ∧ lastFields (ran (.lotConfigLayout 1 2 1 [1] [1] 0) s) = [u16 0] := by decide +kernel

/-- DepartAndSweepFree: an ADMITTED stall with an order, and the sweep of its screen. -/
theorem test_w_depart :
    let s : State := { lot with house := ((({ busyHouse with lots := lot.house.lots }).onStall 0 1 1 fun x =>
      { x with state := .admitted, openOrders := 1 })) }
    s.accepting ∧ s.house.stallState 0 1 1 = some .admitted
      ∧ lastFields (ran (.depart 1 1 1 1) s) = [u8 1] ∧ (ran (.depart 1 1 1 1) s).house.orders = []
      ∧ lastStatus (ran (.depart 1 1 1 2) s) = some .badState
      ∧ lastFields (ran (.sweep 1 1) s) = [u16 1, u8 1]
      ∧ (ran (.sweep 1 1) s).house.stallState 0 1 1 = some .free := by
  unfold State.accepting; decide +kernel

/-- CountersReadClears: cleared, not cleared over a grant, an exit lane. -/
theorem test_w_counters :
    let s := atLane fun l => { l with counters := { Counters.zero with arrivals := 65535 } }
    s.accepting ∧ entryOfCode 0x16 = some 5 ∧ (s.lane 0).grant = none
      ∧ ((ran (.countersRead 1 0x11 1) s).lane 0).counters.arrivals = 0
      ∧ ((ran (.countersRead 1 0x11 0) s).lane 0).counters.arrivals = 65535
      ∧ (ran (.countersRead 1 0x11 1) (inFlight .passing id)).lane 0 = (inFlight .passing id).lane 0
      ∧ ((ran (.countersRead 1 0x22 1) s).exitLane 1).clearedAt = some ⟨0, 0⟩ := by
  unfold State.accepting; decide +kernel

/-! ### Witnesses: orders, kitchen and rehearsal -/

/-- Station S1 open, class 1 (60 s, 10 s more a unit) prepared there, and a stall of screen 1 ADMITTED. The screen
GATHERs, so intake is OPEN. -/
def snackBar : State :=
  { lot with
    house := ((({ (withShow id).house with lots := lot.house.lots }.onStation 0 fun x => { x with opened := true }).onStall
      0 1 1 fun x => { x with state := .admitted, party := 7 })) } |>
  State.onHouse fun h => { h with items := h.items.setIfInBounds 0 (some ⟨0, 60, 10⟩) }

/-- KitchenSettingsSet at the ends of their ranges. -/
theorem test_w_kitchen :
    State.reset.accepting ∧ (ran (.itemClassSet 1 64 0x34 1800 600) .reset).house.item? 64 = some ⟨3, 1800, 600⟩
      ∧ lastStatus (ran (.itemClassSet 1 65 0x34 0 0) .reset) = some .badValue
      ∧ lastStatus (ran (.itemClassSet 1 1 0x34 1801 0) .reset) = some .badValue
      ∧ ((ran (.stationSet 1 0x31 1 8 3600) .reset).house.station 0).slots = 8
      ∧ lastStatus (ran (.stationSet 1 0x31 2 1 60) .reset) = some .badValue
      ∧ lastStatus (ran (.stationSet 1 0x31 1 9 60) .reset) = some .badValue
      ∧ lastFields (ran (.stationSet 1 0x31 1 2 60) { State.reset with house := House.reset.onStation 0 fun _ => grill })
          = [u8 3]
      ∧ (ran (.orderPolicySet 1 1800 600 3 900 60) .reset).house.orderPolicy = ⟨1800, 600, 3, 900, 60⟩
      ∧ lastStatus (ran (.orderPolicySet 1 59 0 0 60 5) .reset) = some .badValue := by
  unfold State.accepting; decide +kernel

/-- OrderPlaceEntersTable: an OPEN placement, a DEFER one, a CLOSED one, and a stall with 3 orders. -/
theorem test_w_order_place :
    let place : Instr := .orderPlace 1 1 1 1 1 [⟨1, 3⟩]
    let intake (p : PolicyRow) := snackBar.onHouse fun h => { h with policy := tset h.policy 1 p }
    let three := snackBar.onHouse (House.onStall 0 1 1 fun x => { x with openOrders := 3 })
    snackBar.accepting ∧ snackBar.house.ordersFine ∧ snackBar.house.lineValid ⟨1, 3⟩ = true
      ∧ snackBar.house.touched [⟨1, 3⟩] = [0] ∧ (snackBar.house.row 0).intake = .open
      ∧ snackBar.house.waits [⟨1, 3⟩] = [(0, 40)]
      ∧ lastFields (ran place snackBar) = [u16 1, u8 2, u16 0, u32 120000, u24 40]
      ∧ (ran place snackBar).house.orders.map Order.state = [.cooking]
      ∧ lastFields (ran place (intake ⟨.open, .defer, [], 0⟩)) = [u16 1, u8 1, u8 1]
      ∧ lastFields (ran place (intake ⟨.open, .closed, [], 0⟩)) = [u8 1]
      ∧ lastStatus (ran place three) = some .limit := by
  unfold State.accepting House.ordersFine; decide +kernel

/-- OrdersEnd: an order READY for pickup, one still cooking, no order, and a call without call clips. -/
theorem test_w_orders_end :
    let s : State := { State.reset with house := busyHouse }
    let cooking := s.onHouse (House.onOrder 999 fun o => { o with state := .cooking, mode := .runner })
    let dueCall := s.onHouse (House.onOrder 999 fun o => { o with due := some 0 })
    s.accepting ∧ (s.house.order? 999).isSome = true ∧ s.house.queuesFine
      ∧ (ran (.orderCollect 1 999) s).house.orders = []
      ∧ ((ran (.orderCancel 1 999) s).house.station 0).queue = []
      ∧ lastStatus (ran (.orderCollect 1 999) cooking) = some .badState
      ∧ lastStatus (ran (.orderDelivered 1 999) cooking) = some .badState
      ∧ lastStatus (ran (.orderDelivered 1 1) s) = some .notFound
      ∧ ((ran (.callRepeatDue 999) dueCall).house.orders.map Order.notCalled) = [true]
      ∧ ran (.callRepeatDue 999) s = s := by
  unfold State.accepting House.queuesFine Station.ticketsFine; decide +kernel

/-- A runner's order at the counter is delivered (R157). -/
theorem test_delivered :
    let s : State :=
      { State.reset with house := busyHouse.onOrder 999 fun o => { o with mode := .runner } }
    (ran (.orderDelivered 1 999) s).house.orders = [] := by decide +kernel

/-- Station S1 as the grill, with a VOID ticket besides; `on` is its rehearsal flag. -/
def bumped (on : Bool) : State :=
  { State.reset with
    house := { House.reset with nextJoin := 8, nextCook := 5 }.onStation 0 fun _ =>
      { grill with rehearsal := on, queue := grill.queue ++ [(⟨7, [], 60, .void, 7, some 4, none, 0⟩ : Ticket)] } }

/-- BumpsFinishTickets: by number, VOID, DONE, unknown, by the button, and in rehearsal. -/
theorem test_w_bumps :
    (bumped false).accepting ∧ ((bumped false).house.station 0).oldestCooking.map Ticket.order = some 4
      ∧ ((ran (.bump 1 5 0x31) (bumped false)).house.station 0).countState .done = 1
      ∧ ((ran (.bump 1 1 0x31) (bumped false)).house.station 0).countState .done = 1
      ∧ lastStatus (runs [.bump 1 5 0x31, .bump 2 5 0x31] (bumped false)) = some .alreadyDone
      ∧ lastFields (ran (.bump 1 7 0x31) (bumped false)) = [u8 1]
      ∧ lastStatus (ran (.bump 1 999 0x31) (bumped false)) = some .notFound
      ∧ lastStatus (ran (.bump 1 1000 0x31) (bumped false)) = some .badValue
      ∧ ((ran (.buttonBump 0) (bumped false)).house.station 0).countState .done = 1
      ∧ ran (.buttonBump 0) (bumped true) = bumped true ∧ ran (.buttonBump 1) .reset = .reset
      ∧ lastFields (ran (.injectBump 1 0x31) (bumped true)) = [u16 4]
      ∧ lastStatus (ran (.injectBump 1 0x31) (bumped false)) = some .badState := by
  unfold State.accepting; decide +kernel

/-- BacklogIsTheSum: STATION READ of the grill with a VOID ticket of 60 s. -/
theorem test_w_backlog :
    (bumped false).accepting ∧ (lastFields (ran (.stationRead 1 0x31 1) (bumped false)))[12]? = some (u24 960) := by
  unfold State.accepting; decide +kernel

/-- RehearseSwitches: each unit on and off, and the refusals. -/
theorem test_w_rehearse :
    let screenOn := ran (.rehearse 1 1 1 (some 1)) .reset
    let laneOn := ran (.rehearse 1 0x11 1 none) .reset
    let stationOn := ran (.rehearse 1 0x31 1 none) .reset
    State.reset.accepting ∧ (screenOn.house.ctl 0).autoAnswer = true ∧ (laneOn.lane 0).rehearsal = true
      ∧ (stationOn.house.station 0).rehearsal = true ∧ screenOn.accepting
      ∧ ((ran (.rehearse 1 1 0 none) screenOn).house.ctl 0).rehearsal = false
      ∧ ((ran (.rehearse 1 0x11 0 none) laneOn).lane 0).rehearsal = false
      ∧ ((ran (.rehearse 1 0x31 0 none) stationOn).house.station 0).rehearsal = false
      ∧ lastStatus (ran (.rehearse 1 1 1 none) .reset) = some .badValue
      ∧ lastStatus (ran (.rehearse 1 1 1 (some 0)) (showing 0 id)) = some .badState
      ∧ lastStatus (ran (.rehearse 1 0x11 1 none) waitingCar) = some .badState
      ∧ lastStatus (ran (.rehearse 1 0x11 1 none) (atLane fun l => { l with raise := true })) = some .busy
      ∧ lastStatus (ran (.rehearse 1 0x31 1 none) (bumped false)) = some .badState := by
  unfold State.accepting; decide +kernel

/-- InjectionsAct: each injection in rehearsal, and outside it. -/
theorem test_w_inject :
    let s := (showing 0 fun c => { c with rehearsal := true, counting := .timebase, stallMark := true })
    let asked := awaiting (attempt true .q) s
    let auto (q : Nat) := asked.onHouse (House.onLine 0 fun l => { l with autoDue := some (q, 0) })
    let lane := ran (.rehearse 1 0x11 1 none) .reset
    let arm := atLane fun l => { l with rehearsal := true, sim := { SimArm.initial with position := .rising, raise := true } }
    s.accepting ∧ (s.house.ctl 0).rehearsal = true ∧ lane.accepting
      ∧ ((ran (.injectStall 1 1) s).house.ctl 0).generator = none
      ∧ ((ran (.injectResume 1 1) s).house.ctl 0).generator = some 0
      ∧ ((ran (.injectAnswer 1 1 4 0) asked).house.line 0).unit = .backoff (attempt true .q) 300
      ∧ ((ran (.injectAnswer 1 1 3 3) asked).house.line 0).unit = .backoff (attempt true .q) 300
      ∧ (ran (.injectEnded 1 1 65535) s).house.ctl 0 = s.house.ctl 0
      ∧ lastStatus (ran (.injectEnded 1 1 1) .reset) = some .badState
      ∧ lastStatus (ran (.injectStall 1 1) .reset) = some .badState
      ∧ ((ran (.autoAnswer 0) (auto 3)).house.line 0).unit = .quiet
      ∧ ((ran (.autoAnswer 0) (auto 15)).house.line 0).unit = .await (attempt true .q) 500
      ∧ ((ran (.injectLoop 1 0x11 1 1) lane).lane 0).arrive.timer = some 150
      ∧ ((ran (.injectLoop 1 0x11 2 2) lane).lane 0).clear.timer = none
      ∧ ((ran (.injectJam 1 0x11 1) arm).lane 0).sim.held = true
      ∧ ((runs [.injectJam 1 0x11 1, .injectJam 1 0x11 2] arm).lane 0).sim.travel = some 1000
      ∧ lastStatus (ran (.injectLoop 1 0x11 1 1) .reset) = some .badState
      ∧ lastStatus (ran (.injectJam 1 0x11 1) .reset) = some .badState := by
  unfold State.accepting; decide +kernel

/-! ### Witnesses: the link and the clock, further clauses -/

/-- UnknownKindIsAnswered: a form byte that names no form, with nothing after it, and a presence byte of ADMIT above 1. -/
theorem test_w_unknown_forms :
    lastStatus (ran (.unknownKind 0x2A 3 [3]) .reset) = some .badLength
      ∧ lastStatus (ran (.unknownKind 0x43 3 [0x16, 1, 2, 0, 0, 0, 0]) .reset) = some .badValue
      ∧ lastFields (ran (.unknownKind 0x43 3 [0x16, 1, 2, 0, 0, 0, 0]) .reset) = (State.reset.lane 5).block := by
  decide +kernel

/-- TransmitterTakesRepliesFirst: the end of a notice before a filled-in reply, and before one not yet filled in. -/
theorem test_w_transmitter_notice :
    let m : Notice := ⟨.lotFull, ⟨0, 0⟩, []⟩
    let filled := transmitting (.notice m) (linked [{ waitingRequest with reply := some someReply }])
    let unfilled := transmitting (.notice m) (linked [waitingRequest])
    filled.house.out.tx = .notice m ∧ (ran .transmitFrameEnd filled).house.out.tx = .reply
      ∧ (ran .transmitFrameEnd filled).link.buffer = filled.link.buffer
      ∧ (ran .transmitFrameEnd unfilled).house.out.tx = .idle := by decide +kernel

/-- SiteStatusAndNoticeMask: a subkind switched off, a full queue, an idle transmitter. -/
theorem test_w_push :
    let n : Notice := ⟨.lotFull, ⟨0, 0⟩, []⟩
    let off : Outbox := { Outbox.reset with mask := 0 }
    let full : Outbox := { Outbox.reset with notices := List.replicate 32 n, tx := .reply, lostCount := 255 }
    off.mask.testBit n.kind.bit = false ∧ off.push n = off
      ∧ full.mask.testBit n.kind.bit = true ∧ full.notices.length = 32
      ∧ full.push n = { full with noticeLost := true, lostCount := 255 }
      ∧ Outbox.reset.push n = { Outbox.reset with tx := .notice n } := by decide +kernel

/-! ### Witnesses: shows and cue lines, further clauses -/

/-- ShowLoadTakesSlot: AT_TIME into the running slot, before its start time and after it. -/
theorem test_w_show_load_timed :
    let s : State := { State.reset with house := { table with timeUnset := false, clock := ⟨1, 5000⟩ } }
    let load (ms : Nat) : Instr := .showLoad 1 1 5 0 4 24 2 1 1 ms
    s.accepting ∧ loadedShow 5 0 4 24 2 1 1 5001 = some { feature with mode := .atTime ⟨1, 5001⟩ }
      ∧ s.house.slotOpen 0 = true ∧ s.house.nobodyExpires 0
      ∧ ((ran (load 5001) s).house.ctl 0).state = .armed
      ∧ ((ran (load 2000) s).house.ctl 0).state = .showing
      ∧ ((ran (load 2000) s).house.ctl 0).record.lateStart = 3 := by
  unfold State.accepting House.nobodyExpires; decide +kernel

/-- AttemptsMoveOn: the last attempt of a pass, loud and quiet, and of a show's exchange. -/
theorem test_w_attempts_fail :
    let last (quiet pass : Bool) (v : Verb) : Exchange := { attempt pass v with quiet := quiet, allowed := 1 }
    let loud := awaiting (last false true .l) .reset
    let strict := awaiting (last false false .l) (showing 0 id)
    (loud.house.line 0).waitingPlace = none
      ∧ ((ran (.answerTimeout 0) loud).house.line 0).fault =
          some ⟨.l, 7, none, .noAnswer, 1, ⟨0, 0⟩, false⟩
      ∧ (ran (.answerTimeout 0) loud).house.out.tx = .notice ⟨.passResult, ⟨0, 0⟩,
          [u8 1, u8 1, u16 7, u8 3, u8 1, u8 3]⟩
      ∧ (ran (.answerTimeout 0) loud).house.out.notices =
          [⟨.screenFault, ⟨0, 0⟩, [u8 1, u8 Cause.cueNoAnswer.code, u16 0, u8 0, u8 0]⟩]
      ∧ (ran (.answerTimeout 0) (awaiting (last true true .q) .reset)).house.out.notices = []
      ∧ (strict.house.ctl 0).state = .showing
      ∧ ((ran (.answerTimeout 0) strict).house.ctl 0).state = .stopping
      ∧ ((ran (.answerTimeout 0) strict).house.ctl 0).record.firstCause = some .cueNoAnswer
      ∧ ((ran (.answerTimeout 0) strict).house.line 0).unit.exchange?.map Exchange.verb = some .h := by
  decide +kernel

/-- AnswersEndAttempts: N to a show, a loud pass refused, D to its last H, and an early ENDED under both policies. -/
theorem test_w_answers_show :
    let refused := awaiting (attempt false .l) (showing 0 id)
    let ending := awaiting (attempt false .h) (showing 3 fun c => { c with finalHalt := true })
    let counting (p : FaultPolicy) := showing 0 fun c =>
      { c with counting := .pulses, running := some { feature with policy := p } }
    let ended : Instr := .cueLineReceived 0 (endedLine 7)
    (counting .stopOnFault).house.inEntry 0 .play { feature with policy := .stopOnFault } 0
      ∧ ((counting .runThrough).house.ctl 0).record.progress < ((counting .runThrough).house.cue 0).length
      ∧ ((ran (.cueLineReceived 0 (answerLine 0x4E 3)) refused).house.ctl 0).record.firstCause = some .cueRefused
      ∧ (ending.house.ctl 0).waiting = none
      ∧ ((ran (.cueLineReceived 0 (answerLine 0x44 3)) ending).house.ctl 0).record.outcome = .complete
      ∧ ((ran ended (counting .stopOnFault)).house.ctl 0).state = .stopping
      ∧ ((ran ended (counting .runThrough)).house.ctl 0).record.current = some 1
      ∧ faults (ran ended (counting .runThrough)) = 1
      ∧ ran (.cueLineReceived 0 (endedLine 8)) (counting .runThrough) = counting .runThrough := by
  unfold House.inEntry; decide +kernel

/-! ### Witnesses: sound, further clauses -/

/-- Clips 1 and 2 loaded, the announcement playing on screen 1 of a GATHERing show, at its last sample. -/
def playingLast (a : Ann) : State :=
  (withShow id).onHouse fun h =>
    ((((h.setClip 1 ⟨.ready, 2, [256], 1⟩).setClip 2 ⟨.ready, 1, [257], 1⟩).onQueue 0 fun _ => [a]).onPlayer 0 fun _ =>
      { state := .playing, held := some a.id, sample := 1, gapLeft := 0 })

/-- SampleFrameMixes: the end of a clip before another, with a gap and without, and the end of the last clip. -/
theorem test_w_clip_ends :
    let two := { promo 1 .manual 3 with clips := [1, 2] }
    let s := playingLast two
    let swift := s.onHouse fun h => { h with gap := 0 }
    let done := playingLast (promo 1 .manual 3)
    (s.house.player 0).state = .playing ∧ s.house.heldAnn 0 = some two ∧ s.house.suspends 0 two = false
      ∧ s.house.nobodyExpires 0 ∧ ((s.house.advancePlayer 0).player 0).state = .gap
      ∧ ((s.house.advancePlayer 0).player 0).gapLeft = 5760
      ∧ ((s.house.advancePlayer 0).queue 0).map Ann.position = [2]
      ∧ (swift.house.advancePlayer 0).player 0 = ⟨.playing, some 1, 0, 0⟩
      ∧ ((done.house.advancePlayer 0).player 0).state = .release ∧ (done.house.advancePlayer 0).queue 0 = []
      ∧ ((done.house.advancePlayer 0).clip 1).refs = 0
      ∧ (done.house.advancePlayer 0).out.tx =
          .notice ⟨.announceDone, ⟨0, 0⟩, [u8 1, u16 1, u8 4, u8 1, u16 0, u8 1, u8 1, u8 1]⟩ := by
  unfold House.nobodyExpires; decide +kernel

/-- BlockStartMovesGains: a DUCKING player at its duck gain, a RELEASE player at unity, and STOPPING at 0. -/
theorem test_w_block_start :
    let ducking := (playingLast (promo 1 .manual 3)).onHouse fun h =>
      (h.onPlayer 0 fun p => { p with state := .ducking }).onGain 0 fun g => { g with gp := 0 }
    let releasing := State.reset.onHouse (House.onPlayer 0 fun p => { p with state := .release })
    let stopping (abort : Bool) := (showing 0 fun c =>
      { c with state := .stopping, stopHaltEnded := true, stopAbort := abort }).onHouse
        (House.onGain 0 fun g => { g with gp := 0 })
    let muted := ducking.onHouse fun h => { h with policy := tset h.policy 1 { tget h.policy 1 with duck := 600 } }
    (ducking.house.player 0).state = .ducking ∧ muted.house.ordersFine ∧ releasing.house.ordersFine
      ∧ (stopping false).house.ordersFine ∧ (stopping true).house.ordersFine
      ∧ ((ran .blockStart muted).house.gain 0).gp = 512
      ∧ ((ran .blockStart muted).house.player 0).state = .playing
      ∧ releasing.house.firstEligible 0 = none ∧ releasing.house.nobodyExpires 0
      ∧ (ran .blockStart releasing).house.player 0 = .quiet
      ∧ ((ran .blockStart (stopping false)).house.ctl 0).state = .held
      ∧ ((ran .blockStart (stopping true)).house.ctl 0).state = .idle := by
  unfold House.ordersFine House.nobodyExpires; decide +kernel

/-- BlockEndJudgesBlock: a silent FEATURE at its limit under both policies, already raised, and CLIPPED. -/
theorem test_w_block_end :
    let silent (p : FaultPolicy) (raised : Bool) : State := ((showing 0 fun c =>
        { c with running := some { feature with policy := p }, silentRaised := raised }).onHouse fun h =>
      ({ h with cues := h.cues.setIfInBounds 0 ⟨.play, 7, 2, .feature, false, false, 0⟩ }.onGain 0 fun g =>
        { g with silenceRun := 59999 })).onChannel 0 fun c => { c with settings := { c.settings with limit := 60 } }
    let clipped := State.reset.onChannel 0 fun c => { c with clips := 96, peakIn := 8388607 }
    ((silent .runThrough false).channel 0).peakIn < ((silent .runThrough false).channel 0).settings.silence
      ∧ ((ran .blockEnd (silent .runThrough false)).house.gain 0).reported = true
      ∧ faults (ran .blockEnd (silent .runThrough false)) = 1
      ∧ (ran .blockEnd (silent .runThrough false)).house.out.notices =
          [⟨.levelAlert, ⟨0, 0⟩, [u8 1, u8 2, u8 0]⟩]
      ∧ ((ran .blockEnd (silent .stopOnFault false)).house.ctl 0).state = .stopping
      ∧ faults (ran .blockEnd (silent .runThrough true)) = 0
      ∧ (ran .blockEnd clipped).house.out.tx = .notice ⟨.levelAlert, ⟨0, 0⟩, [u8 1, u8 1, u8 96]⟩ := by
  decide +kernel

/-- MixRequestsStage and ClipBeginAndEnd: the partition there is, and ids and lengths out of range. -/
theorem test_w_partition_same :
    lastFields (ran (.partitionSet 1 16) loaded) = [u24 32768, u16 7936, u24 0, u24 0, u24 0, u24 0]
      ∧ lastStatus (ran (.clipBegin 1 128 1) loaded) = some .badValue
      ∧ lastStatus (ran (.clipBegin 1 127 4194305) loaded) = some .badValue
      ∧ lastStatus (ran (.clipEnd 1 0 0) loaded) = some .badValue := by decide +kernel

/-- AnnounceQueues: a full queue whose last announcement gives way to a more urgent one. -/
theorem test_w_announce_displaces :
    let s := queued ((List.range 12).map fun i => promo (i + 1) .manual 3)
    12 ≤ (s.house.queue 0).length ∧ s.house.victim 0 (s.house.classRow .safety).priority = some (promo 12 .manual 3)
      ∧ s.house.nobodyExpires 0 ∧ 0 < (s.house.classRow .safety).maxWait
      ∧ lastFields (ran (.announce 1 1 1 [1]) s) = [u16 12]
      ∧ ((ran (.announce 1 1 1 [1]) s).house.queue 0).map Ann.id = [12, 1, 2, 3, 4, 5, 6, 7, 8, 9, 10, 11]
      ∧ (ran (.announce 1 1 1 [1]) s).house.out.notices =
          [⟨.announceDropped, ⟨0, 0⟩, [u8 1, u16 12, u8 4, u8 1, u16 0, u8 2]⟩] := by
  unfold House.nobodyExpires; decide +kernel

/-- A site with call clips, and order 999 READY for pickup, changed by `f`. -/
def callSite (f : Order → Order) (q : List Ann) : State :=
  (queued q).onHouse fun h =>
    { h with orders := busyHouse.orders.map f, callClips := some ⟨1, 0, List.replicate 10 2⟩ }

/-- AnnouncementsEnd: a departure brings the call of an order that waits for one. -/
theorem test_w_call_waiting :
    let s := callSite (fun o => { o with callWaiting := true }) [promo 1 .manual 3]
    s.house.findAnn 1 = some (0, promo 1 .manual 3) ∧ (s.house.player 0).held ≠ some 1 ∧ s.house.nobodyExpires 0
      ∧ (s.house.oldestWaiting 0).map Order.number = some 999 ∧ 0 < (s.house.classRow .orderCall).maxWait
      ∧ ((ran (.announcementExpiry 1) s).house.queue 0).map Ann.clips = [[1, 2, 2, 2]]
      ∧ ((ran (.announcementExpiry 1) s).house.orders.map Order.call) = [some 1] := by
  unfold House.nobodyExpires; decide +kernel

/-! ### Witnesses: lanes, further clauses -/

/-- AdmitGrantsAStall: an arm found up, and ANY with every stall taken below the capacity. -/
theorem test_w_admit_up :
    let up := waitingCar.onLane 0 fun l => { l with armUp := true }
    let blocked := waitingCar.onHouse fun h =>
      (h.onStall 0 1 1 fun x => { x with state := .blocked }).onStall 0 1 2 fun x => { x with state := .blocked }
    (up.lane 0).upSense = true ∧ (up.lane 0).arrive.occupied = true
      ∧ ((ran (.admitCar 1 0x11 1 none 7) up).lane 0).state = .passing
      ∧ ((ran (.admitCar 1 0x11 1 none 7) up).lane 0).passTimer = some 60000
      ∧ (blocked.house.lot 0).anyStall = none ∧ (blocked.house.lot 0).occupancy < (blocked.house.lot 0).capacity
      ∧ lastStatus (ran (.admitCar 1 0x11 1 none 7) blocked) = some .full := by decide +kernel

/-- LoopsSettle: the clear-seen mark, a loop pass, a backout, a tailgate, and a held RAISE released. -/
theorem test_w_loops_pass :
    let due (b : Bool) (l : Loop) : Loop := { l with occupied := b, timer := some 0 }
    let seen (l : EntryLane) : EntryLane := { l with grant := l.grant.map fun g => { g with seen := true } }
    let coming := inFlight .passing fun l => { l with clear := due false l.clear }
    let through := inFlight .passing fun l => { l with clear := due true l.clear }
    let passed := through.onLane 0 seen
    let leaving := inFlight .passing fun l => { l with arrive := due true l.arrive }
    let lowering (b : Bool) := atLane fun l =>
      { l with state := .lowering, raise := b, clear := due b l.clear, armTimer := if b then none else some 9 }
    let held := atLane fun l => { l with state := .jammed, raise := true, clear := due true l.clear }
    ((passed.lane 0).grant.map Grant.seen = some true) ∧ (passed.lane 0).downSense = false
      ∧ ((ran (.clearSettles 0) coming).lane 0).grant.map Grant.seen = some true
      ∧ ((ran (.clearSettles 0) through).lane 0).state = .passing
      ∧ ((ran (.clearSettles 0) passed).lane 0).counters.admitted = 1 ∧ (ran (.clearSettles 0) passed).present = 1
      ∧ (ran (.clearSettles 0) passed).house.stallState 0 1 1 = some .admitted
      ∧ ((ran (.arriveSettles 0) leaving).lane 0).counters.backouts = 1
      ∧ (ran (.arriveSettles 0) leaving).house.stallState 0 1 1 = some .free
      ∧ ((ran (.arriveSettles 0) (leaving.onLane 0 seen)).lane 0).state = .passing
      ∧ ((ran (.clearSettles 0) (lowering false)).lane 0).raise = true
      ∧ ((ran (.clearSettles 0) (lowering false)).lane 0).armTimer = none
      ∧ ((ran (.clearSettles 0) (lowering true)).lane 0).armTimer = some 4000
      ∧ ((ran (.clearSettles 0) held).lane 0).raise = false := by decide +kernel

/-! ### Witnesses: orders and kitchen, further clauses -/

/-- An order DEFERRED on screen 1. -/
def deferredOrder : Order :=
  { number := 5, screen := 0, row := 1, position := 1, party := 0, mode := .pickup, placed := ⟨0, 0⟩, sequence := 1,
    promised := none, lines := [⟨1, 3⟩], tickets := [], state := .deferred, ready := none, made := 0, remaining := 3,
    call := none, due := none, age := 0, late := false, callWaiting := false, notCalled := false }

/-- The snack bar with that order, and the intakes of DARK and GATHER. -/
def deferring (dark gather : Intake) : State :=
  snackBar.onHouse fun h =>
    { h with
      orders := [deferredOrder]
      policy := tset (tset h.policy 1 { tget h.policy 1 with intake := gather }) 0 { tget h.policy 0 with intake := dark } }

/-- ClockHandsOut, PhasePolicySetsRows, ShowAbortByState and KitchenSettingsSet: a DEFERRED order that may be released. -/
theorem test_w_releasable :
    (∀ dark gather, (deferring dark gather).house.ordersFine)
      ∧ ∀ dark gather, (deferring dark gather).house.releasable deferredOrder := by
  have fine : ∀ dark gather, (deferring dark gather).house.ordersFine := by
    intro dark gather; cases dark <;> cases gather <;> unfold House.ordersFine <;> decide +kernel
  refine ⟨fine, fun dark gather => ⟨fine dark gather, ?_⟩⟩
  cases dark <;> cases gather <;>
    exact ⟨by decide +kernel, by decide +kernel, by decide +kernel, by decide +kernel⟩

/-- The same: it is released at a whole second, at a change of policy, at a change of phase, and not while it may not be. -/
theorem test_w_release_deferred :
    let shut := deferring .closed .closed
    let states (s : State) : List OrderState := s.house.orders.map Order.state
    ((deferring .closed .open).house.row 0).intake = .open ∧ shut.house.phase 0 = .gather
      ∧ (∀ n, ∀ a ∈ shut.house.queue n, a.wait < (shut.house.classRow a.cls).maxWait * 1000)
      ∧ states (ran .wholeSecond (deferring .closed .open)) = [.cooking] ∧ states (ran .wholeSecond shut) = [.deferred]
      ∧ states (ran (.phasePolicySetRow 1 2 1 1 31 0) shut) = [.cooking]
      ∧ states (ran (.showAbort 1 1) (deferring .open .closed)) = [.cooking]
      ∧ states (ran (.orderPolicySet 1 60 0 0 60 5) (deferring .closed .open)) = [.cooking] := by
  decide +kernel

/-- KitchenSettingsSet: a code that names no station, and a raised slot count that starts the oldest QUEUED ticket. -/
theorem test_w_slots :
    let s : State := { State.reset with house := { House.reset with nextJoin := 9 }.onStation 0 fun _ => grill }
    stationOfCode 0x35 = none ∧ lastStatus (ran (.itemClassSet 1 1 0x35 0 0) s) = some .badValue
      ∧ lastStatus (ran (.stationSet 1 0x35 1 4 60) s) = some .badValue
      ∧ (s.house.station 0).ticketsFine s.house.nextJoin ∧ (s.house.station 0).cookingCount ≤ 4
      ∧ ((ran (.stationSet 1 0x31 1 4 60) s).house.station 0).cookingCount = 4 := by
  unfold Station.ticketsFine; decide +kernel

/-- OrderPlaceEntersTable: each refusal of R141, in its order. -/
theorem test_w_order_refused :
    let place (position item : Nat) : Instr := .orderPlace 1 1 1 position 1 [⟨1, 1⟩, ⟨item, 1⟩]
    let station (f : Station → Station) := snackBar.onHouse (House.onStation 0 f)
    let crowd := snackBar.onHouse fun h =>
      { h with orders := (List.range 192).map fun i => { deferredOrder with number := i + 1, position := 2 } }
    let line (i : Nat) : Ticket := ⟨i, [], 5, .done, i, none, none, 0⟩
    lastFields (ran (place 1 2) snackBar) = [u8 1, u8 2] ∧ lastStatus (ran (place 2 1) snackBar) = some .notPresent
      ∧ lastStatus (ran (place 1 1) crowd) = some .full
      ∧ lastFields (ran (place 1 1) (station fun x => { x with opened := false })) = [u8 0x31]
      ∧ lastStatus (ran (place 1 1) (station fun x => { x with queue := (List.range 48).map line })) = some .stationFull
      ∧ lastFields (ran (place 1 1) (station fun x => { x with maxWait := 10 })) = [u8 1, u8 0x31, u24 60, u24 60] := by
  decide +kernel

/-- OrdersEnd: CALL_REPEAT_DUE with call clips: the call is placed, or refused at a full queue and waits. -/
theorem test_w_call_repeat :
    let s := callSite (fun o => { o with due := some 0 }) [promo 1 .manual 3]
    let full := callSite (fun o => { o with due := some 0 }) ((List.range 12).map fun i => promo (i + 1) .safety 0)
    (s.house.order? 999).isSome = true ∧ s.house.nobodyExpires 0 ∧ (s.house.queue 0).length < 12
      ∧ 0 < (s.house.classRow .orderCall).maxWait ∧ full.house.victim 0 (full.house.classRow .orderCall).priority = none
      ∧ ((ran (.callRepeatDue 999) s).house.queue 0).map Ann.clips = [[1, 2, 2, 2], [1]]
      ∧ (ran (.callRepeatDue 999) s).house.orders.map Order.call = [some 2]
      ∧ (ran (.callRepeatDue 999) full).house.orders.map Order.callWaiting = [true]
      ∧ ran (.callRepeatDue 1) s = s := by
  unfold House.nobodyExpires; decide +kernel

/-- BumpsFinishTickets: the order of a bumped ticket becomes READY and is called; a VOID ticket cleared by the button and
by injection; a press soon after a rehearsal. -/
theorem test_w_bump_order :
    let cooking := (callSite (fun o => { o with state := .cooking }) []).onHouse (House.onStation 0 fun x =>
      { x with slots := 1, queue := [⟨999, [⟨1, 1⟩], 60, .cooking, 1, some 1, some ⟨0, 0⟩, 9⟩] })
    let shared := cooking.onHouse (House.onStation 1 fun x =>
      { x with queue := [⟨999, [⟨2, 1⟩], 60, .queued, 2, none, none, 0⟩] })
    let void (on : Bool) : State := { State.reset with house := { House.reset with nextJoin := 8 }.onStation 0 fun x =>
      { x with rehearsal := on, queue := [⟨7, [], 60, .void, 7, some 4, none, 0⟩] } }
    let waits := (bumped false).onHouse (House.onStation 0 fun x => { x with pressWait := 1 })
    ((cooking.house.station 0).oldestCooking.map Ticket.order = some 999)
      ∧ (cooking.house.liveTicket 0 999).isSome = true
      ∧ (ran (.bump 1 999 0x31) cooking).house.orders.map Order.state = [.ready]
      ∧ (ran (.bump 1 999 0x31) cooking).house.orders.map Order.call = [some 1]
      ∧ ((ran (.buttonBump 0) cooking).house.queue 0).map Ann.origin = [.order 999]
      ∧ (ran (.bump 1 999 0x31) shared).house.orders.map Order.state = [.cooking]
      ∧ ((void false).house.station 0).oldestCooking.map Ticket.state = some .void
      ∧ ((ran (.buttonBump 0) (void false)).house.station 0).queue = []
      ∧ ((ran (.injectBump 1 0x31) (void true)).house.station 0).queue = []
      ∧ lastFields (ran (.injectBump 1 0x31) (void true)) = [u16 7] ∧ ran (.buttonBump 0) waits = waits := by
  decide +kernel

/-! ### Witnesses: rehearsal, further clauses -/

/-- RehearseSwitches: units already there, a code of none, and a station left with a VOID ticket. -/
theorem test_w_rehearse_leaves :
    let screenOn := ran (.rehearse 1 1 1 (some 1)) .reset
    let laneOn := ran (.rehearse 1 0x11 1 none) .reset
    let left := ran (.rehearse 1 0x31 0 none) (bumped true)
    ((ran (.rehearse 2 1 1 (some 0)) screenOn).house.ctl 0).autoAnswer = false
      ∧ lastStatus (ran (.rehearse 2 0x11 1 none) laneOn) = some .ok
      ∧ lastStatus (ran (.rehearse 2 0x31 0 none) .reset) = some .ok
      ∧ screenOfCode 0x21 = none ∧ entryOfCode 0x21 = none ∧ stationOfCode 0x21 = none
      ∧ lastStatus (ran (.rehearse 2 0x21 1 none) .reset) = some .badValue
      ∧ ((bumped true).house.station 0).ticketsFine (bumped true).house.nextJoin
      ∧ (left.house.station 0).countState .void = 0 ∧ (left.house.station 0).pressWait = 40
      ∧ (left.house.station 0).cookingCount = 3
      ∧ lastStatus (ran (.rehearse 1 0x11 0 none) (laneOn.onLane 0 fun l => { l with state := .idle })) = some .badState := by
  unfold Station.ticketsFine; decide +kernel

/-- InjectionsAct: D and N of a pass, N and D of a show, and an early ENDED under both policies. -/
theorem test_w_inject_answers :
    let on (s : State) : State := s.onHouse (House.onCtl 0 fun c => { c with rehearsal := true })
    let passing := on (awaiting (attempt true .h) .reset)
    let show' (v : Verb) := on (awaiting (attempt false v) (showing 0 id))
    let counting (p : FaultPolicy) := on (showing 0 fun c =>
      { c with counting := .pulses, running := some { feature with policy := p } })
    (passing.house.line 0).waitingPlace = none
      ∧ ((ran (.injectAnswer 1 1 1 3) passing).house.ctl 0).halted = true
      ∧ ((ran (.injectAnswer 1 1 2 3) passing).house.line 0).fault.map LineFault.cause = some .refused
      ∧ ((ran (.injectAnswer 1 1 2 3) (show' .l)).house.ctl 0).state = .stopping
      ∧ ((ran (.injectAnswer 1 1 1 3) (show' .g)).house.ctl 0).generator = some 0
      ∧ (counting .runThrough).house.inEntry 0 .play feature 0
      ∧ ((ran (.injectEnded 1 1 7) (counting .stopOnFault)).house.ctl 0).state = .stopping
      ∧ ((ran (.injectEnded 1 1 7) (counting .runThrough)).house.ctl 0).record.current = some 1 := by
  unfold House.inEntry; decide +kernel

/-! ### Witnesses: further clauses of resets, shows and cue lines -/

/-- SiteResetTakesEffect and ScreenResetReturnsScreen: each reset joins the other that still waits (R66, R91), and an
announcement offered after both is cleared at the block start. -/
theorem test_w_resets_join :
    let staged (r : StagedReset) : State := State.reset.onChannel 0 fun c => { c with stagedReset := some r }
    let site (s : State) : State := { s with link := { s.link with resetTaken := true } }
    let reset := ran .siteResetTakesEffect (site (drained (ran (.screenReset 1 1) loaded)))
    let offered := drained (ran (.announce 2 1 4 [1]) reset)
    ((ran .siteResetTakesEffect (site (staged .screen))).channel 0).stagedReset = some .both
      ∧ ((ran .siteResetTakesEffect (site (staged .site))).channel 0).stagedReset = some .site
      ∧ ((ran .siteResetTakesEffect (site .reset)).channel 0).stagedReset = some .site
      ∧ ((ran (.screenReset 1 1) (staged .site)).channel 0).stagedReset = some .both
      ∧ ((ran (.screenReset 1 1) (staged .both)).channel 0).stagedReset = some .both
      ∧ (reset.channel 0).stagedReset = some .both ∧ (offered.house.queue 0).length = 1
      ∧ (ran .blockStart offered).house.queue 0 = [] ∧ (ran .blockStart offered).house.player 0 = .quiet
      ∧ (ran .blockStart offered).house.ordersFine ∧ offered.house.ordersFine := by
  unfold House.ordersFine; decide +kernel

/-- SiteResetTakesEffect: RAISE over an occupied and over a vacant clear loop, and the loops of a rehearsing lane. -/
theorem test_w_site_reset_lanes :
    let crossed (b : Bool) : State := { inFlight .raising (fun l => { l with clear := { l.clear with occupied := b } }) with
      link := { State.reset.link with resetTaken := true } }
    let rehearsed := (crossed true).onLane 0 fun l => { l with rehearsal := true, arrive := { l.arrive with raw := false } }
    ((ran .siteResetTakesEffect (crossed true)).lane 0).raise = true
      ∧ ((ran .siteResetTakesEffect (crossed false)).lane 0).raise = false
      ∧ ((ran .siteResetTakesEffect (crossed false)).lane 0).arrive.occupied = true
      ∧ (ran .siteResetTakesEffect rehearsed).lane 0 = .reset false false false false := by decide +kernel

/-- A show that waits in the pending slot is promoted where an entry ends, at the final H and by request (R9, R16): an
AT_TIME one whose time has come starts at once. -/
theorem test_w_promoted :
    let next (ms : Nat) : ShowDesc := { feature with showId := 6, mode := .atTime ⟨1, ms⟩ }
    let clocked (s : State) : State := s.onHouse fun h => { h with clock := ⟨1, 5000⟩, timeUnset := false }
    let held (d : ShowDesc) := clocked (showing 0 fun c => { c with state := .held, waiting := some d })
    let lastFrame (d : ShowDesc) := clocked (showing 3 fun c => { c with counting := .pulses, waiting := some d })
    let ending (d : ShowDesc) := clocked (awaiting (attempt false .h)
      (showing 3 fun c => { c with finalHalt := true, waiting := some d }))
    let done : Instr := .cueLineReceived 0 (answerLine 0x44 3)
    ((ran (.showRelease 1 1) (held (next 5001))).house.ctl 0).state = .armed
      ∧ ((ran (.showRelease 1 1) (held (next 5000))).house.ctl 0).state = .showing
      ∧ ((ran (.showRelease 1 1) (held (next 2000))).house.ctl 0).record.lateStart = 3
      ∧ (lastFrame feature).house.lastEntry feature 3 ∧ ((lastFrame feature).house.ctl 0).halted = true
      ∧ ((lastFrame feature).house.line 0).showHalt = false
      ∧ (ran (.framePulse 0) (lastFrame { feature with showId := 6 })).house.ctl 0 =
          { ShowCtl.reset with
            state := .armed, running := some { feature with showId := 6 }, record := .zeroed 6, halted := true
            countdown := ((ran (.framePulse 0) (lastFrame { feature with showId := 6 })).house.ctl 0).countdown }
      ∧ ((ran (.framePulse 0) (lastFrame (next 2000))).house.ctl 0).record.lateStart = 3
      ∧ ((ran (.framePulse 0) (lastFrame (next 5001))).house.ctl 0).state = .armed
      ∧ ((ending feature).house.ctl 0).finalHalt = true
      ∧ ((ran done (ending (next 5001))).house.ctl 0).state = .armed
      ∧ ((ran done (ending (next 2000))).house.ctl 0).record.lateStart = 3 := by
  unfold House.lastEntry; decide +kernel

/-- AttemptsMoveOn and AnswersEndAttempts: the single H of STOPPING unanswered, accepted, refused and garbled, at gain 0
and above it (R17 to R19). -/
theorem test_w_stopping_halt :
    let x : Exchange := { attempt false .h with allowed := 1 }
    let stopping (gp : Nat) (abort : Bool) : State :=
      (awaiting x (showing 0 fun c => { c with state := .stopping, stopAbort := abort, halted := false })).onHouse
        (House.onGain 0 fun g => { g with gp := gp })
    let line (cs : List CueChar) : Instr := .cueLineReceived 0 cs
    ((stopping 1 false).house.line 0).waitingPlace = none ∧ x.allowed ≤ x.used
      ∧ ((ran (.answerTimeout 0) (stopping 1 false)).house.ctl 0).stopHaltEnded = true
      ∧ faults (ran (.answerTimeout 0) (stopping 1 false)) = 1
      ∧ ((ran (.answerTimeout 0) (stopping 0 false)).house.ctl 0).state = .held
      ∧ ((ran (line (answerLine 0x44 3)) (stopping 1 false)).house.ctl 0).halted = true
      ∧ ((ran (line (answerLine 0x44 3)) (stopping 1 false)).house.ctl 0).stopHaltEnded = true
      ∧ ((ran (line (answerLine 0x44 3)) (stopping 0 true)).house.ctl 0).state = .idle
      ∧ ((ran (line (answerLine 0x4E 3)) (stopping 1 false)).house.ctl 0).halted = false
      ∧ ((ran (line (answerLine 0x4E 3)) (stopping 0 false)).house.ctl 0).record.firstCause = some .cueRefused
      ∧ ((ran (line [{ byte := 0x44 }, { byte := 0x0D }]) (stopping 0 false)).house.line 0).fault.map LineFault.cause =
          some .garbledLast := by decide +kernel

/-- A line of one letter is garbled. -/
theorem garbled_letter : garbledLine [{ byte := 0x44 }, { byte := 0x0D }] := by
  refine ⟨[{ byte := 0x44 }], rfl, by simp, by simp, .inr (.inr ?_)⟩
  rintro (⟨v, d, e, -⟩ | ⟨a, b, c, d, e, -⟩) <;> simp at e

/-- AnswersEndAttempts: garbled lines in AWAIT: one letter, a framing error, a character of 128, 17 characters; with an
attempt left, and at the last one of a pass and of a show's exchange. -/
theorem test_w_garbled :
    let pass := awaiting (attempt true .q) .reset
    let last (quiet pass : Bool) : Exchange := { attempt pass .l with quiet := quiet, allowed := 1 }
    let loud := awaiting (last false true) .reset
    let bad : List CueChar := [{ byte := 0x44 }, { byte := 0x0D }]
    let line (cs : List CueChar) (s : State) : State := ran (.cueLineReceived 0 cs) s
    (pass.house.line 0).rx = .blank ∧ ((line bad pass).house.line 0).unit = .backoff (attempt true .q) 300
      ∧ ((line [{ byte := 0x44, framingError := true }, { byte := 0x0D }] pass).house.line 0).unit =
          .backoff (attempt true .q) 300
      ∧ ((line (({ byte := 0x80 } : CueChar) :: answerLine 0x44 3) pass).house.line 0).unit = .backoff (attempt true .q) 300
      ∧ ((line (List.replicate 17 { byte := 0x44 } ++ [{ byte := 0x0D }]) pass).house.line 0).unit =
          .backoff (attempt true .q) 300
      ∧ ((line bad loud).house.line 0).fault = some ⟨.l, 7, none, .garbledLast, 1, ⟨0, 0⟩, false⟩
      ∧ (line bad loud).house.out.tx = .notice ⟨.passResult, ⟨0, 0⟩, [u8 1, u8 1, u16 7, u8 3, u8 1, u8 4]⟩
      ∧ (line bad loud).house.out.notices =
          [⟨.screenFault, ⟨0, 0⟩, [u8 1, u8 Cause.cueNoAnswer.code, u16 0, u8 0, u8 0]⟩]
      ∧ (line bad (awaiting (last true true) .reset)).house.out.notices = []
      ∧ ((line bad (awaiting (last false false) (showing 0 id))).house.ctl 0).record.firstCause = some .cueNoAnswer := by
  decide +kernel

/-! ### Witnesses: further clauses of sound and lanes -/

/-- SampleFrameMixes and BlockStartMovesGains: a peak rises to the programme sample and to the output sample, and stays
over smaller ones (R59); the level latched is the class level of the announcement held (R53). -/
theorem test_w_peaks_and_level :
    let s (peak : Nat) : State := State.reset.onChannel 0 fun c =>
      { c with inFrames := ⟨-8388608, 5⟩ :: List.replicate 47 ⟨0, 0⟩, peakIn := peak, peakOut := 9 }
    let z : StereoFrame := ⟨0, 0⟩
    let held := (playingLast (promo 1 .manual 3)).onHouse fun h =>
      { h with classes := tset h.classes AnnClass.manual.index ⟨3, 12345, 60⟩ }
    ((ran (.sampleFrame z z z z) (s 0)).channel 0).peakIn = 8388608
      ∧ ((ran (.sampleFrame z z z z) (s 8388609)).channel 0).peakIn = 8388609
      ∧ ((ran (.sampleFrame z z z z) (s 0)).channel 0).peakOut = 8388608
      ∧ ((ran (.sampleFrame z z z z) .reset).channel 0).peakIn = 0
      ∧ held.house.heldAnn 0 = some (promo 1 .manual 3) ∧ held.house.ordersFine
      ∧ ((ran .blockStart held).channel 0).level = 12345 := by
  unfold House.ordersFine; decide +kernel

/-- BlockEndJudgesBlock: SILENT on both sides of the threshold, and at 8,388,608 with the largest magnitude (R59, log
entry 41). -/
theorem test_w_silent :
    let block (peak threshold : Nat) : State := State.reset.onChannel 0 fun c =>
      { c with peakIn := peak, settings := { c.settings with silence := threshold } }
    ((ran .blockEnd (block 2047 2048)).channel 0).silent = true
      ∧ ((ran .blockEnd (block 2048 2048)).channel 0).silent = false
      ∧ ((ran .blockEnd (block 8388608 8388607)).channel 0).silent = false
      ∧ ((ran .blockEnd (block 8388608 8388608)).channel 0).silent = true
      ∧ ((ran .blockEnd (block 0 0)).channel 0).silent = false := by decide +kernel

/-- SoundTablesSet: roles out of range, the first role whose clip is not READY, and codes of no class. -/
theorem test_w_sound_tables_refused :
    let tens := List.replicate 10 2
    loaded.accepting ∧ lastStatus (ran (.callClipsSet 1 0 0 tens) loaded) = some .badValue
      ∧ lastStatus (ran (.callClipsSet 1 1 128 tens) loaded) = some .badValue
      ∧ lastStatus (ran (.callClipsSet 1 1 0 (List.replicate 9 2 ++ [0])) loaded) = some .badValue
      ∧ lastStatus (ran (.callClipsSet 1 127 0 tens) loaded) = some .notReady
      ∧ lastFields (ran (.callClipsSet 1 127 0 tens) loaded) = [u8 1]
      ∧ lastFields (ran (.callClipsSet 1 1 3 (List.replicate 10 4)) loaded) = [u8 2]
      ∧ lastFields (ran (.callClipsSet 1 1 0 (List.replicate 9 2 ++ [4])) loaded) = [u8 12]
      ∧ AnnClass.ofCode 6 = none ∧ lastStatus (ran (.classSetRow 1 6 1 0 10) loaded) = some .badValue
      ∧ lastStatus (ran (.routeSet 1 6 0) loaded) = some .badValue := by
  unfold State.accepting; decide +kernel

/-- AnnounceQueues to ALL: a route of a screen with room and a full one, of full ones alone; and its refusals. -/
theorem test_w_announce_all :
    let full := (List.range 12).map fun i => promo (i + 1) .safety 0
    let on (route : List Screen) : State := (queued full).onHouse fun h => { h with routes := tset h.routes 3 route }
    let all : Instr := .announce 1 0x0F 4 [1, 2]
    (on [0, 1]).accepting ∧ ([0, 1] : List Screen).Nodup ∧ (on [0, 1]).house.queuesFine
      ∧ (on [0, 1]).house.victim 0 ((on [0, 1]).house.classRow .manual).priority = none
      ∧ (on [0, 1]).house.nobodyExpires 0 ∧ (on [0, 1]).house.nobodyExpires 1
      ∧ lastStatus (ran all (on [0, 1])) = some .ok
      ∧ lastFields (ran all (on [0, 1])) = [u8 2, u8 1, u8 Status.full.code, u16 0, u8 2, u8 Status.ok.code, u16 13]
      ∧ lastFields (ran all (on [2, 3])) = [u8 2, u8 3, u8 0, u16 13, u8 4, u8 0, u16 14]
      ∧ ((ran all (on [2, 3])).house.clip 2).refs = 2
      ∧ lastStatus (ran all (on [0])) = some .full ∧ lastFields (ran all (on [0])) = [u8 1, u8 1, u8 Status.full.code, u16 0]
      ∧ lastStatus (ran (.announce 1 1 6 [1]) loaded) = some .badValue
      ∧ lastStatus (ran (.announce 1 5 4 [1]) loaded) = some .badValue
      ∧ lastStatus (ran (.announce 1 1 4 []) loaded) = some .badValue
      ∧ lastStatus (ran (.announce 1 1 4 (List.replicate 7 1)) loaded) = some .badValue
      ∧ lastFields (ran (.announce 1 1 4 [1, 3, 4]) loaded) = [u8 3] := by
  unfold State.accepting House.queuesFine House.nobodyExpires Station.ticketsFine; decide +kernel

/-- AnnouncementsEnd: the wait of an announcement is over and it expires, which calls the waiting order (R82, R152); an
announcement marked for removal is not found again (R84). -/
theorem test_w_expiry_calls :
    let waited := { promo 1 .manual 3 with wait := 3600000 }
    let s := callSite (fun o => { o with callWaiting := true }) [waited, promo 2 .manual 3]
    let marked := queued [{ promo 1 .manual 3 with removed := true }]
    s.house.findAnn 1 = some (0, waited) ∧ s.house.waitOver 0 waited = true
      ∧ (∀ b ∈ s.house.queue 0, b.id ≠ 1 → b.wait < (s.house.classRow b.cls).maxWait * 1000)
      ∧ ((ran (.announcementExpiry 1) s).house.queue 0).map Ann.cls = [.orderCall, .manual]
      ∧ ((ran (.announcementExpiry 1) s).house.order? 999).map Order.callWaiting = some false
      ∧ marked.house.findAnn 1 = some (0, { promo 1 .manual 3 with removed := true })
      ∧ lastStatus (ran (.announceCancel 1 1) marked) = some .notFound := by decide +kernel

/-- LanesOpenAndClose: the close-out of a lane (R135, R136): BALANCED, both findings, and the saturated mark. -/
theorem test_w_close_out :
    let idle (c : Counters) : State := atLane fun l => { l with state := .idle, counters := c }
    let zero := Counters.zero
    findingsOf zero = [u8 1, u8 1]
      ∧ findingsOf { zero with tailgates := 65535, unpaid := 65535 } = [u8 1, u8 2, u24 131070]
      ∧ findingsOf { zero with attendant := 1 } = [u8 1, u8 3, u16 1]
      ∧ findingsOf { zero with unpaid := 2, attendant := 3 } = [u8 2, u8 2, u24 2, u8 3, u16 3]
      ∧ (ran (.laneClose 1 0x11) (idle { zero with unpaid := 2, attendant := 65535, grants := 7 })).house.out.notices =
          [⟨.laneClosed, ⟨0, 0⟩,
            [u8 0x11, u8 2, u8 2, u24 2, u8 3, u16 65535, u8 1] ++ uTime (some ⟨0, 0⟩) ++ uTime none
              ++ [u16 0, u8 0, u16 7, u8 0, u16 0, u8 0, u16 65535, u8 1, u16 0, u8 0, u16 0, u8 0, u16 0, u8 0, u16 0, u8 0,
                  u16 0, u8 0, u16 2, u8 0, u16 0, u8 0]⟩] := by decide +kernel

/-- ArmsAndTimers and LoopsSettle: ARMDN into CLOSED with its close-out and into WAITING with its arrival, and a car that
leaves with a close pending (R107, R111, R112). -/
theorem test_w_lower_ends :
    let lowering (pending car : Bool) : State := atLane fun l =>
      { l with
        state := .lowering, closePending := pending, armTimer := some 9
        arrive := { l.arrive with raw := car, occupied := car } }
    let leaving := waitingCar.onLane 0 fun l => { l with closePending := true, arrive := { l.arrive with timer := some 0 } }
    let told (s : State) : List Subkind := (match s.house.out.tx with
      | .notice n => [n.kind]
      | _ => []) ++ s.house.out.notices.map Notice.kind
    ((ran (.armdnAsserted 0 true) (lowering true true)).lane 0).state = .closed
      ∧ told (ran (.armdnAsserted 0 true) (lowering true true)) = [.laneClosed]
      ∧ ((ran (.armdnAsserted 0 true) (lowering false true)).lane 0).state = .waiting
      ∧ ((ran (.armdnAsserted 0 true) (lowering false true)).lane 0).counters.arrivals = 1
      ∧ told (ran (.armdnAsserted 0 true) (lowering false true)) = [.vehicleWaiting]
      ∧ ((ran (.armdnAsserted 0 true) (lowering false false)).lane 0).state = .idle
      ∧ ((ran (.arriveSettles 0) leaving).lane 0).state = .closed
      ∧ ((ran (.arriveSettles 0) leaving).lane 0).counters.leftUnpaid = 1
      ∧ told (ran (.arriveSettles 0) leaving) = [.laneClosed] := by decide +kernel

end Tests
end Sys2Proof
end

