-- ==== Sys2Proof/Proofs/Clips.lean ====
section
/-! The clip records (chapter 4): how a record reads after a change, and CLIP FREE (R72). -/

set_option autoImplicit false

namespace Sys2Proof
namespace Machine

/-! ### The answer of a request's rule -/

/-- A rule that refuses and leaves the state as it is: nothing but the reply (R190). -/
theorem request_refused {kind tag : Nat} {rule : State → State × Answer} {s : State} {st : Status} {detail : List Field}
    (a : s.accepting) (e : rule s.taken = (s.taken, refuse st detail)) :
    request kind tag rule s = .next (s.turnedDown kind tag st detail) := by
  rw [request_taken kind tag rule s a, e]; rfl

/-- A rule on the house that refuses and leaves the house as it is: nothing but the reply (R190). -/
theorem houseRequest_refused {kind tag : Nat} {rule : House → House × Answer} {s : State} {st : Status}
    {detail : List Field} (a : s.accepting) (e : rule s.taken.house = (s.taken.house, refuse st detail)) :
    houseRequest kind tag rule s = .next (s.turnedDown kind tag st detail) := by
  rw [houseRequest_taken kind tag rule s a, e]; rfl

/-- A rule on the house that accepts: the house it leaves, and a reply OK with its fields (R190). -/
theorem houseRequest_accepted {kind tag : Nat} {rule : House → House × Answer} {s : State} {h : House}
    {fields : List Field} (a : s.accepting) (e : rule s.taken.house = (h, ok fields)) :
    houseRequest kind tag rule s = .next (s.replied h kind tag fields) := by
  rw [houseRequest_taken kind tag rule s a, e]; rfl

/-! ### Clip records after a change -/

theorem clipId_iff (id : Nat) : clipId id = true ↔ 1 ≤ id ∧ id ≤ 127 := decide_eq_true_iff

theorem House.clip_succ (h : House) (i : Nat) : h.clip (i + 1) = (h.clips[i]?).getD .blank := rfl

theorem House.setClip_succ (h : House) (i : Nat) (r : ClipRec) :
    h.setClip (i + 1) r = { h with clips := h.clips.setIfInBounds i r } := rfl

theorem House.clip_setClip_self (h : House) (id : Nat) (r : ClipRec) (range : clipId id = true) :
    (h.setClip id r).clip id = r := by
  obtain ⟨low, high⟩ := (clipId_iff id).mp range
  obtain ⟨i, rfl⟩ := Nat.exists_eq_add_of_le' low
  have bound : i < Config.clipRecords := high
  simp [House.setClip_succ, House.clip_succ, bound]

theorem House.clip_setClip_ne (h : House) (id j : Nat) (r : ClipRec) (ne : j ≠ id) :
    (h.setClip id r).clip j = h.clip j := by
  cases j with
  | zero => rfl
  | succ j =>
    cases id with
    | zero => rfl
    | succ i =>
      have apart : i ≠ j := fun e => ne (congrArg Nat.succ e.symm)
      simp [House.setClip_succ, House.clip_succ, Vector.getElem?_setIfInBounds_ne apart]

/-- The pages held are those of the records read by their ids (R49). -/
theorem House.mem_heldPages (h : House) (p : Nat) : p ∈ h.heldPages ↔ ∃ id, p ∈ (h.clip id).pages := by
  unfold House.heldPages
  rw [List.mem_flatMap]
  constructor
  · rintro ⟨r, held, page⟩
    obtain ⟨i, bound, rfl⟩ := Vector.mem_iff_getElem.mp (Vector.mem_toList_iff.mp held)
    exact ⟨i + 1, by simpa [House.clip_succ, bound] using page⟩
  · rintro ⟨id, page⟩
    cases id with
    | zero => exact absurd page List.not_mem_nil
    | succ i =>
      rw [House.clip_succ] at page
      cases found : h.clips[i]? with
      | none => rw [found] at page; exact absurd page List.not_mem_nil
      | some r =>
        rw [found] at page
        exact ⟨r, Vector.mem_toList_iff.mpr (Vector.mem_of_getElem? found), page⟩

/-- The pages of a record made EMPTY are free unless another record holds them. -/
theorem House.not_mem_heldPages_setClip_blank (h : House) (id p : Nat) (range : clipId id = true)
    (free : ∀ j, j ≠ id → p ∉ (h.clip j).pages) : p ∉ (h.setClip id .blank).heldPages := by
  rw [House.mem_heldPages]
  rintro ⟨j, page⟩
  by_cases same : j = id
  · rw [same, House.clip_setClip_self h id .blank range] at page
    exact absurd page List.not_mem_nil
  · rw [House.clip_setClip_ne h id j .blank same] at page
    exact free j same page

/-! ### CLIP FREE (R72) and the loads it ends (R70, R71) -/

/-- CLIP DATA and CLIP END find no load at an EMPTY record (R70, R71). -/
theorem ClipRec.loadCheck_of_empty {r : ClipRec} (empty : r.state = .empty) : r.loadCheck = some .notFound := by
  rw [ClipRec.loadCheck, empty]

theorem exec_clipFree (tag id : Nat) (s : State) : exec (.clipFree tag id) s = execClipFree tag id s := rfl

theorem exec_clipData (tag id offset : Nat) (samples : List Int) (s : State) :
    exec (.clipData tag id offset samples) s = execClipData tag id offset samples s := rfl

theorem exec_clipEnd (tag id crc : Nat) (s : State) : exec (.clipEnd tag id crc) s = execClipEnd tag id crc s := rfl

section
variable {tag id : Nat} {s : State} (a : s.accepting)
include a

theorem clipFree_of_not_clipId (range : ¬ clipId id = true) :
    exec (.clipFree tag id) s = .next (s.turnedDown 0x37 tag .badValue []) :=
  (exec_clipFree tag id s).trans (houseRequest_refused a (if_pos range))

theorem clipFree_of_empty (range : clipId id = true) (empty : (s.house.clip id).state = .empty) :
    exec (.clipFree tag id) s = .next (s.turnedDown 0x37 tag .notFound []) :=
  (exec_clipFree tag id s).trans <| houseRequest_refused a <|
    (if_neg (not_not_intro range)).trans (if_pos empty)

theorem clipFree_of_referenced (range : clipId id = true) (used : (s.house.clip id).state ≠ .empty)
    (refs : 0 < (s.house.clip id).refs) :
    exec (.clipFree tag id) s = .next (s.turnedDown 0x37 tag .inUse [u32 (s.house.clip id).refs]) :=
  (exec_clipFree tag id s).trans <| houseRequest_refused a <|
    (if_neg (not_not_intro range)).trans <| (if_neg used).trans (if_pos refs)

theorem clipFree_of_unreferenced (range : clipId id = true) (used : (s.house.clip id).state ≠ .empty)
    (refs : (s.house.clip id).refs = 0) :
    exec (.clipFree tag id) s = .next (s.replied (s.taken.house.setClip id .blank) 0x37 tag []) :=
  (exec_clipFree tag id s).trans <| houseRequest_accepted a <|
    (if_neg (not_not_intro range)).trans <| (if_neg used).trans (if_neg (Nat.not_lt.mpr refs.le))

theorem clipData_of_empty {offset : Nat} {samples : List Int} (range : clipId id = true)
    (empty : (s.house.clip id).state = .empty) (nonempty : samples ≠ []) (fits : samples.length ≤ 112) :
    exec (.clipData tag id offset samples) s = .next (s.turnedDown 0x35 tag .notFound []) := by
  have check : (s.taken.house.clip id).loadCheck = some .notFound := ClipRec.loadCheck_of_empty empty
  rw [exec_clipData]
  refine request_refused a ?_
  simp [State.clipData, check, range, nonempty, Nat.not_lt.mpr fits]

theorem clipEnd_of_empty {crc : Nat} (range : clipId id = true) (empty : (s.house.clip id).state = .empty) :
    exec (.clipEnd tag id crc) s = .next (s.turnedDown 0x36 tag .notFound []) := by
  have check : (s.taken.house.clip id).loadCheck = some .notFound := ClipRec.loadCheck_of_empty empty
  rw [exec_clipEnd]
  refine request_refused a ?_
  simp [State.clipEnd, check, range]

end

/-- Settles O42: the checks of R72 in their order, each one branch of the rule; an accepted CLIP FREE is
`House.setClip id .blank`, whose effect on the records and the page map is read off the lemmas above. -/
theorem clipFreeEmptiesRecord : Obligations.ClipFreeEmptiesRecord := by
  intro tag id s a
  refine ⟨fun out => ?_, fun low high => ?_⟩
  · have range : ¬ clipId id = true := by rw [clipId_iff]; omega
    exact clipFree_of_not_clipId a range
  · have range : clipId id = true := (clipId_iff id).mpr ⟨low, high⟩
    refine ⟨clipFree_of_empty a range, fun used => ⟨clipFree_of_referenced a range used, fun refs => ?_⟩⟩
    refine ⟨s.taken.house.setClip id .blank, clipFree_of_unreferenced a range used refs, House.setClip_eq .., ?record,
      ?others, ?pages, ?later⟩
    case record => exact House.clip_setClip_self _ id .blank range
    case others => exact fun j ne => House.clip_setClip_ne s.taken.house id j .blank ne
    case pages => exact fun p _ free => House.not_mem_heldPages_setClip_blank s.taken.house id p range free
    case later =>
      intro u tag2 offset crc samples accepts blank nonempty fits
      have empty : (u.house.clip id).state = .empty := congrArg ClipRec.state blank
      exact ⟨clipData_of_empty accepts range empty nonempty fits, clipEnd_of_empty accepts range empty⟩

end Machine
end Sys2Proof
end

