-- ==== Sys2Proof/Proofs/Identity.lean ====
section
/-! The identity of the part on the site link (chapter 11): HELLO (R199). -/

set_option autoImplicit false

namespace Sys2Proof
namespace Machine

/-- A read that accepts: a reply OK with its fields, and nothing else (R190). -/
theorem readRequest_accepted {kind tag : Nat} {answer : State → Answer} {s : State} {fields : List Field}
    (a : s.accepting) (e : answer s.taken = ok fields) :
    readRequest kind tag answer s = .next (s.taken.answered kind tag .ok fields) := by
  rw [readRequest_taken kind tag answer s a, e]; rfl

/-- The taking of a request keeps the link rate in use (R185, R187). -/
@[simp] theorem State.taken_rate (s : State) : s.taken.link.rate = s.link.rate := rfl

theorem exec_hello (tag : Nat) (s : State) : exec (.hello tag) s = execHello tag s := rfl

/-- Settles O14: HELLO is a read (R199), so its reply is all it leaves; the one field that is not a constant of the
part, the rate in use, is read in `s.taken`, which has the rate of `s`. -/
theorem helloAnswersIdentity : Obligations.HelloAnswersIdentity := by
  intro tag s a
  rw [exec_hello]
  refine readRequest_accepted a ?_
  rw [State.taken_rate]

end Machine
end Sys2Proof
end

