-- ==== Sys2Proof/Proofs/Steps.lean ====
section
/-! What every step keeps: that it completes, the bounds of the house, the audio state and the clock. A command other than
TIME SET and power-on reset is a `State.Run`, and the millisecond is `State.TickKept`; the two commands left are looked at
here. -/

set_option autoImplicit false

namespace Sys2Proof
namespace Machine

/-! ### The step -/

theorem step_of_pending {c : Instr} {rest : List Instr} {s : State} (e : s.pending = c :: rest) :
    step s = exec c { s with pending := rest } := by
  simp only [step, e]

theorem step_of_idle {s : State} (e : s.pending = []) : step s = .next s.tick := by
  simp only [step, e]

/-- A property that no queue of commands enters is kept by every step, if every command and every tick keeps it. -/
theorem step_keeps {P : State → Prop} (pending : ∀ s q, P s → P { s with pending := q })
    (command : ∀ c s t, exec c s = .next t → P s → P t) (tick : ∀ s, P s → P s.tick) {s t : State}
    (e : step s = .next t) (p : P s) : P t := by
  cases queue : s.pending with
  | nil =>
    have same : s.tick = t := Host.Outcome.next.inj ((step_of_idle queue).symm.trans e)
    exact same ▸ tick s p
  | cons c rest =>
    rw [step_of_pending queue] at e
    exact command c _ t e (pending s rest p)

/-- Settles O1, by the definition of the step. -/
theorem stepRunsFrontCommand : Obligations.StepRunsFrontCommand :=
  fun _ _ _ e => step_of_pending e

/-! ### Every command answers -/

theorem siteStatus_completes (tag clear : Nat) (s : State) : ∃ t, execSiteStatus tag clear s = .next t := by
  unfold execSiteStatus
  split <;> exact ⟨_, rfl⟩

theorem unknownKind_completes (kind tag : Nat) (body : List Nat) (s : State) :
    ∃ t, execUnknownKind kind tag body s = .next t := by
  unfold execUnknownKind
  split
  · exact ⟨_, rfl⟩
  · split <;> exact ⟨_, rfl⟩

theorem receiveFrameDiscarded_completes (bytes : List Nat) (s : State) :
    ∃ t, execReceiveFrameDiscarded bytes s = .next t := by
  unfold execReceiveFrameDiscarded
  split <;> exact ⟨_, rfl⟩

theorem frameGapTimeout_completes (s : State) : ∃ t, execFrameGapTimeout s = .next t := by
  unfold execFrameGapTimeout
  split <;> exact ⟨_, rfl⟩

theorem levelRead_completes (tag screen clear : Nat) (s : State) : ∃ t, execLevelRead tag screen clear s = .next t := by
  unfold execLevelRead
  split
  · split <;> exact ⟨_, rfl⟩
  · exact ⟨_, rfl⟩

theorem laneSet_completes (tag lane map debounce arm pass : Nat) (s : State) :
    ∃ t, execLaneSet tag lane map debounce arm pass s = .next t := by
  unfold execLaneSet
  split <;> exact ⟨_, rfl⟩

/-- No command stops the machine. -/
theorem exec_completes (c : Instr) (s : State) : ∃ t, exec c s = .next t := by
  cases c with
  | siteStatus tag clear => exact siteStatus_completes tag clear s
  | unknownKind kind tag body => exact unknownKind_completes kind tag body s
  | receiveFrameDiscarded bytes => exact receiveFrameDiscarded_completes bytes s
  | frameGapTimeout => exact frameGapTimeout_completes s
  | levelRead tag screen clear => exact levelRead_completes tag screen clear s
  | laneSet tag lane map debounce arm pass => exact laneSet_completes tag lane map debounce arm pass s
  | _ => exact ⟨_, rfl⟩

/-! ### TIME SET -/

theorem House.setClock_bounded (t : SiteTime) (h : House) (b : h.bounded) : (h.setClock t).bounded := by
  have clocked : House.bounded { h with clock := t, timeUnset := false } :=
    b.of_eq rfl rfl rfl rfl rfl rfl rfl rfl rfl
  refine House.Stage.fine ?_ clocked
  exact .trans (House.foldl_stage _ (fun h n => House.evalStart_stage n h) _ _)
    (.trans (House.foldl_stage _ (fun h n => House.refreshAdmission_stage n h) _ _) (House.clockDue_stage _))

theorem House.setClock_kept (t : SiteTime) (h : House) :
    House.StageKept { h with clock := t, timeUnset := false } (h.setClock t) :=
  House.Stage.kept <| .trans (House.foldl_stage _ (fun h n => House.evalStart_stage n h) _ _)
    (.trans (House.foldl_stage _ (fun h n => House.refreshAdmission_stage n h) _ _) (House.clockDue_stage _))

/-- What TIME SET keeps: a property of the state that neither the link nor the transmitter enters, and that a change of
the clock keeps. -/
theorem execTimeSet_keeps {P : State → Prop} (link : ∀ s l, P s → P { s with link := l })
    (out : ∀ s : State, P s → P (s.onHouse fun h => { h with out := h.out.startReply }))
    (clock : ∀ (s : State) (t : SiteTime), P s → P (s.onHouse (House.setClock t)))
    {tag day ms : Nat} {s t : State} (e : execTimeSet tag day ms s = .next t) (p : P s) : P t := by
  unfold execTimeSet houseRequest request at e
  cases e
  refine State.receive_keeps P link out _ _ _ _ (fun s p => ?_) (fun _ p => p) s p
  unfold onHouseRule
  dsimp only
  split
  · exact p
  · exact clock s _ p

/-! ### Power-on reset -/

theorem House.reset_bounded : House.reset.bounded := by
  refine ⟨?_, ⟨fun n => ?_, fun st => ?_⟩, ⟨fun n => ?_, defaultPolicy_duck⟩, fun n => ?_, ?_⟩
  · exact ⟨Nat.zero_le _, List.nodup_nil, fun o m => absurd m List.not_mem_nil, Nat.le_refl 1, (by decide : 1 ≤ 999)⟩
  · show (tget (Vector.replicate 4 ([] : List Ann)) n).length ≤ 12
    simp
  · show (tget (Vector.replicate 4 Station.reset) st).ticketsFine 1
    rw [tget_replicate]
    exact ⟨Nat.zero_le _, List.nodup_nil, fun t m => absurd m List.not_mem_nil⟩
  · show (tget (Vector.replicate 4 Gain.reset) n).gp ≤ 32768
    simp [Gain.reset]
  · show (tget (Vector.replicate 4 CueLine.reset) n).bounded
    rw [tget_replicate]
    exact CueLine.siteReset_bounded .reset
  · show Outbox.reset.bounded
    unfold Outbox.bounded; decide

theorem powerOn_bounded (b1 b0 : Bool) (s : State) : (s.powerOn b1 b0).house.bounded := by
  obtain ⟨orders, queues, gains, _, out⟩ := House.reset_bounded
  refine ⟨orders, queues, gains, fun n => ?_, out⟩
  show (tget (s.house.lines.map CueLine.siteReset) n).bounded
  rw [tget_map]
  exact CueLine.siteReset_bounded _

theorem Channel.reset_residues : Channel.reset.residuesFine := by
  unfold Channel.residuesFine; decide

theorem powerOn_residues (b1 b0 : Bool) (s : State) (n : Screen) : ((s.powerOn b1 b0).channel n).residuesFine := by
  show (tget (Vector.replicate 4 Channel.reset) n).residuesFine
  rw [tget_replicate]
  exact Channel.reset_residues

/-! ### What every command keeps -/

/-- What a step leaves alone or within its bounds, the clock apart. -/
structure State.StepKept (s t : State) : Prop where
  bounded : s.house.bounded → t.house.bounded
  residues : (∀ n, (s.channel n).residuesFine) → ∀ n, (t.channel n).residuesFine
  dram : s.dram.wf = true → t.dram.wf = true

theorem exec_pending {c : Instr} {s t : State} (e : exec c s = .next t) : t.pending = s.pending := by
  cases c with
  | powerOnReset b1 b0 => cases e; rfl
  | timeSet tag day ms =>
    exact execTimeSet_keeps (P := fun u => u.pending = s.pending) (fun _ _ p => p) (fun _ p => p) (fun _ _ p => p) e rfl
  | _ => exact (exec_run _ s t e (fun _ _ _ => nofun) (fun _ _ => nofun)).kept.pending

theorem exec_stepKept {c : Instr} {s t : State} (e : exec c s = .next t) : State.StepKept s t := by
  cases c with
  | powerOnReset b1 b0 =>
    cases e
    exact ⟨fun _ => powerOn_bounded b1 b0 s, fun _ => powerOn_residues b1 b0 s, fun _ => rfl⟩
  | timeSet tag day ms =>
    refine ⟨fun b => ?_, fun r => ?_, fun d => ?_⟩
    · refine execTimeSet_keeps (P := fun u => u.house.bounded) (fun _ _ p => p) ?_ ?_ e b
      · exact fun _ ⟨p1, p2, p3, p4, p5⟩ => ⟨p1, p2, p3, p4, Outbox.startReply_bounded _ p5⟩
      · exact fun _ _ p => House.setClock_bounded _ _ p
    · exact execTimeSet_keeps (P := fun u => ∀ n, (u.channel n).residuesFine) (fun _ _ p => p) (fun _ p => p)
        (fun _ _ p => p) e r
    · exact execTimeSet_keeps (P := fun u => u.dram.wf = true) (fun _ _ p => p) (fun _ p => p) (fun _ _ p => p) e d
  | _ =>
    have k := (exec_run _ s t e (fun _ _ _ => nofun) (fun _ _ => nofun)).kept
    exact ⟨k.bounded, k.residues, k.dram⟩

/-- Settles O3: no command stops the machine, and `pending` is no part of what a command changes. -/
theorem everyCommandCompletes : Obligations.EveryCommandCompletes := by
  intro c s
  obtain ⟨t, e⟩ := exec_completes c s
  exact ⟨t, e, exec_pending e⟩

/-- Settles O4, command by command (`exec_stepKept`) and for the millisecond, which touches neither. -/
theorem stepKeepsAudioState : Obligations.StepKeepsAudioState := by
  intro s t e
  constructor
  · refine step_keeps (P := fun u => u.dram.wf = true) (fun _ _ p => p) (fun c s t e => (exec_stepKept e).dram) ?_ e
    intro s d
    rw [(State.tick_kept s).dram]
    exact d
  · refine step_keeps (P := fun u => ∀ n, (u.channel n).residuesFine) (fun _ _ p => p)
      (fun c s t e => (exec_stepKept e).residues) ?_ e
    intro s r n
    rw [State.channel, (State.tick_kept s).channels]
    exact r n

/-- Settles O6, command by command (`exec_stepKept`) and for the millisecond (`State.tick_kept`). -/
theorem stepKeepsHouseBounds : Obligations.StepKeepsHouseBounds := fun _ _ b e =>
  step_keeps (P := fun u => u.house.bounded) (fun _ _ p => p) (fun _ _ _ e => (exec_stepKept e).bounded)
    (fun s => (State.tick_kept s).bounded) e b

/-! ### The clock (R198) -/

section
variable {tag day ms : Nat} {s : State} (a : s.accepting)
include a

theorem timeSet_in_range (d : day < 65536) (m : ms < 86400000) :
    exec (.timeSet tag day ms) s =
      .next (s.replied (s.taken.house.setClock { day := day, ms := ms }) 0x13 tag (uTime (some s.house.clock))) :=
  houseRequest_accepted a <| if_neg (not_or.mpr ⟨Nat.not_le.mpr m, Nat.not_le.mpr d⟩)

theorem timeSet_out_of_range (out : 65536 ≤ day ∨ 86400000 ≤ ms) :
    exec (.timeSet tag day ms) s = .next (s.turnedDown 0x13 tag .badValue []) :=
  houseRequest_refused a (if_pos out.symm)

end

/-- The transmitter's taking of a reply keeps the notice mask (R192, R194). -/
@[simp] theorem Outbox.startReply_mask (o : Outbox) : o.startReply.mask = o.mask := by
  unfold Outbox.startReply
  split <;> rfl

theorem House.StageKept.settings {h h' : House} (k : House.StageKept h h') : h'.settingsKept h :=
  ⟨k.mask, k.cues, k.policy, k.maxLaneHold, k.lateLimit, k.callClips, k.classes, k.gap, k.routes, k.nextNumber,
    k.nextSequence, k.orderPolicy, k.items⟩

theorem House.settingsKept.trans {a b c : House} (x : c.settingsKept b) (y : b.settingsKept a) : c.settingsKept a :=
  ⟨x.mask.trans y.mask, x.cues.trans y.cues, x.policy.trans y.policy, x.maxLaneHold.trans y.maxLaneHold,
    x.lateLimit.trans y.lateLimit, x.callClips.trans y.callClips, x.classes.trans y.classes, x.gap.trans y.gap,
    x.routes.trans y.routes, x.nextNumber.trans y.nextNumber, x.nextSequence.trans y.nextSequence,
    x.orderPolicy.trans y.orderPolicy, x.items.trans y.items⟩

theorem House.settingsKept.refl (h : House) : h.settingsKept h :=
  ⟨rfl, rfl, rfl, rfl, rfl, rfl, rfl, rfl, rfl, rfl, rfl, rfl, rfl⟩

/-- The taking of a request keeps the settings of the house. -/
theorem State.taken_settings (s : State) : s.taken.house.settingsKept s.house :=
  ⟨Outbox.startReply_mask _, rfl, rfl, rfl, rfl, rfl, rfl, rfl, rfl, rfl, rfl, rfl, rfl⟩

theorem House.setClock_settings (t : SiteTime) (h : House) : (h.setClock t).settingsKept h :=
  (House.setClock_kept t h).settings.trans ⟨rfl, rfl, rfl, rfl, rfl, rfl, rfl, rfl, rfl, rfl, rfl, rfl, rfl⟩

/-- Settles O16: TIME SET by its range check, every other command by `exec_run`. -/
theorem onlyTimeSetSetsClock : Obligations.OnlyTimeSetSetsClock := by
  refine ⟨fun tag day ms s a => ⟨fun d m => ?_, timeSet_out_of_range a⟩, fun c s t e notTime notPower => ?_⟩
  · have k := House.setClock_kept { day := day, ms := ms } s.taken.house
    exact ⟨_, timeSet_in_range a d m, k.clock, k.timeUnset, (House.setClock_settings _ _).trans s.taken_settings⟩
  · have k := (exec_run c s t e notTime notPower).kept
    exact ⟨k.clock, k.timeUnset⟩

end Machine
end Sys2Proof
end

