-- ==== Sys2Proof/Proofs/Balance.lean ====
section
/-! The balance of grants of the entry lanes (R97, R132) and the bounds of the receive buffer (R189): what every
operation of the lanes does to a lane's grant and counters, and that every command and the millisecond keep both. -/

set_option autoImplicit false

namespace Sys2Proof
namespace Machine

/-! ### What drives an arm leaves alone (R96) -/

@[simp] theorem EntryLane.setRaise_state (l : EntryLane) (b : Bool) : (l.setRaise b).state = l.state := by
  unfold EntryLane.setRaise; split <;> (try split) <;> rfl
@[simp] theorem EntryLane.setRaise_grant (l : EntryLane) (b : Bool) : (l.setRaise b).grant = l.grant := by
  unfold EntryLane.setRaise; split <;> (try split) <;> rfl
@[simp] theorem EntryLane.setRaise_counters (l : EntryLane) (b : Bool) : (l.setRaise b).counters = l.counters := by
  unfold EntryLane.setRaise; split <;> (try split) <;> rfl

/-- Driving the arm changes no more than the raise output and the arm timer. -/
theorem EntryLane.drive_cases (l : EntryLane) :
    l.drive = l ∨ (∃ b, l.drive = l.setRaise b) ∨ ∃ t, l.drive = { l.setRaise false with armTimer := t } := by
  unfold EntryLane.drive
  split
  · exact .inr (.inl ⟨true, rfl⟩)
  · split
    · exact .inl rfl
    · dsimp only
      split
      · exact .inr (.inr ⟨_, rfl⟩)
      · exact .inr (.inl ⟨false, rfl⟩)

@[simp] theorem EntryLane.drive_state (l : EntryLane) : l.drive.state = l.state := by
  obtain e | ⟨b, e⟩ | ⟨t, e⟩ := l.drive_cases <;> simp [e]
@[simp] theorem EntryLane.drive_grant (l : EntryLane) : l.drive.grant = l.grant := by
  obtain e | ⟨b, e⟩ | ⟨t, e⟩ := l.drive_cases <;> simp [e]
@[simp] theorem EntryLane.drive_counters (l : EntryLane) : l.drive.counters = l.counters := by
  obtain e | ⟨b, e⟩ | ⟨t, e⟩ := l.drive_cases <;> simp [e]

/-! ### Balance of one lane -/

/-- The counters of two lanes agree in the five of R132. -/
structure Counters.SameGrants (c d : Counters) : Prop where
  grants : d.grants = c.grants
  admitted : d.admitted = c.admitted
  attendant : d.attendant = c.attendant
  backouts : d.backouts = c.backouts
  lapses : d.lapses = c.lapses

theorem Counters.SameGrants.rfl' (c : Counters) : Counters.SameGrants c c := ⟨rfl, rfl, rfl, rfl, rfl⟩

/-- A lane that holds a grant as before, under counters that agree in the five of R132, stays balanced. -/
theorem EntryLane.balanced.of_same {l m : EntryLane} (b : l.balanced) (grant : m.grant.isSome = l.grant.isSome)
    (state : (m.state = .raising ∨ m.state = .passing) ↔ (l.state = .raising ∨ l.state = .passing))
    (counters : Counters.SameGrants l.counters m.counters) : m.balanced := by
  obtain ⟨fine, exact'⟩ := b
  obtain ⟨c1, c2, c3, c4, c5⟩ := counters
  constructor
  · rw [EntryLane.grantFine, grant, state]; exact fine
  · intro x
    have y : l.counters.exact := by
      unfold Counters.exact at *
      rw [c1, c2, c3, c4, c5] at x
      exact x
    have z := exact' y
    unfold EntryLane.settled at *
    rw [c1, c2, c3, c4, c5, grant]
    exact z

/-- A counter that has risen and is below its limit has risen by 1 (R130). -/
theorem rise_of_lt {n : Nat} (lt : rise n < 65535) : n < 65535 ∧ rise n = n + 1 := by
  unfold rise bumpTo at *
  split at lt
  · next below => exact ⟨below, if_pos below⟩
  · exact absurd lt (Nat.lt_irrefl _)

/-- One of the four outcomes of a grant is counted (R132). -/
inductive Counters.Settles (c : Counters) : Counters → Prop where
  | admitted : Settles c { c with admitted := rise c.admitted }
  | attendant : Settles c { c with attendant := rise c.attendant }
  | backout : Settles c { c with backouts := rise c.backouts }
  | lapse : Settles c { c with lapses := rise c.lapses }

/-- A grant that leaves its lane with one of its four outcomes counted keeps the balance. -/
theorem EntryLane.balanced.settle {l m : EntryLane} (b : l.balanced) (some : l.grant.isSome = true)
    (none : m.grant = none) (state : ¬ (m.state = .raising ∨ m.state = .passing)) {c : Counters}
    (settles : Counters.Settles l.counters c) (same : Counters.SameGrants c m.counters) : m.balanced := by
  obtain ⟨_, exact'⟩ := b
  obtain ⟨c1, c2, c3, c4, c5⟩ := same
  constructor
  · rw [EntryLane.grantFine, none]; simpa using state
  · intro x
    unfold Counters.exact at x exact'
    unfold EntryLane.settled at *
    rw [c1, c2, c3, c4, c5] at *
    rw [some] at exact'
    rw [none]
    obtain ⟨x1, x2, x3, x4, x5⟩ := x
    simp only [Option.isSome_none, Bool.false_eq_true, if_true, if_false] at *
    cases settles with
    | admitted =>
      obtain ⟨lt, e⟩ := rise_of_lt x2
      have z := exact' ⟨x1, lt, x3, x4, x5⟩
      simp only at *
      omega
    | attendant =>
      obtain ⟨lt, e⟩ := rise_of_lt x3
      have z := exact' ⟨x1, x2, lt, x4, x5⟩
      simp only at *
      omega
    | backout =>
      obtain ⟨lt, e⟩ := rise_of_lt x4
      have z := exact' ⟨x1, x2, x3, lt, x5⟩
      simp only at *
      omega
    | lapse =>
      obtain ⟨lt, e⟩ := rise_of_lt x5
      have z := exact' ⟨x1, x2, x3, x4, lt⟩
      simp only at *
      omega

/-- A grant taken and counted keeps the balance (R101). -/
theorem EntryLane.balanced.grant {l m : EntryLane} (b : l.balanced) (none : l.grant = none) (some : m.grant.isSome = true)
    (state : m.state = .raising) (counters : m.counters = { l.counters with grants := rise l.counters.grants }) :
    m.balanced := by
  obtain ⟨_, exact'⟩ := b
  constructor
  · rw [EntryLane.grantFine, state]; simp [some]
  · intro x
    unfold Counters.exact at x exact'
    unfold EntryLane.settled at *
    rw [counters] at *
    rw [none] at exact'
    rw [some]
    obtain ⟨x1, x2, x3, x4, x5⟩ := x
    obtain ⟨lt, e⟩ := rise_of_lt x1
    have z := exact' ⟨lt, x2, x3, x4, x5⟩
    simp only [Option.isSome_none, Bool.false_eq_true, if_true, if_false] at *
    omega

/-- A lane outside RAISING and PASSING, with its counters cleared, is balanced. -/
theorem EntryLane.balanced_of_zero {l : EntryLane} (none : l.grant = none)
    (state : ¬ (l.state = .raising ∨ l.state = .passing)) (t : Option SiteTime)
    (counters : l.counters = { Counters.zero with clearedAt := t }) : l.balanced := by
  constructor
  · rw [EntryLane.grantFine, none]; simpa using state
  · intro _
    unfold EntryLane.settled
    rw [counters, none]
    rfl

theorem EntryLane.balanced.no_grant {l : EntryLane} (b : l.balanced) (state : ¬ (l.state = .raising ∨ l.state = .passing)) :
    l.grant = none :=
  Option.not_isSome_iff_eq_none.mp fun some => state (b.1.mp some)

theorem EntryLane.balanced.has_grant {l : EntryLane} (b : l.balanced) (state : l.state = .raising ∨ l.state = .passing) :
    l.grant.isSome = true := b.1.mpr state

/-! ### The lanes after an operation -/

@[simp] theorem State.reportBacklog_lane (s : State) (j : EntryId) : s.reportBacklog.lane j = s.lane j := by
  rw [State.reportBacklog, State.onHouse_lane]
theorem State.moveLane_lane_any (k j : EntryId) (f : EntryLane → EntryLane) (s : State) :
    (s.moveLane k f).lane j = if j = k then f (s.lane j) else s.lane j := by
  rw [State.moveLane, State.reportBacklog_lane, State.onLane_lane_any]
@[simp] theorem State.moveLane_lane (k : EntryId) (f : EntryLane → EntryLane) (s : State) :
    (s.moveLane k f).lane k = f (s.lane k) := by
  rw [State.moveLane, State.reportBacklog_lane, State.onLane_lane]
@[simp] theorem State.count_lane (k : EntryId) (f : Counters → Counters) (s : State) :
    (s.count k f).lane k = { s.lane k with counters := f (s.lane k).counters } := State.onLane_lane k _ s
theorem State.count_lane_ne {k j : EntryId} (f : Counters → Counters) (s : State) (ne : j ≠ k) :
    (s.count k f).lane j = s.lane j := State.onLane_lane_ne k j _ s ne
@[simp] theorem State.enterVehicle_lane (k j : EntryId) (s : State) : (s.enterVehicle k).lane j = s.lane j := by
  unfold State.enterVehicle
  split <;> rfl

/-- Every entry lane is balanced. -/
def State.balanced (s : State) : Prop := ∀ k, (s.lane k).balanced

/-- A change of one lane that keeps its balance keeps that of every lane. -/
theorem State.balanced.of_lane {s t : State} (b : s.balanced) (k : EntryId) (others : ∀ j, j ≠ k → t.lane j = s.lane j)
    (own : (t.lane k).balanced) : t.balanced := by
  intro j
  by_cases e : j = k
  · rw [e]; exact own
  · rw [others j e]; exact b j

theorem State.balanced.onLane {s : State} (b : s.balanced) (k : EntryId) {f : EntryLane → EntryLane}
    (own : (f (s.lane k)).balanced) : (s.onLane k f).balanced :=
  b.of_lane k (fun j ne => State.onLane_lane_ne k j f s ne) (by rw [State.onLane_lane]; exact own)

theorem State.balanced.moveLane {s : State} (b : s.balanced) (k : EntryId) {f : EntryLane → EntryLane}
    (own : (f (s.lane k)).balanced) : (s.moveLane k f).balanced :=
  b.of_lane k (fun j ne => by rw [State.moveLane_lane_any, if_neg ne]) (by rw [State.moveLane_lane]; exact own)

theorem State.balanced.onHouse {s : State} (b : s.balanced) (f : House → House) : (s.onHouse f).balanced := b

/-- An event that is none of R132's five is counted. -/
theorem State.balanced.count {s : State} (b : s.balanced) (k : EntryId) {f : Counters → Counters}
    (same : ∀ c, Counters.SameGrants c (f c)) : (s.count k f).balanced :=
  b.onLane k ((b k).of_same rfl Iff.rfl (same _))

theorem State.balanced.enterVehicle {s : State} (b : s.balanced) (k : EntryId) : (s.enterVehicle k).balanced := by
  intro j; rw [State.enterVehicle_lane]; exact b j

/-- A lane without a grant moves to a state other than RAISING and PASSING. -/
theorem State.balanced.moveIdle {s : State} (b : s.balanced) (k : EntryId) {f : EntryLane → EntryLane}
    (empty : (s.lane k).grant = none) (grant : (f (s.lane k)).grant = none)
    (counters : (f (s.lane k)).counters = (s.lane k).counters)
    (state : ¬ ((f (s.lane k)).state = .raising ∨ (f (s.lane k)).state = .passing)) : (s.moveLane k f).balanced := by
  refine b.moveLane k ((b k).of_same (by rw [grant, empty]) ?_ (by rw [counters]; exact .rfl' _))
  have before : ¬ ((s.lane k).state = .raising ∨ (s.lane k).state = .passing) := fun x => by
    have := (b k).has_grant x
    rw [empty] at this
    exact absurd this (by decide)
  exact ⟨fun x => absurd x state, fun x => absurd x before⟩

@[simp] theorem State.closeLane_lane (k : EntryId) (s : State) : (s.closeLane k).lane k =
    { s.lane k with state := .closed, closePending := false, refused := false, armTimer := none, passTimer := none } := by
  rw [State.closeLane, State.onHouse_lane, State.moveLane_lane]

theorem State.balanced.closeLane {s : State} (b : s.balanced) (k : EntryId) (empty : (s.lane k).grant = none) :
    (s.closeLane k).balanced := by
  unfold State.closeLane
  exact State.balanced.onHouse (b.moveIdle k empty empty rfl (by simp)) _

theorem State.balanced.arrival {s : State} (b : s.balanced) (k : EntryId) (empty : (s.lane k).grant = none) :
    (s.arrival k).balanced := by
  have counted : (s.count k fun c => { c with arrivals := rise c.arrivals }).balanced :=
    b.count k fun c => ⟨rfl, rfl, rfl, rfl, rfl⟩
  refine State.balanced.onHouse (counted.moveIdle k ?_ ?_ rfl ?_) _
  · rw [State.count_lane]; exact empty
  · rw [State.count_lane]; exact empty
  · simp

theorem State.balanced.reachIdle {s : State} (b : s.balanced) (k : EntryId) (empty : (s.lane k).grant = none) :
    (s.reachIdle k).balanced := by
  unfold State.reachIdle
  have moved : (s.moveLane k fun l =>
      { l with state := .idle, refused := false, armTimer := none, passTimer := none }).balanced :=
    b.moveIdle k empty empty rfl (by simp)
  dsimp only
  split
  · exact moved.closeLane k (by rw [State.moveLane_lane]; exact empty)
  · exact moved

theorem State.balanced.visitEnd {s : State} (b : s.balanced) (k : EntryId) (empty : (s.lane k).grant = none) :
    (s.visitEnd k).balanced := by
  unfold State.visitEnd
  refine State.balanced.reachIdle (b.count k fun c => ?_) k (by rw [State.count_lane]; exact empty)
  split <;> exact ⟨rfl, rfl, rfl, rfl, rfl⟩

theorem State.balanced.lowered {s : State} (b : s.balanced) (k : EntryId) (empty : (s.lane k).grant = none) :
    (s.lowered k).balanced := by
  unfold State.lowered
  dsimp only
  split
  · exact b.closeLane k empty
  · split
    · exact b.arrival k empty
    · exact b.reachIdle k empty

theorem State.balanced.lookDown {s : State} (b : s.balanced) (k : EntryId) : (s.lookDown k).balanced := by
  unfold State.lookDown
  dsimp only
  split
  · next c => exact b.lowered k ((b k).no_grant (by rw [c.1]; simp))
  · exact b

@[simp] theorem EntryLane.lower_state (l : EntryLane) : l.lower.state = .lowering := EntryLane.drive_state _
@[simp] theorem EntryLane.lower_grant (l : EntryLane) : l.lower.grant = none := EntryLane.drive_grant _
@[simp] theorem EntryLane.lower_counters (l : EntryLane) : l.lower.counters = l.counters := EntryLane.drive_counters _

/-- A lane that holds a grant goes to LOWERING without it, one outcome counted. -/
theorem State.balanced.settleLower {s u : State} (b : s.balanced) (k : EntryId) (some : (s.lane k).grant.isSome = true)
    {c : Counters} (settles : Counters.Settles (s.lane k).counters c) (others : ∀ j, j ≠ k → u.lane j = s.lane j)
    (counters : (u.lane k).counters = c) : (u.moveLane k EntryLane.lower).balanced := by
  refine b.of_lane k (fun j ne => ?_) ?_
  · rw [State.moveLane_lane_any, if_neg ne, others j ne]
  · rw [State.moveLane_lane]
    refine (b k).settle some (EntryLane.lower_grant _) (by simp) settles ?_
    rw [EntryLane.lower_counters, counters]
    exact .rfl' _

theorem State.balanced.passGrant {s : State} (b : s.balanced) (k : EntryId) (kind : PassKind) :
    (s.passGrant k kind).balanced := by
  unfold State.passGrant
  split
  · exact b
  · next g held =>
    have counted : Counters.Settles (s.lane k).counters (match kind with
        | .loop => { (s.lane k).counters with admitted := rise (s.lane k).counters.admitted }
        | .attendant => { (s.lane k).counters with attendant := rise (s.lane k).counters.attendant }) := by
      cases kind
      · exact .admitted
      · exact .attendant
    refine State.balanced.lookDown (State.balanced.onHouse
      (b.settleLower k (by rw [held]; rfl) counted (fun j ne => ?_) ?_) _) k
    · rw [State.enterVehicle_lane, State.count_lane_ne _ _ ne]; rfl
    · rw [State.enterVehicle_lane, State.count_lane]
      cases kind <;> rfl

theorem State.balanced.backout {s : State} (b : s.balanced) (k : EntryId) : (s.backout k).balanced := by
  unfold State.backout
  split
  · exact b
  · next g held =>
    refine State.balanced.lookDown (State.balanced.onHouse
      (b.settleLower k (by rw [held]; rfl) .backout (fun j ne => ?_) ?_) _) k
    · rw [State.count_lane_ne _ _ ne]; rfl
    · rw [State.count_lane]; rfl

theorem State.balanced.lapse {s : State} (b : s.balanced) (k : EntryId) : (s.lapse k).balanced := by
  unfold State.lapse
  split
  · exact b
  · next g held =>
    refine State.balanced.lookDown (State.balanced.onHouse
      (b.settleLower k (by rw [held]; rfl) .lapse (fun j ne => ?_) ?_) _) k
    · rw [State.count_lane_ne _ _ ne]; rfl
    · rw [State.count_lane]; rfl

theorem State.balanced.enterPassing {s : State} (b : s.balanced) (k : EntryId) (state : (s.lane k).state = .raising) :
    (s.enterPassing k).balanced := by
  unfold State.enterPassing
  extract_lets s1 l seen
  have moved : s1.balanced :=
    b.moveLane k ((b k).of_same rfl (by simp [state]) (.rfl' _))
  split
  · exact moved.passGrant k .loop
  · split
    · exact moved.backout k
    · exact moved

theorem State.balanced.lookUp {s : State} (b : s.balanced) (k : EntryId) : (s.lookUp k).balanced := by
  unfold State.lookUp
  dsimp only
  split
  · next c => exact b.enterPassing k c.1
  · exact b

theorem State.balanced.takeGrant {s : State} (b : s.balanced) (k : EntryId) (n : Screen) (p : Nat × Nat) (party : Nat)
    (empty : (s.lane k).grant = none) : (s.takeGrant k n p party).balanced := by
  unfold State.takeGrant
  refine State.balanced.lookUp (b.of_lane k (fun j ne => ?_) ?_) k
  · rw [State.moveLane_lane_any, if_neg ne, State.count_lane_ne _ _ ne]; rfl
  · rw [State.moveLane_lane, State.count_lane]
    refine (b k).grant empty ?_ ?_ ?_
    · rw [EntryLane.drive_grant]; rfl
    · rw [EntryLane.drive_state]
    · rw [EntryLane.drive_counters]; rfl

theorem State.balanced.jam {s : State} (b : s.balanced) (k : EntryId) : (s.jam k).balanced := by
  unfold State.jam
  refine State.balanced.onHouse ?_ _
  cases held : (s.lane k).grant with
  | none =>
    have counted := b.count k (f := fun c => { c with armFaults := rise c.armFaults }) fun c => ⟨rfl, rfl, rfl, rfl, rfl⟩
    refine counted.moveIdle k ?_ ?_ ?_ ?_
    · rw [State.count_lane]; exact held
    · rw [EntryLane.drive_grant]
    · rw [EntryLane.drive_counters]
    · rw [EntryLane.drive_state]; simp
  | some g =>
    refine b.of_lane k (fun j ne => ?_) ?_
    · rw [State.moveLane_lane_any, if_neg ne, State.count_lane_ne _ _ ne, State.count_lane_ne _ _ ne]; rfl
    · rw [State.moveLane_lane, State.count_lane, State.count_lane]
      refine (b k).settle (by rw [held]; rfl) (EntryLane.drive_grant _) (by simp) .lapse ?_
      rw [EntryLane.drive_counters]
      exact ⟨rfl, rfl, rfl, rfl, rfl⟩

theorem State.balanced.tailgate {s : State} (b : s.balanced) (k : EntryId) : (s.tailgate k).balanced := by
  unfold State.tailgate
  have counted := (b.count k (f := fun c => { c with tailgates := rise c.tailgates })
    fun _ => ⟨rfl, rfl, rfl, rfl, rfl⟩).enterVehicle k
  refine State.balanced.onHouse (counted.onLane k ((counted k).of_same ?_ ?_ ?_)) _
  · rw [EntryLane.drive_grant]
  · rw [EntryLane.drive_state]
  · rw [EntryLane.drive_counters]; exact .rfl' _

theorem State.balanced.unpaidCrossing {s : State} (b : s.balanced) (k : EntryId) : (s.unpaidCrossing k).balanced :=
  State.balanced.onHouse ((b.count k (f := fun c => { c with unpaid := rise c.unpaid })
    fun _ => ⟨rfl, rfl, rfl, rfl, rfl⟩).enterVehicle k) _

/-- A change of a lane that touches neither state, grant nor counters. -/
theorem State.balanced.adjust {s : State} (b : s.balanced) (k : EntryId) {f : EntryLane → EntryLane}
    (state : (f (s.lane k)).state = (s.lane k).state)
    (grant : (f (s.lane k)).grant.isSome = (s.lane k).grant.isSome)
    (counters : (f (s.lane k)).counters = (s.lane k).counters) : (s.onLane k f).balanced :=
  b.onLane k ((b k).of_same grant (by rw [state]) (by rw [counters]; exact .rfl' _))

theorem State.balanced.arriveEvent {s : State} (b : s.balanced) (k : EntryId) : (s.arriveEvent k).balanced := by
  unfold State.arriveEvent
  dsimp only
  split
  · next e _ => exact b.arrival k ((b k).no_grant (by rw [e]; simp))
  · next e _ => exact b.visitEnd k ((b k).no_grant (by rw [e]; simp))
  · split
    · split
      · exact b
      · exact b.backout k
    · exact b
  · exact b

theorem State.balanced.clearEvent {s : State} (b : s.balanced) (k : EntryId) : (s.clearEvent k).balanced := by
  unfold State.clearEvent
  dsimp only
  split
  · exact b.adjust k rfl (by simp) rfl
  · exact b.adjust k rfl (by simp) rfl
  · exact b.tailgate k
  · exact b.unpaidCrossing k
  · exact b.unpaidCrossing k
  · exact b.unpaidCrossing k
  · exact b.unpaidCrossing k
  · split
    · split
      · exact b.passGrant k .loop
      · exact b
    · exact b
  · exact State.balanced.lookDown (b.adjust k (by simp) (by simp) (by simp)) k
  · exact b.adjust k (by simp) (by simp) (by simp)

theorem State.balanced.arriveSettles {s : State} (b : s.balanced) (k : EntryId) : (s.arriveSettles k).balanced := by
  unfold State.arriveSettles
  split
  · exact b
  · exact State.balanced.arriveEvent (b.adjust k rfl rfl rfl) k

theorem State.balanced.clearSettles {s : State} (b : s.balanced) (k : EntryId) : (s.clearSettles k).balanced := by
  unfold State.clearSettles
  split
  · exact b
  · exact State.balanced.clearEvent (b.adjust k rfl rfl rfl) k

theorem State.exitSettles_lane (j : ExitId) (s : State) (k : EntryId) : (s.exitSettles j).lane k = s.lane k := by
  unfold State.exitSettles
  dsimp only
  split
  · rfl
  · split
    · rfl
    · split <;> rfl

theorem State.balanced.exitSettles {s : State} (b : s.balanced) (j : ExitId) : (s.exitSettles j).balanced := by
  intro k; rw [State.exitSettles_lane]; exact b k

theorem State.balanced.loopRaw {s : State} (b : s.balanced) (loop : LoopId) (level : Bool) :
    (s.loopRaw loop level).balanced := by
  cases loop with
  | arrive k => exact b.adjust k rfl rfl rfl
  | clear k => exact b.adjust k rfl rfl rfl
  | exit j => exact b

theorem State.balanced.armUpLevel {s : State} (b : s.balanced) (k : EntryId) (level : Bool) :
    (s.armUpLevel k level).balanced := by
  unfold State.armUpLevel
  have set := b.adjust k (f := fun l => { l with armUp := level }) rfl rfl rfl
  dsimp only
  split
  · exact set.lookUp k
  · exact set

theorem State.balanced.armDownLevel {s : State} (b : s.balanced) (k : EntryId) (level : Bool) :
    (s.armDownLevel k level).balanced := by
  unfold State.armDownLevel
  have set := b.adjust k (f := fun l => { l with armDn := level }) rfl rfl rfl
  dsimp only
  split
  · exact set.lookDown k
  · exact set

theorem State.balanced.armTimeout {s : State} (b : s.balanced) (k : EntryId) : (s.armTimeout k).balanced := by
  unfold State.armTimeout
  split
  · exact b
  · split
    · exact b.jam k
    · exact b.jam k
    · exact b

theorem State.balanced.passTimeout {s : State} (b : s.balanced) (k : EntryId) : (s.passTimeout k).balanced := by
  unfold State.passTimeout
  split
  · exact b
  · exact b.lapse k

theorem State.balanced.armTravelEnd {s : State} (b : s.balanced) (k : EntryId) : (s.armTravelEnd k).balanced := by
  unfold State.armTravelEnd
  split
  · exact State.balanced.lookDown (State.balanced.lookUp (b.adjust k rfl rfl rfl) k) k
  · exact b

/-! ### The requests of the lanes -/

theorem State.balanced.laneOpen {s : State} (b : s.balanced) (k : EntryId) : (s.laneOpen k).1.balanced := by
  have cleared := b.adjust k (f := fun l => { l with closePending := false }) rfl rfl rfl
  have opened (state : (s.lane k).state = .closed ∨ (s.lane k).state = .jammed) :
      (if (s.lane k).raised then s else
        if (s.lane k).arrive.occupied then (s.onLane k fun l => { l with closePending := false }).arrival k
        else (s.onLane k fun l => { l with closePending := false }).reachIdle k).balanced := by
    have none : ((s.onLane k fun l => { l with closePending := false }).lane k).grant = none := by
      rw [State.onLane_lane]
      exact (b k).no_grant (by rcases state with e | e <;> simp [e])
    split
    · exact b
    · split
      · exact cleared.arrival k none
      · exact cleared.reachIdle k none
  unfold State.laneOpen
  dsimp only
  split
  · next e =>
    have x := opened (.inl e)
    split
    · exact b
    · next r => rwa [if_neg r] at x
  · next e =>
    have x := opened (.inr e)
    split
    · exact b
    · next r => rwa [if_neg r] at x
  · exact cleared

theorem State.balanced.grantStall {s : State} (b : s.balanced) (k : EntryId) (screen : Nat) (stall : Option (Nat × Nat))
    (party : Nat) : (s.grantStall k screen stall party).1.balanced := by
  unfold State.grantStall
  dsimp only
  split
  · split
    · exact b
    · split
      · exact b
      · next waiting =>
        split
        · exact b
        · split
          · exact b
          · refine b.takeGrant k _ _ _ ((b k).no_grant ?_)
            rw [not_not.mp waiting]; simp
  · exact b

theorem EntryLane.balanced.rehearse {l : EntryLane} (b : l.balanced) (state : l.state = .closed) (on : Bool) :
    ((if on then EntryLane.enterRehearsal else EntryLane.leaveRehearsal) l).balanced := by
  cases on with
  | true => exact b.of_same rfl Iff.rfl (.rfl' _)
  | false => exact EntryLane.balanced_of_zero (b.no_grant (by rw [state]; simp)) (by show ¬ (l.state = .raising ∨ l.state = .passing); rw [state]; simp) none rfl

theorem EntryLane.siteReset_balanced (l : EntryLane) : l.siteReset.balanced := by
  unfold EntryLane.siteReset
  exact EntryLane.balanced_of_zero (by simp) (by simp) none (by simp; rfl)

theorem State.siteReset_balanced (s : State) : s.siteReset.balanced := by
  intro k
  show (tget (s.lanes.map EntryLane.siteReset) k).balanced
  rw [tget_map]
  exact EntryLane.siteReset_balanced _

theorem EntryLane.reset_balanced (a c u d : Bool) : (EntryLane.reset a c u d).balanced :=
  EntryLane.balanced_of_zero rfl (by simp [EntryLane.reset]) none rfl

end Machine
end Sys2Proof
end

