-- ==== Sys2Proof/Proofs/LinkBounds.lean ====
section
/-! The bounds of the receive buffer (R189) and the balance of the entry lanes (R132) under every command and the
millisecond: a request's rule leaves the link alone, and the taking of a request adds at most one place to it. -/

set_option autoImplicit false

namespace Sys2Proof
namespace Machine

/-! ### The receive buffer -/

/-- A change of the link that keeps its buffer and counts no higher than the limit. -/
theorem Link.bounded.counters {l : Link} (b : l.bounded) (rate : Nat) (framer : Framer) (taken : Bool) {errors busy : Nat}
    (e : errors ≤ 65535) (c : busy ≤ 65535) :
    Link.bounded { l with rate := rate, framer := framer, resetTaken := taken, linkErrors := errors, busyCount := busy } := by
  obtain ⟨requests, marks, _, _⟩ := b
  exact ⟨requests, marks, e, c⟩

theorem Link.bounded.framer {l : Link} (b : l.bounded) (f : Framer) : Link.bounded { l with framer := f } :=
  b.counters l.rate f l.resetTaken b.2.2.1 b.2.2.2

theorem Link.bounded.append {l : Link} (b : l.bounded) (e : LinkEntry)
    (requests : e.busy = false → l.requests < 4) (marks : e.busy = true → l.busyMarks < 4) :
    Link.bounded { l with buffer := l.buffer ++ [e] } := by
  obtain ⟨b1, b2, b3, b4⟩ := b
  refine ⟨?_, ?_, b3, b4⟩
  · rw [Link.requests_append]
    show l.requests + _ ≤ 4
    cases busy : e.busy with
    | true => exact b1
    | false => exact requests busy
  · rw [Link.busyMarks_append]
    show l.busyMarks + _ ≤ 4
    cases busy : e.busy with
    | true => exact marks busy
    | false => exact b2

theorem Link.bounded.sublist {l : Link} (b : l.bounded) {buffer : List LinkEntry} (sub : buffer.Sublist l.buffer) :
    Link.bounded { l with buffer := buffer } := by
  obtain ⟨b1, b2, b3, b4⟩ := b
  exact ⟨(sub.countP_le).trans b1, (sub.countP_le).trans b2, b3, b4⟩

theorem Link.reset_bounded (rate : Nat) : (Link.reset rate).bounded :=
  ⟨Nat.zero_le _, Nat.zero_le _, Nat.zero_le _, Nat.zero_le _⟩

/-! ### What a rule leaves -/

/-- What a rule of a request keeps: the receive side of the link, and the balance of the lanes. -/
structure State.RuleKept (s t : State) : Prop where
  link : t.link = s.link
  lanes : s.balanced → t.balanced

theorem State.RuleKept.of_eq {s t : State} (link : t.link = s.link) (lanes : t.lanes = s.lanes) : State.RuleKept s t :=
  ⟨link, fun b k => by rw [State.lane, lanes]; exact b k⟩

theorem State.RuleKept.refl (s : State) : State.RuleKept s s := ⟨rfl, id⟩

theorem State.RuleKept.trans {s t u : State} (x : State.RuleKept s t) (y : State.RuleKept t u) : State.RuleKept s u :=
  ⟨y.link.trans x.link, y.lanes ∘ x.lanes⟩

theorem State.RuleKept.house (f : House → House) (s : State) : State.RuleKept s (s.onHouse f) := .of_eq rfl rfl

/-- What the lanes do to the whole state leaves the link alone. -/
theorem State.RuleKept.act {s t : State} (x : State.Act s t) (lanes : s.balanced → t.balanced) : State.RuleKept s t :=
  ⟨x.kept.link, lanes⟩

/-- What a command keeps: the bounds of the receive side of the link, and the balance of the lanes. -/
structure State.LinkKept (s t : State) : Prop where
  link : s.link.bounded → t.link.bounded
  lanes : s.balanced → t.balanced

theorem State.LinkKept.refl (s : State) : State.LinkKept s s := ⟨id, id⟩

theorem State.LinkKept.trans {s t u : State} (x : State.LinkKept s t) (y : State.LinkKept t u) : State.LinkKept s u :=
  ⟨y.link ∘ x.link, y.lanes ∘ x.lanes⟩

theorem State.RuleKept.linkKept {s t : State} (x : State.RuleKept s t) : State.LinkKept s t :=
  ⟨fun b => x.link ▸ b, x.lanes⟩

/-- The link changes and stays within its bounds. -/
theorem State.LinkKept.onLink {f : Link → Link} {s : State} (keeps : s.link.bounded → (f s.link).bounded) :
    State.LinkKept s (s.onLink f) := ⟨keeps, id⟩

theorem State.linkError_linkKept (s : State) : State.LinkKept s s.linkError :=
  .onLink fun b => b.counters s.link.rate s.link.framer s.link.resetTaken (bumpTo_le ..) b.2.2.2

theorem State.hunting_linkKept (s : State) : State.LinkKept s (s.onLink fun l => { l with framer := .hunting }) :=
  .onLink fun b => b.framer _

theorem State.busyFrame_linkKept (kind tag : Nat) (s : State) : State.LinkKept s (s.busyFrame kind tag) := by
  unfold State.busyFrame
  split
  · next room =>
    refine .trans (State.RuleKept.house _ s).linkKept (.trans (.onLink fun b => ?_) (.onLink fun b => ?_))
    · exact Link.bounded.append b _ nofun fun _ => room
    · exact Link.bounded.counters b _ _ _ b.2.2.1 (bumpTo_le ..)
  · exact State.linkError_linkKept s

/-- The taking of a request adds one place to a reply order with fewer than 4 requests (R189). -/
theorem State.receive_linkKept {kind tag : Nat} {rule : State → State × Answer} {after : State → State} {s : State}
    (ruleKept : ∀ s, State.RuleKept s (rule s).1) (afterKept : ∀ s, State.LinkKept s (after s)) :
    State.LinkKept s (s.receive kind tag rule after) := by
  unfold State.receive
  dsimp only
  refine .trans (State.hunting_linkKept s) ?_
  generalize (s.onLink fun l => { l with framer := .hunting }) = s1
  split
  · exact State.busyFrame_linkKept kind tag s1
  · next room =>
    split
    · exact .onLink fun b => b.append _ (fun _ => Nat.not_le.mp room) nofun
    · unfold State.take
      have acted := State.RuleKept.trans (.house (fun h => { h with out := h.out.startReply }) s1) (ruleKept _)
      refine .trans acted.linkKept (.trans (.onLink fun b => ?_) (afterKept _))
      refine b.append _ (fun _ => ?_) nofun
      rw [acted.link]
      exact Nat.not_le.mp room

theorem request_linkKept {kind tag : Nat} {rule : State → State × Answer} {s t : State}
    (ruleKept : ∀ s, State.RuleKept s (rule s).1) (e : request kind tag rule s = .next t) : State.LinkKept s t := by
  cases e
  exact State.receive_linkKept ruleKept fun s => .refl s

theorem houseRequest_linkKept {kind tag : Nat} {rule : House → House × Answer} {s t : State}
    (e : houseRequest kind tag rule s = .next t) : State.LinkKept s t :=
  request_linkKept (fun _ => .of_eq rfl rfl) e

theorem readRequest_linkKept {kind tag : Nat} {answer : State → Answer} {s t : State}
    (e : readRequest kind tag answer s = .next t) : State.LinkKept s t :=
  request_linkKept (fun s => .refl s) e

theorem houseEvent_linkKept {f : House → House} {s t : State} (e : houseEvent f s = .next t) : State.LinkKept s t := by
  cases e
  exact (State.RuleKept.house f s).linkKept

theorem onEntry_ruleKept {lane : Nat} {rule : EntryId → State → State × Answer}
    (ruleKept : ∀ k s, State.RuleKept s (rule k s).1) (s : State) : State.RuleKept s (onEntry lane rule s).1 := by
  unfold onEntry
  split
  · exact ruleKept _ s
  · exact .refl s

theorem entryRequest_linkKept {kind tag lane : Nat} {rule : EntryId → State → State × Answer} {s t : State}
    (ruleKept : ∀ k s, State.RuleKept s (rule k s).1) (e : entryRequest kind tag lane rule s = .next t) :
    State.LinkKept s t :=
  request_linkKept (onEntry_ruleKept ruleKept) e

/-! ### Site commands -/

theorem State.siteReset_linkKept (s : State) : State.LinkKept s s.siteReset :=
  ⟨fun _ => ⟨Nat.zero_le _, Nat.zero_le _, Nat.zero_le _, Nat.zero_le _⟩, fun _ => s.siteReset_balanced⟩

theorem State.chooseFrame_ruleKept (s : State) : State.RuleKept s s.chooseFrame := by
  unfold State.chooseFrame
  split
  · split <;> exact .house _ s
  · exact .house _ s

theorem State.frameSent_linkKept (s : State) : State.LinkKept s s.frameSent := by
  unfold State.frameSent
  split
  · exact .refl s
  · exact (State.RuleKept.trans (.house _ s) (State.chooseFrame_ruleKept _)).linkKept
  · split
    · exact (State.RuleKept.trans (.house _ s) (State.chooseFrame_ruleKept _)).linkKept
    · next e rest buffer =>
      split
      · exact State.siteReset_linkKept s
      · refine .trans (State.RuleKept.house _ s).linkKept (.trans (.onLink fun b => b.sublist ?_)
          (State.chooseFrame_ruleKept _).linkKept)
        show rest.Sublist s.link.buffer
        rw [buffer]
        exact List.sublist_cons_self e rest

theorem State.clearStatus_linkKept (clear : Bool) (s : State) : State.LinkKept s (State.clearStatus clear s) := by
  unfold State.clearStatus
  dsimp only
  split
  · exact .trans (State.RuleKept.house _ s).linkKept
      (.onLink fun b => Link.bounded.counters b _ _ _ (Nat.zero_le _) (Nat.zero_le _))
  · exact (State.RuleKept.house _ s).linkKept

/-- The mark of a SITE RESET changes no place's being a request or a busy mark (R201). -/
theorem State.markReset_linkKept (s : State) : State.LinkKept s s.markReset := by
  have busy (l : List LinkEntry) (i : Nat) :
      (l.modify i fun e => { e with siteReset := true }).map LinkEntry.busy = l.map LinkEntry.busy := by
    refine List.ext_getElem? fun j => ?_
    rw [List.getElem?_map, List.getElem?_map, List.getElem?_modify]
    cases l[j]? with
    | none => rfl
    | some e =>
      show some (LinkEntry.busy (if i = j then _ else e)) = some e.busy
      split <;> rfl
  have count (p : Bool → Bool) (l : List LinkEntry) (i : Nat) :
      (l.modify i fun e => { e with siteReset := true }).countP (fun e => p e.busy) = l.countP fun e => p e.busy := by
    have onBusy (m : List LinkEntry) : (m.map LinkEntry.busy).countP p = m.countP fun e => p e.busy := by
      rw [List.countP_map]; rfl
    rw [← onBusy, busy, onBusy]
  refine .onLink fun b => ?_
  obtain ⟨b1, b2, b3, b4⟩ := b
  exact ⟨(count (fun x => !x) _ _).trans_le b1, (count (fun x => x) _ _).trans_le b2, b3, b4⟩

theorem execSiteStatus_linkKept {tag clear : Nat} {s t : State} (e : execSiteStatus tag clear s = .next t) :
    State.LinkKept s t := by
  unfold execSiteStatus at e
  split at e
  · cases e; exact State.receive_linkKept (fun s => .refl s) (State.clearStatus_linkKept _)
  · exact readRequest_linkKept e

theorem execUnknownKind_linkKept {kind tag : Nat} {body : List Nat} {s t : State}
    (e : execUnknownKind kind tag body s = .next t) : State.LinkKept s t := by
  unfold execUnknownKind at e
  split at e
  · cases e; exact .refl s
  · split at e
    · exact readRequest_linkKept e
    · exact readRequest_linkKept e
    · exact request_linkKept (onEntry_ruleKept fun _ s => .refl s) e
    · cases e; exact .refl s

theorem execLinkBusyMark_linkKept {kind tag : Nat} {s t : State} (e : execLinkBusyMark kind tag s = .next t) :
    State.LinkKept s t := by
  unfold execLinkBusyMark at e
  cases e
  split
  · exact .trans (State.hunting_linkKept s) (State.busyFrame_linkKept ..)
  · exact .refl s

theorem execReceiveFrameDiscarded_linkKept {bytes : List Nat} {s t : State}
    (e : execReceiveFrameDiscarded bytes s = .next t) : State.LinkKept s t := by
  unfold execReceiveFrameDiscarded at e
  split at e <;> cases e
  · exact .trans (State.hunting_linkKept s) (State.linkError_linkKept _)
  · exact .trans (State.hunting_linkKept s) (State.linkError_linkKept _)
  · exact .refl s
  · exact .refl s

theorem execFrameGapTimeout_linkKept {s t : State} (e : execFrameGapTimeout s = .next t) : State.LinkKept s t := by
  unfold execFrameGapTimeout at e
  split at e <;> cases e
  · exact .trans (State.hunting_linkKept s) (State.linkError_linkKept _)
  · exact .refl s

theorem execSiteResetTakesEffect_linkKept {s t : State} (e : execSiteResetTakesEffect s = .next t) :
    State.LinkKept s t := by
  unfold execSiteResetTakesEffect at e
  cases e
  split
  · exact State.siteReset_linkKept s
  · exact .refl s

theorem State.powerOn_linkKept (b1 b0 : Bool) (s : State) : State.LinkKept s (s.powerOn b1 b0) := by
  refine ⟨fun _ => Link.reset_bounded _, fun _ k => ?_⟩
  show (tget (s.lanes.map fun l => EntryLane.reset l.arrive.raw l.clear.raw l.armUp l.armDn) k).balanced
  rw [tget_map]
  exact EntryLane.reset_balanced _ _ _ _

/-! ### Sound and show commands -/

theorem execScreenReset_linkKept {tag screen : Nat} {s t : State} (e : execScreenReset tag screen s = .next t) :
    State.LinkKept s t := by
  refine request_linkKept (fun s => ?_) e
  split
  · exact .of_eq rfl rfl
  · exact .refl s

theorem State.mixSet_ruleKept (n : Screen) (m : MixSettings) (s : State) : State.RuleKept s (s.mixSet n m).1 := by
  unfold State.mixSet
  dsimp only
  split
  · exact .refl s
  · split
    · exact .refl s
    · exact .of_eq rfl rfl

theorem execMixSet_linkKept {tag screen d f k r q h l : Nat} {s t : State}
    (e : execMixSet tag screen d f k r q h l s = .next t) : State.LinkKept s t := by
  refine request_linkKept (fun s => ?_) e
  split
  · exact State.mixSet_ruleKept ..
  · exact .refl s

theorem execPartitionSet_linkKept {tag units : Nat} {s t : State} (e : execPartitionSet tag units s = .next t) :
    State.LinkKept s t := by
  refine request_linkKept (fun s => ?_) e
  unfold State.partitionSet
  dsimp only
  repeat' split
  all_goals exact .of_eq rfl rfl

theorem execLevelRead_linkKept {tag screen clear : Nat} {s t : State} (e : execLevelRead tag screen clear s = .next t) :
    State.LinkKept s t := by
  unfold execLevelRead at e
  split at e
  · split at e
    · cases e
      refine State.receive_linkKept (fun s => .refl s) fun s => ?_
      split
      · exact ⟨id, id⟩
      · exact .refl s
    · exact readRequest_linkKept e
  · exact readRequest_linkKept e

theorem execMonitorSelect_linkKept {tag selection : Nat} {s t : State} (e : execMonitorSelect tag selection s = .next t) :
    State.LinkKept s t := by
  refine request_linkKept (fun s => ?_) e
  split
  · exact .of_eq rfl rfl
  · split
    · exact .of_eq rfl rfl
    · exact .refl s

theorem State.clipBegin_ruleKept (id length : Nat) (s : State) : State.RuleKept s (s.clipBegin id length).1 := by
  unfold State.clipBegin
  dsimp only
  repeat' split
  all_goals exact .of_eq rfl rfl

theorem State.clipData_ruleKept (id offset : Nat) (samples : List Int) (s : State) :
    State.RuleKept s (s.clipData id offset samples).1 := by
  unfold State.clipData
  dsimp only
  repeat' split
  all_goals exact .of_eq rfl rfl

theorem State.clipEnd_ruleKept (id crc : Nat) (s : State) : State.RuleKept s (s.clipEnd id crc).1 := by
  unfold State.clipEnd
  dsimp only
  repeat' split
  all_goals exact .of_eq rfl rfl

theorem State.foldl_ruleKept {β : Type} {f : State → β → State} (step : ∀ s b, State.RuleKept s (f s b)) (l : List β)
    (s : State) : State.RuleKept s (l.foldl f s) := by
  induction l generalizing s with
  | nil => exact .refl s
  | cons b rest ih => exact .trans (step s b) (ih _)

theorem State.blockStart_ruleKept (s : State) : State.RuleKept s s.blockStart :=
  .trans (t := s.startSite) (.of_eq rfl rfl) (State.foldl_ruleKept (f := State.startScreen) (fun _ _ => .of_eq rfl rfl) _ _)

theorem State.blockEnd_ruleKept (s : State) : State.RuleKept s s.blockEnd :=
  State.foldl_ruleKept (f := State.endScreen) (fun _ _ => .of_eq rfl rfl) _ _

/-! ### Lane commands -/

theorem execLaneSet_linkKept {tag lane map debounce arm pass : Nat} {s t : State}
    (e : execLaneSet tag lane map debounce arm pass s = .next t) : State.LinkKept s t := by
  unfold execLaneSet at e
  split at e
  · refine request_linkKept (fun s => ?_) e
    split
    · exact .of_eq rfl rfl
    · exact .refl s
  · refine entryRequest_linkKept (fun k s => ?_) e
    split
    · exact .refl s
    · split
      · exact ⟨rfl, fun b => b.adjust k rfl rfl rfl⟩
      · exact .refl s

theorem execLaneClose_linkKept {tag lane : Nat} {s t : State} (e : execLaneClose tag lane s = .next t) :
    State.LinkKept s t := by
  refine entryRequest_linkKept (fun k s => ?_) e
  split
  · exact .refl s
  · next state => exact .act (State.closeLane_act k s) fun b => b.closeLane k ((b k).no_grant (by rw [state]; simp))
  · next state => exact .act (State.closeLane_act k s) fun b => b.closeLane k ((b k).no_grant (by rw [state]; simp))
  · exact ⟨rfl, fun b => b.adjust k rfl rfl rfl⟩

theorem execRefuse_linkKept {tag lane : Nat} {s t : State} (e : execRefuse tag lane s = .next t) :
    State.LinkKept s t := by
  refine entryRequest_linkKept (fun k s => ?_) e
  split
  · exact ⟨rfl, fun b => b.adjust k rfl rfl rfl⟩
  · exact .refl s
  · exact .refl s

theorem execAttendantPass_linkKept {tag lane : Nat} {s t : State} (e : execAttendantPass tag lane s = .next t) :
    State.LinkKept s t := by
  refine entryRequest_linkKept (fun k s => ?_) e
  split
  · exact .act (State.passGrant_act k .attendant s) fun b => b.passGrant k .attendant
  · exact .refl s
  · exact .refl s

theorem State.readEntry_cases (k : EntryId) (clear : Bool) (s : State) :
    (s.readEntry k clear).1 = s ∨ ((s.lane k).grant = none ∧ (s.readEntry k clear).1 =
      s.onLane k fun l => { l with counters := { Counters.zero with clearedAt := some s.house.clock } }) := by
  unfold State.readEntry
  dsimp only
  by_cases empty : (s.lane k).grant = none
  · cases clear
    · exact .inl rfl
    · exact .inr ⟨empty, by simp [empty]⟩
  · cases clear
    · exact .inl rfl
    · exact .inl (by simp [empty])

theorem State.readEntry_ruleKept (k : EntryId) (clear : Bool) (s : State) : State.RuleKept s (s.readEntry k clear).1 := by
  obtain e | ⟨empty, e⟩ := s.readEntry_cases k clear <;> rw [e]
  · exact .refl s
  · refine ⟨rfl, fun b => b.onLane k (EntryLane.balanced_of_zero empty (fun state => ?_) _ rfl)⟩
    have held := (b k).has_grant state
    rw [empty] at held
    exact absurd held (by decide)

theorem State.readExit_ruleKept (j : ExitId) (clear : Bool) (s : State) : State.RuleKept s (s.readExit j clear).1 := by
  unfold State.readExit
  dsimp only
  split
  · exact .of_eq rfl rfl
  · exact .refl s

theorem execCountersRead_linkKept {tag lane clear : Nat} {s t : State} (e : execCountersRead tag lane clear s = .next t) :
    State.LinkKept s t := by
  refine request_linkKept (fun s => ?_) e
  split
  · split
    · exact State.readEntry_ruleKept ..
    · exact State.readExit_ruleKept ..
    · exact .refl s
  · exact onEntry_ruleKept (fun _ s => .refl s) s

theorem State.rehearseLane_ruleKept (on : Bool) (k : EntryId) (s : State) : State.RuleKept s (s.rehearseLane on k).1 := by
  unfold State.rehearseLane
  dsimp only
  split
  · exact .refl s
  · split
    · exact .refl s
    · next closed =>
      split
      · exact .refl s
      · exact ⟨rfl, fun b => b.onLane k ((b k).rehearse (not_not.mp closed) on)⟩

theorem execRehearse_linkKept {tag unit setting : Nat} {auto : Option Nat} {s t : State}
    (e : execRehearse tag unit setting auto s = .next t) : State.LinkKept s t := by
  refine request_linkKept (fun s => ?_) e
  unfold State.rehearse
  split
  · split
    · exact onEntry_ruleKept (fun _ s => .refl s) s
    · exact .refl s
  · split
    · exact .of_eq rfl rfl
    · exact onEntry_ruleKept (State.rehearseLane_ruleKept _) s
    · exact .of_eq rfl rfl
    · exact .refl s

theorem onRehearsingLane_ruleKept {rule : EntryId → State → State × Answer} (k : EntryId) (s : State)
    (ruleKept : State.RuleKept s (rule k s).1) : State.RuleKept s (onRehearsingLane rule k s).1 := by
  unfold onRehearsingLane
  split
  · exact ruleKept
  · exact .refl s

theorem execInjectLoop_linkKept {tag lane loop level : Nat} {s t : State}
    (e : execInjectLoop tag lane loop level s = .next t) : State.LinkKept s t := by
  refine entryRequest_linkKept (fun k s => ?_) e
  have set (f : Bool) : State.RuleKept s (onRehearsingLane (fun k s =>
      (s.onLane k fun l =>
        if loop = 1 then { l with arrive := l.arrive.inject f l.settings.debounce }
        else { l with clear := l.clear.inject f l.settings.debounce }, ok [])) k s).1 := by
    refine onRehearsingLane_ruleKept k s ⟨rfl, fun b => b.adjust k ?_ ?_ ?_⟩ <;> split <;> rfl
  dsimp only
  split
  · exact set true
  · exact set true
  · exact set false
  · exact set false
  · exact .refl s

theorem execInjectJam_linkKept {tag lane action : Nat} {s t : State} (e : execInjectJam tag lane action s = .next t) :
    State.LinkKept s t := by
  refine entryRequest_linkKept (fun k s => ?_) e
  split
  · exact onRehearsingLane_ruleKept k s ⟨rfl, fun b => b.adjust k rfl rfl rfl⟩
  · exact onRehearsingLane_ruleKept k s ⟨rfl, fun b => b.adjust k rfl rfl rfl⟩
  · exact .refl s

/-! ### Every command, and the millisecond -/

theorem exec_linkKept {c : Instr} {s t : State} (e : exec c s = .next t) : State.LinkKept s t := by
  cases c with
  | powerOnReset b1 b0 => cases e; exact State.powerOn_linkKept b1 b0 s
  | siteStatus _ _ => exact execSiteStatus_linkKept e
  | siteReset _ => cases e; exact State.receive_linkKept (fun s => .refl s) State.markReset_linkKept
  | siteResetTakesEffect => exact execSiteResetTakesEffect_linkKept e
  | unknownKind _ _ _ => exact execUnknownKind_linkKept e
  | linkBusyMark _ _ => exact execLinkBusyMark_linkKept e
  | receiveFrameDiscarded _ => exact execReceiveFrameDiscarded_linkKept e
  | frameGapTimeout => exact execFrameGapTimeout_linkKept e
  | lineBreak => cases e; exact State.hunting_linkKept s
  | startByteReceived => cases e; exact .onLink fun b => b.framer _
  | transmitFrameEnd => cases e; exact State.frameSent_linkKept s
  | screenReset _ _ => exact execScreenReset_linkKept e
  | sampleFrame _ _ _ _ => cases e; exact State.RuleKept.linkKept (s := s) (.of_eq rfl rfl)
  | blockStart => cases e; exact (State.blockStart_ruleKept s).linkKept
  | blockEnd => cases e; exact (State.blockEnd_ruleKept s).linkKept
  | mixSet _ _ _ _ _ _ _ _ _ => exact execMixSet_linkKept e
  | partitionSet _ _ => exact execPartitionSet_linkKept e
  | levelRead _ _ _ => exact execLevelRead_linkKept e
  | monitorSelect _ _ => exact execMonitorSelect_linkKept e
  | clipBegin _ _ _ => exact request_linkKept (State.clipBegin_ruleKept _ _) e
  | clipData _ _ _ _ => exact request_linkKept (State.clipData_ruleKept _ _ _) e
  | clipEnd _ _ _ => exact request_linkKept (State.clipEnd_ruleKept _ _) e
  | laneSet _ _ _ _ _ _ => exact execLaneSet_linkKept e
  | laneOpen _ _ => exact entryRequest_linkKept (fun k s => .act (State.laneOpen_act k s) fun b => b.laneOpen k) e
  | laneClose _ _ => exact execLaneClose_linkKept e
  | admitCar _ _ _ _ _ =>
    exact entryRequest_linkKept (fun k s => .act (State.admit_act k _ _ _ s) fun b => b.grantStall k _ _ _) e
  | refuse _ _ => exact execRefuse_linkKept e
  | attendantPass _ _ => exact execAttendantPass_linkKept e
  | loopRawChange _ _ => cases e; exact (State.RuleKept.act (State.loopRaw_act ..) fun b => b.loopRaw _ _).linkKept
  | arriveSettles k => cases e; exact (State.RuleKept.act (State.arriveSettles_act ..) fun b => b.arriveSettles k).linkKept
  | clearSettles k => cases e; exact (State.RuleKept.act (State.clearSettles_act ..) fun b => b.clearSettles k).linkKept
  | exitSettles j => cases e; exact (State.RuleKept.act (State.exitSettles_act ..) fun b => b.exitSettles j).linkKept
  | armupAsserted k _ => cases e; exact (State.RuleKept.act (State.armUpLevel_act ..) fun b => b.armUpLevel k _).linkKept
  | armdnAsserted k _ =>
    cases e; exact (State.RuleKept.act (State.armDownLevel_act ..) fun b => b.armDownLevel k _).linkKept
  | armTimeout k => cases e; exact (State.RuleKept.act (State.armTimeout_act ..) fun b => b.armTimeout k).linkKept
  | passTimeout k => cases e; exact (State.RuleKept.act (State.passTimeout_act ..) fun b => b.passTimeout k).linkKept
  | countersRead _ _ _ => exact execCountersRead_linkKept e
  | orderPlace _ _ _ _ _ _ =>
    cases e
    exact State.receive_linkKept (fun _ => .of_eq rfl rfl) fun s => (State.RuleKept.house _ s).linkKept
  | rehearse _ _ _ _ => exact execRehearse_linkKept e
  | injectLoop _ _ _ _ => exact execInjectLoop_linkKept e
  | injectJam _ _ _ => exact execInjectJam_linkKept e
  | simulatedArmTravelEnd k =>
    cases e; exact (State.RuleKept.act (State.armTravelEnd_act ..) fun b => b.armTravelEnd k).linkKept
  | hello _ => exact readRequest_linkKept e
  | cueRead _ _ => exact readRequest_linkKept e
  | clipList _ _ => exact readRequest_linkKept e
  | orderRead _ _ _ => exact readRequest_linkKept e
  | stationRead _ _ _ => exact readRequest_linkKept e
  | wholeSecond => exact houseEvent_linkKept e
  | expirySweep => exact houseEvent_linkKept e
  | lateWindowEnd _ => exact houseEvent_linkKept e
  | showStartTimeReached _ => exact houseEvent_linkKept e
  | holdExpired _ => exact houseEvent_linkKept e
  | framePulse _ => exact houseEvent_linkKept e
  | pictureStall _ => exact houseEvent_linkKept e
  | timebaseFrame _ => exact houseEvent_linkKept e
  | skipTimebaseFrame _ => exact houseEvent_linkKept e
  | holdEntryElapsed _ => exact houseEvent_linkKept e
  | verbLineSent _ => exact houseEvent_linkKept e
  | cueLineReceived _ _ => exact houseEvent_linkKept e
  | answerTimeout _ => exact houseEvent_linkKept e
  | backoffEnd _ => exact houseEvent_linkKept e
  | announcementExpiry _ => exact houseEvent_linkKept e
  | gapEnd _ => exact houseEvent_linkKept e
  | callRepeatDue _ => exact houseEvent_linkKept e
  | buttonBump _ => exact houseEvent_linkKept e
  | autoAnswer _ => exact houseEvent_linkKept e
  | generatedFramePulse _ => exact houseEvent_linkKept e
  | _ => exact houseRequest_linkKept e

theorem State.balanced.laneDue {s : State} (b : s.balanced) (k : EntryId) : (s.laneDue k).balanced := by
  unfold State.laneDue
  have ite {P : Prop} [Decidable P] {u v : State} (x : u.balanced) (y : v.balanced) : (if P then u else v).balanced := by
    split
    · exact x
    · exact y
  have b1 := ite (P := (s.lane k).clear.timer = some 0) (b.clearSettles k) b
  have b2 := ite (P := ((if (s.lane k).clear.timer = some 0 then s.clearSettles k else s).lane k).arrive.timer = some 0)
    (b1.arriveSettles k) b1
  extract_lets s1 s2 s3 s4
  have b3 : s3.balanced := ite (State.balanced.armTravelEnd b2 k) b2
  have b4 : s4.balanced := ite (b3.armTimeout k) b3
  exact ite (b4.passTimeout k) b4

theorem State.balanced.exitDue {s : State} (b : s.balanced) (j : ExitId) : (s.exitDue j).balanced := by
  unfold State.exitDue
  split
  · exact b.exitSettles j
  · exact b

theorem State.foldl_balanced {β : Type} {f : State → β → State} (step : ∀ s b, s.balanced → (f s b).balanced)
    (l : List β) {s : State} (b : s.balanced) : (l.foldl f s).balanced := by
  induction l generalizing s with
  | nil => exact b
  | cons x rest ih => exact ih (step s x b)

theorem State.balanced.pass {s : State} (b : s.balanced) : s.pass.balanced := by
  intro k
  show (tget (s.lanes.map EntryLane.pass) k).balanced
  rw [tget_map]
  exact (b k).of_same rfl Iff.rfl (.rfl' _)

theorem State.balanced.tick {s : State} (b : s.balanced) : s.tick.balanced := by
  rw [State.tick_eq]
  exact State.balanced.onHouse (State.foldl_balanced (fun _ j b => b.exitDue j) _
    (State.foldl_balanced (fun _ k b => b.laneDue k) _ b.pass)) _

/-- Settles O7, command by command (`exec_linkKept`) and for the millisecond. -/
theorem stepKeepsLaneBalance : Obligations.StepKeepsLaneBalance := fun _ _ b e =>
  step_keeps (P := State.balanced) (fun _ _ b => b) (fun _ _ _ e => (exec_linkKept e).lanes) (fun _ b => b.tick) e b

/-- Settles O5, command by command (`exec_linkKept`); the millisecond leaves the link alone. -/
theorem stepKeepsLinkBounds : Obligations.StepKeepsLinkBounds := fun _ _ b e =>
  step_keeps (P := fun u => u.link.bounded) (fun _ _ b => b) (fun _ _ _ e => (exec_linkKept e).link)
    (fun s b => by rw [(State.tick_kept s).link]; exact b) e b

/-- Settles O8, block by block. -/
theorem resetMeetsInvariants : Obligations.ResetMeetsInvariants := by
  refine ⟨rfl, Link.reset_bounded 0, House.reset_bounded, fun n => ?_, fun k => ?_⟩
  · show (tget (Vector.replicate 4 Channel.reset) n).residuesFine
    rw [tget_replicate]
    exact Channel.reset_residues
  · show (tget (Vector.replicate 6 (EntryLane.reset false false false false)) k).balanced
    rw [tget_replicate]
    exact EntryLane.reset_balanced _ _ _ _

end Machine
end Sys2Proof
end


-- ==== Sys2Proof/Proofs/Encoding.lean ====
section
/-! The bytes of requests (R186, R195 to R197): a body written from fields that fit is read back as their values, and so
decoding undoes encoding. -/

set_option autoImplicit false

namespace Sys2Proof
namespace Machine

/-! ### Bytes and fields -/

theorem bytesBE_length (w v : Nat) : (bytesBE w v).length = w := by
  induction w with
  | zero => rfl
  | succ w ih => simp [bytesBE, ih]

theorem foldl_bytesBE (w v acc : Nat) :
    (bytesBE w v).foldl (fun acc b => acc * 256 + b) acc = acc * 256 ^ w + v % 256 ^ w := by
  induction w generalizing acc with
  | zero => simp [bytesBE, Nat.mod_one]
  | succ w ih =>
    have split : v % 256 ^ (w + 1) = 256 ^ w * (v / 256 ^ w % 256) + v % 256 ^ w := by
      rw [pow_succ, Nat.mod_mul]; omega
    rw [bytesBE, List.foldl_cons, ih, split, pow_succ]
    ring

theorem ofBytesBE_bytesBE {w v : Nat} (fits : v < 256 ^ w) : ofBytesBE (bytesBE w v) = v := by
  rw [ofBytesBE, foldl_bytesBE, Nat.mod_eq_of_lt fits, Nat.zero_mul, Nat.zero_add]

theorem Field.bytes_length (f : Field) : f.bytes.length = f.width := bytesBE_length _ _

theorem Field.ofBytesBE_bytes {f : Field} (fits : f.fits = true) : ofBytesBE f.bytes = f.value :=
  ofBytesBE_bytesBE (of_decide_eq_true fits)

theorem fieldBytes_cons (f : Field) (fs : List Field) : fieldBytes (f :: fs) = f.bytes ++ fieldBytes fs := rfl

theorem fieldBytes_append (fs gs : List Field) : fieldBytes (fs ++ gs) = fieldBytes fs ++ fieldBytes gs :=
  List.flatMap_append

theorem fieldBytes_length (fs : List Field) : (fieldBytes fs).length = (fs.map Field.width).sum := by
  induction fs with
  | nil => rfl
  | cons f fs ih => simp [fieldBytes_cons, Field.bytes_length, ih]

theorem fieldBytes_u8_cons {v : Nat} (small : v < 256) (fs : List Field) :
    fieldBytes (u8 v :: fs) = v :: fieldBytes fs := by
  rw [fieldBytes_cons, show (u8 v).bytes = [v / 1 % 256] from rfl, Nat.div_one, Nat.mod_eq_of_lt small]; rfl

theorem u8_fits {v : Nat} : (u8 v).fits = true ↔ v < 256 := by simp [Field.fits, u8]

/-- A body of fields that fit is read back as their values (R186, R197). -/
theorem parse_fieldBytes {fs : List Field} (fits : fs.all Field.fits = true) :
    parse (fs.map Field.width) (fieldBytes fs) = some (fs.map Field.value) := by
  induction fs with
  | nil => rfl
  | cons f fs ih =>
    rw [List.all_cons, Bool.and_eq_true] at fits
    have len := f.bytes_length
    rw [List.map_cons, parse, fieldBytes_cons, if_neg (by simp [len]), List.drop_left' len, List.take_left' len,
      ih fits.2, f.ofBytesBE_bytes fits.1]
    rfl

/-! ### The forms of a body -/

/-- A body of fixed width gives back the request it was written from. -/
theorem fixedBody_encoded {ws : List Nat} {fs : List Field} {row : List Nat → Option Instr} {i : Instr}
    (fits : fs.all Field.fits = true) (widths : ws = fs.map Field.width) (e : row (fs.map Field.value) = some i) :
    fixedBody ws (fieldBytes fs) row = .request i := by
  rw [fixedBody, widths, parse_fieldBytes fits]
  dsimp only
  rw [e]; rfl

theorem formBody_first (fs : List Field) (first second : List Nat → WireVerdict) :
    formBody (fieldBytes (u8 1 :: fs)) first second = first (fieldBytes fs) := rfl

theorem formBody_second (fs : List Field) (first second : List Nat → WireVerdict) :
    formBody (fieldBytes (u8 2 :: fs)) first second = second (fieldBytes fs) := rfl

/-- The bytes of the first fields, when as many are taken, and of the others, when they are dropped. -/
theorem fieldBytes_take {fs : List Field} {n : Nat} (gs : List Field) (e : n = (fs.map Field.width).sum) :
    (fieldBytes (fs ++ gs)).take n = fieldBytes fs := by
  rw [fieldBytes_append, e, ← fieldBytes_length]
  exact List.take_left

theorem fieldBytes_drop {fs : List Field} {n : Nat} (gs : List Field) (e : n = (fs.map Field.width).sum) :
    (fieldBytes (fs ++ gs)).drop n = fieldBytes gs := by
  rw [fieldBytes_append, e, ← fieldBytes_length]
  exact List.drop_left

/-- A body that ends in a counted list gives back the request it was written from. -/
theorem listBody_encoded {head : List Nat} {item : Nat} {fs gs : List Field} {row : List Nat → List Nat → Option Instr}
    {i : Instr} (fits : (fs ++ gs).all Field.fits = true) (heads : head = fs.map Field.width)
    (items : List.replicate ((fs.map Field.value).getLast?.getD 0) item = gs.map Field.width)
    (e : row (fs.map Field.value).dropLast (gs.map Field.value) = some i) :
    listBody head item (fieldBytes (fs ++ gs)) row = .request i := by
  rw [List.all_append, Bool.and_eq_true] at fits
  subst heads
  rw [listBody, fieldBytes_take gs rfl, fieldBytes_drop gs rfl, parse_fieldBytes fits.1]
  dsimp only
  rw [items, parse_fieldBytes fits.2]
  dsimp only
  rw [e]; rfl

theorem map_width_u8 (vs : List Nat) : (vs.map u8).map Field.width = List.replicate vs.length 1 := by
  induction vs with
  | nil => rfl
  | cons v vs ih => rw [List.map_cons, List.map_cons, ih]; rfl

theorem map_value_u8 (vs : List Nat) : (vs.map u8).map Field.value = vs := by
  rw [List.map_map]; exact List.map_id _

/-- A list of one-byte fields is read back as its numbers. -/
theorem parse_bytes {vs : List Nat} (fits : (vs.map u8).all Field.fits = true) :
    parse (List.replicate vs.length 1) (fieldBytes (vs.map u8)) = some vs := by
  rw [← map_width_u8, parse_fieldBytes fits, map_value_u8]

/-! ### The requests whose bodies are not of fixed width -/

theorem sampleValue_sampleBits {v : Int} (inRange : isClipSample v = true) : sampleValue (sampleBits v) = v := by
  have r := of_decide_eq_true inRange
  unfold sampleValue sampleBits
  split <;> omega

theorem decodeLaneSet_exit {tag lane debounce : Nat} (exit : lane = 0x21 ∨ lane = 0x22)
    (fits : [u8 lane, u32 debounce].all Field.fits = true) :
    decodeLaneSet tag (fieldBytes [u8 lane, u32 debounce]) = .request (.laneSet tag lane 0 debounce 0 0) := by
  have whole : fixedBody [1, 4] (fieldBytes [u8 lane, u32 debounce])
      (fun | [l, d] => some (.laneSet tag l 0 d 0 0) | _ => none) = .request (.laneSet tag lane 0 debounce 0 0) :=
    fixedBody_encoded fits rfl rfl
  rw [fieldBytes_u8_cons (by omega)] at whole ⊢
  obtain rfl | rfl := exit
  · exact whole
  · exact whole

theorem decodeLaneSet_entry {tag lane map debounce arm pass : Nat} (entry : ¬ (lane = 0x21 ∨ lane = 0x22))
    (fits : [u8 lane, u8 map, u32 debounce, u8 arm, u16 pass].all Field.fits = true) :
    decodeLaneSet tag (fieldBytes [u8 lane, u8 map, u32 debounce, u8 arm, u16 pass]) =
      .request (.laneSet tag lane map debounce arm pass) := by
  have whole : fixedBody [1, 1, 4, 1, 2] (fieldBytes [u8 lane, u8 map, u32 debounce, u8 arm, u16 pass])
      (fun | [l, m, d, a, p] => some (.laneSet tag l m d a p) | _ => none) =
        .request (.laneSet tag lane map debounce arm pass) := fixedBody_encoded fits rfl rfl
  have small : lane < 256 := u8_fits.1 (List.all_eq_true.1 fits _ List.mem_cons_self)
  rw [fieldBytes_u8_cons small] at whole ⊢
  unfold decodeLaneSet
  split
  case h_3 => exact whole
  case h_1 e => exact absurd (List.cons.inj e).1 fun x => entry (.inl x)
  case h_2 e => exact absurd (List.cons.inj e).1 fun x => entry (.inr x)

theorem decodeAdmit_any {tag lane screen party : Nat}
    (fits : [u8 lane, u8 screen, u8 0, u8 0, u8 0, u16 party].all Field.fits = true) :
    decodeAdmit tag (fieldBytes [u8 lane, u8 screen, u8 0, u8 0, u8 0, u16 party]) =
      .request (.admitCar tag lane screen none party) := by
  have read := parse_fieldBytes fits
  unfold decodeAdmit
  rw [show [1, 1, 1, 1, 1, 2] = [u8 lane, u8 screen, u8 0, u8 0, u8 0, u16 party].map Field.width from rfl, read]
  rfl

theorem decodeAdmit_stall {tag lane screen row position party : Nat}
    (fits : [u8 lane, u8 screen, u8 1, u8 row, u8 position, u16 party].all Field.fits = true) :
    decodeAdmit tag (fieldBytes [u8 lane, u8 screen, u8 1, u8 row, u8 position, u16 party]) =
      .request (.admitCar tag lane screen (some (row, position)) party) := by
  have read := parse_fieldBytes fits
  unfold decodeAdmit
  rw [show [1, 1, 1, 1, 1, 2] = [u8 lane, u8 screen, u8 1, u8 row, u8 position, u16 party].map Field.width from rfl, read]
  rfl

/-- The fields of a layout: its head, the row counts, the fill order behind its count, and the capacity (R116, R197). -/
theorem decodeLayout_encoded {tag n capacity : Nat} {counts fill : List Nat}
    (fits : ([u8 n, u8 counts.length] ++ counts.map u8 ++ [u8 fill.length] ++ fill.map u8 ++ [u16 capacity]).all
      Field.fits = true) :
    decodeLayout tag (fieldBytes ([u8 n, u8 counts.length] ++ counts.map u8 ++ [u8 fill.length] ++ fill.map u8
      ++ [u16 capacity])) = .request (.lotConfigLayout tag n counts.length counts fill capacity) := by
  simp only [List.append_assoc, List.all_append, Bool.and_eq_true] at fits ⊢
  obtain ⟨fitHead, fitCounts, fitFill, fitFills, fitCapacity⟩ := fits
  have countsWidth : counts.length = ((counts.map u8).map Field.width).sum := by rw [map_width_u8]; simp
  have tailRead : parse (List.replicate fill.length 1 ++ [2]) (fieldBytes (fill.map u8 ++ [u16 capacity])) =
      some (fill ++ [capacity]) := by
    have read := parse_fieldBytes (fs := fill.map u8 ++ [u16 capacity]) (by rw [List.all_append, fitFills, fitCapacity]; rfl)
    rw [List.map_append, List.map_append, map_width_u8, map_value_u8] at read
    exact read
  have headRead := parse_fieldBytes fitHead
  have fillRead := parse_fieldBytes fitFill
  unfold decodeLayout
  rw [fieldBytes_take (fs := [u8 n, u8 counts.length]) (n := 2) _ rfl,
    show parse [1, 1] (fieldBytes [u8 n, u8 counts.length]) = some [n, counts.length] from headRead]
  dsimp only
  rw [← List.drop_drop, fieldBytes_drop (fs := [u8 n, u8 counts.length]) (n := 2) _ rfl, fieldBytes_take _ countsWidth,
    parse_bytes fitCounts, fieldBytes_drop _ countsWidth, fieldBytes_take (fs := [u8 fill.length]) (n := 1) _ rfl,
    show parse [1] (fieldBytes [u8 fill.length]) = some [fill.length] from fillRead]
  dsimp only
  rw [show 3 + counts.length = 2 + (counts.length + 1) by omega, ← List.drop_drop, ← List.drop_drop,
    fieldBytes_drop (fs := [u8 n, u8 counts.length]) (n := 2) _ rfl, fieldBytes_drop _ countsWidth,
    fieldBytes_drop (fs := [u8 fill.length]) (n := 1) _ rfl, tailRead]
  simp

theorem pairLines_flatMap (lines : List OrderLine) : pairLines (lines.flatMap fun l => [l.item, l.quantity]) = lines := by
  induction lines with
  | nil => rfl
  | cons l lines ih => rw [List.flatMap_cons, List.cons_append, List.cons_append, List.nil_append, pairLines, ih]

theorem decodePlace_encoded {tag n row position mode : Nat} {lines : List OrderLine}
    (fits : ([u8 n, u8 row, u8 position, u8 mode, u8 lines.length]
      ++ lines.flatMap fun l => [u8 l.item, u8 l.quantity]).all Field.fits = true) :
    decodePlace tag (fieldBytes ([u8 n, u8 row, u8 position, u8 mode, u8 lines.length]
      ++ lines.flatMap fun l => [u8 l.item, u8 l.quantity])) =
        .request (.orderPlace tag n row position mode lines) := by
  rw [List.all_append, Bool.and_eq_true] at fits
  have asBytes : (lines.flatMap fun l => [u8 l.item, u8 l.quantity]) =
      (lines.flatMap fun l => [l.item, l.quantity]).map u8 := by rw [List.map_flatMap]; rfl
  have count : (lines.flatMap fun l => [l.item, l.quantity]).length = 2 * lines.length := by
    rw [List.length_flatMap]; simp [Nat.mul_comm]
  have headRead := parse_fieldBytes fits.1
  have linesRead := parse_bytes (vs := lines.flatMap fun l => [l.item, l.quantity]) (asBytes ▸ fits.2)
  unfold decodePlace
  rw [fieldBytes_take (n := 5) _ rfl,
    show parse [1, 1, 1, 1, 1] _ = some [n, row, position, mode, lines.length] from headRead]
  dsimp only
  rw [fieldBytes_drop (n := 5) _ rfl, asBytes, ← count, linesRead]
  dsimp only
  rw [pairLines_flatMap]

theorem decodeRehearse_plain {tag unit setting : Nat} (fits : [u8 unit, u8 setting, u8 0, u8 0].all Field.fits = true) :
    decodeRehearse tag (fieldBytes [u8 unit, u8 setting, u8 0, u8 0]) = .request (.rehearse tag unit setting none) := by
  unfold decodeRehearse
  rw [show parse [1, 1, 1, 1] _ = some [unit, setting, 0, 0] from parse_fieldBytes fits]
  rfl

theorem decodeRehearse_auto {tag unit setting auto : Nat}
    (fits : [u8 unit, u8 setting, u8 1, u8 auto].all Field.fits = true) :
    decodeRehearse tag (fieldBytes [u8 unit, u8 setting, u8 1, u8 auto]) =
      .request (.rehearse tag unit setting (some auto)) := by
  unfold decodeRehearse
  rw [show parse [1, 1, 1, 1] _ = some [unit, setting, 1, auto] from parse_fieldBytes fits]
  rfl

theorem decodeAnswer_garbled {tag n : Nat} (fits : [u8 n, u8 4, u8 0, u8 0].all Field.fits = true) :
    decodeAnswer tag (fieldBytes [u8 n, u8 4, u8 0, u8 0]) = .request (.injectAnswer tag n 4 0) := by
  unfold decodeAnswer
  rw [show parse [1, 1, 1, 1] _ = some [n, 4, 0, 0] from parse_fieldBytes fits]
  rfl

theorem decodeAnswer_numbered {tag n answer seq : Nat} (fits : [u8 n, u8 answer, u8 1, u8 seq].all Field.fits = true) :
    decodeAnswer tag (fieldBytes [u8 n, u8 answer, u8 1, u8 seq]) = .request (.injectAnswer tag n answer seq) := by
  unfold decodeAnswer
  rw [show parse [1, 1, 1, 1] _ = some [n, answer, 1, seq] from parse_fieldBytes fits]
  rfl

/-! ### Every request -/

theorem fits_tail {f : Field} {fs : List Field} (fits : (f :: fs).all Field.fits = true) : fs.all Field.fits = true := by
  rw [List.all_cons, Bool.and_eq_true] at fits
  exact fits.2

/-! The group that a kind belongs to. -/

theorem decodeRequest_show {kind : Nat} (group : kind < 0x30) (tag : Nat) (b : List Nat) :
    decodeRequest kind tag b = decodeShow kind tag b := if_pos group

theorem decodeRequest_sound {kind : Nat} (group : 0x30 ≤ kind ∧ kind < 0x40) (tag : Nat) (b : List Nat) :
    decodeRequest kind tag b = decodeSound kind tag b := by
  rw [decodeRequest, if_neg (by omega), if_pos group.2]

theorem decodeRequest_lot {kind : Nat} (group : 0x40 ≤ kind ∧ kind < 0x50) (tag : Nat) (b : List Nat) :
    decodeRequest kind tag b = decodeLot kind tag b := by
  rw [decodeRequest, if_neg (by omega), if_neg (by omega), if_pos group.2]

theorem decodeRequest_orders {kind : Nat} (group : 0x50 ≤ kind) (tag : Nat) (b : List Nat) :
    decodeRequest kind tag b = decodeOrders kind tag b := by
  rw [decodeRequest, if_neg (by omega), if_neg (by omega), if_neg (by omega)]

/-! The rows of the kinds whose body has a form byte or a counted list (R195, R197). -/

theorem decodeRequest_phasePolicySet (tag : Nat) (b : List Nat) : decodeRequest 0x2A tag b = formBody b
    (fun b => fixedBody [1, 1, 1, 1, 2] b fun
      | [p, a, i, s, d] => some (.phasePolicySetRow tag p a i s d)
      | _ => none)
    (fun b => fixedBody [2, 2] b fun | [m, l] => some (.phasePolicySetLimits tag m l) | _ => none) := rfl

theorem decodeRequest_clipData (tag : Nat) (b : List Nat) : decodeRequest 0x35 tag b = listBody [1, 3, 1] 2 b fun
    | [i, o], vs => some (.clipData tag i o (vs.map sampleValue))
    | _, _ => none := rfl

theorem decodeRequest_callClipsSet (tag : Nat) (b : List Nat) : decodeRequest 0x39 tag b = formBody b
    (fun b => fixedBody (List.replicate 12 1) b fun
      | p :: q :: ds => some (.callClipsSet tag p q ds)
      | _ => none)
    (fun b => fixedBody [] b fun | [] => some (.callClipsUnconfigure tag) | _ => none) := rfl

theorem decodeRequest_classSet (tag : Nat) (b : List Nat) : decodeRequest 0x3A tag b = formBody b
    (fun b => fixedBody [1, 1, 2, 2] b fun | [c, p, l, w] => some (.classSetRow tag c p l w) | _ => none)
    (fun b => fixedBody [4] b fun | [g] => some (.classSetGap tag g) | _ => none) := rfl

theorem decodeRequest_announce (tag : Nat) (b : List Nat) : decodeRequest 0x3C tag b = listBody [1, 1, 1] 1 b fun
    | [n, c], vs => some (.announce tag n c vs)
    | _, _ => none := rfl

theorem decodeRequest_lotConfig (tag : Nat) (b : List Nat) : decodeRequest 0x46 tag b = formBody b (decodeLayout tag)
    (fun b => fixedBody [1, 2] b fun | [n, c] => some (.lotConfigCapacity tag n c) | _ => none) := rfl

/-- The fields of a request of R195 whose body is of fixed width in one form: the row of the kind reads them back. The
others are read back by the lemmas above, a form byte (R197) coming first. -/
theorem decodeRequest_fields {i : Instr} {kind : Nat} {fs : List Field} (e : requestFields i = some (kind, fs))
    (shape : i.shapeOk = true) (fits : fs.all Field.fits = true) :
    decodeRequest kind i.tag (fieldBytes fs) = .request i := by
  cases i with
  | phasePolicySetRow =>
    cases e
    rw [decodeRequest_phasePolicySet, formBody_first]; exact fixedBody_encoded (fits_tail fits) rfl rfl
  | phasePolicySetLimits =>
    cases e
    rw [decodeRequest_phasePolicySet, formBody_second]; exact fixedBody_encoded (fits_tail fits) rfl rfl
  | classSetRow =>
    cases e
    rw [decodeRequest_classSet, formBody_first]; exact fixedBody_encoded (fits_tail fits) rfl rfl
  | classSetGap =>
    cases e
    rw [decodeRequest_classSet, formBody_second]; exact fixedBody_encoded (fits_tail fits) rfl rfl
  | callClipsUnconfigure =>
    cases e
    rw [decodeRequest_callClipsSet, formBody_second]; exact fixedBody_encoded (fits_tail fits) rfl rfl
  | lotConfigCapacity =>
    cases e
    rw [decodeRequest_lotConfig, formBody_second]; exact fixedBody_encoded (fits_tail fits) rfl rfl
  | callClipsSet tag preamble postamble digits =>
    cases e
    have ten : digits.length = 10 := of_decide_eq_true shape
    rw [decodeRequest_callClipsSet, show [u8 1, u8 preamble, u8 postamble] ++ digits.map u8 =
      u8 1 :: ([u8 preamble, u8 postamble] ++ digits.map u8) from rfl, formBody_first]
    refine fixedBody_encoded (fs := [u8 preamble, u8 postamble] ++ digits.map u8) (fits_tail fits) ?_ ?_
    · rw [List.map_append, map_width_u8, ten]; rfl
    · rw [List.map_append, map_value_u8]; rfl
  | clipData tag id offset samples =>
    cases e
    have inRange : samples.all isClipSample = true := shape
    have back : (samples.map fun v => u16 (sampleBits v)).map (sampleValue ∘ Field.value) = samples := by
      rw [List.map_map]
      exact (List.map_congr_left fun v m => sampleValue_sampleBits (List.all_eq_true.1 inRange v m)).trans (List.map_id _)
    rw [decodeRequest_clipData]
    refine listBody_encoded fits rfl ?_ ?_
    · rw [List.map_map]; exact List.map_const'.symm
    · rw [← List.map_map] at back
      exact congrArg (fun vs => some (Instr.clipData tag id offset vs)) back
  | announce tag n cls clips =>
    cases e
    rw [decodeRequest_announce]
    refine listBody_encoded fits rfl (map_width_u8 clips).symm ?_
    exact congrArg (fun vs => some (Instr.announce tag n cls vs)) (map_value_u8 clips)
  | laneSet tag lane map debounce arm pass =>
    have plain : lane = 0x21 ∨ lane = 0x22 → map = 0 ∧ arm = 0 ∧ pass = 0 := of_decide_eq_true shape
    by_cases exit : lane = 0x21 ∨ lane = 0x22
    · rw [requestFields, if_pos exit] at e
      cases e
      obtain ⟨rfl, rfl, rfl⟩ := plain exit
      rw [decodeRequest_lot (by decide), decodeLot]
      exact decodeLaneSet_exit exit fits
    · rw [requestFields, if_neg exit] at e
      cases e
      rw [decodeRequest_lot (by decide), decodeLot]
      exact decodeLaneSet_entry exit fits
  | admitCar tag lane screen stall party =>
    cases stall with
    | none => cases e; rw [decodeRequest_lot (by decide), decodeLot]; exact decodeAdmit_any fits
    | some p => cases e; rw [decodeRequest_lot (by decide), decodeLot]; exact decodeAdmit_stall fits
  | lotConfigLayout tag n rows counts fill capacity =>
    cases e
    obtain rfl : counts.length = rows := of_decide_eq_true shape
    rw [decodeRequest_lotConfig, show [u8 1, u8 n, u8 counts.length] ++ counts.map u8 ++ [u8 fill.length] ++ fill.map u8
      ++ [u16 capacity] = u8 1 :: ([u8 n, u8 counts.length] ++ counts.map u8 ++ [u8 fill.length] ++ fill.map u8
      ++ [u16 capacity]) from rfl, formBody_first]
    exact decodeLayout_encoded (fits_tail fits)
  | orderPlace => cases e; rw [decodeRequest_orders (by decide), decodeOrders]; exact decodePlace_encoded fits
  | rehearse tag unit setting auto =>
    cases auto with
    | none => cases e; rw [decodeRequest_orders (by decide), decodeOrders]; exact decodeRehearse_plain fits
    | some a => cases e; rw [decodeRequest_orders (by decide), decodeOrders]; exact decodeRehearse_auto fits
  | injectAnswer tag n answer seq =>
    have plain : answer = 4 → seq = 0 := of_decide_eq_true shape
    by_cases garbled : answer = 4
    · rw [requestFields, if_pos garbled] at e
      cases e
      obtain rfl := plain garbled
      subst garbled
      rw [decodeRequest_orders (by decide), decodeOrders]
      exact decodeAnswer_garbled fits
    · rw [requestFields, if_neg garbled] at e
      cases e
      rw [decodeRequest_orders (by decide), decodeOrders]
      exact decodeAnswer_numbered fits
  | powerOnReset | siteResetTakesEffect | unknownKind | linkBusyMark | receiveFrameDiscarded | frameGapTimeout | lineBreak
  | transmitFrameEnd | wholeSecond | expirySweep | lateWindowEnd | showStartTimeReached | holdExpired | framePulse
  | pictureStall | timebaseFrame | skipTimebaseFrame | holdEntryElapsed | verbLineSent | cueLineReceived | answerTimeout
  | backoffEnd | sampleFrame | blockStart | blockEnd | announcementExpiry | gapEnd | loopRawChange | arriveSettles
  | clearSettles | exitSettles | armupAsserted | armdnAsserted | armTimeout | passTimeout | callRepeatDue | buttonBump
  | autoAnswer | generatedFramePulse | simulatedArmTravelEnd | startByteReceived => cases e
  | hello | siteStatus | siteReset | timeSet | noticeMask | cueWrite | cueRead | showLoad | showStart | showNext
  | showAbort | showRelease | showPromote | screenStatus | screenReset | cueLineSet | faultRead | faultClear
  | projectorPass =>
    cases e
    refine (decodeRequest_show (by decide) _ _).trans ?_
    rw [decodeShow]
    exact fixedBody_encoded fits rfl rfl
  | mixSet | partitionSet | levelRead | monitorSelect | clipBegin | clipEnd | clipFree | clipList | routeSet
  | announceCancel | queueRead =>
    cases e
    refine (decodeRequest_sound (by decide) _ _).trans ?_
    rw [decodeSound]
    exact fixedBody_encoded fits rfl rfl
  | laneOpen | laneClose | refuse | attendantPass | stallRead | stallBlock | stallUnblock | depart | sweep
  | countersRead =>
    cases e
    refine (decodeRequest_lot (by decide) _ _).trans ?_
    rw [decodeLot]
    exact fixedBody_encoded fits rfl rfl
  | itemClassSet | stationSet | orderCancel | orderCollect | orderDelivered | bump | orderRead | stationRead
  | orderPolicySet | injectEnded | injectStall | injectResume | injectLoop | injectJam | injectBump =>
    cases e
    refine (decodeRequest_orders (by decide) _ _).trans ?_
    rw [decodeOrders]
    exact fixedBody_encoded fits rfl rfl

/-- Settles O9: the fields of a well-formed request fit their widths, so each form of a body reads them back. -/
theorem decodeOfEncodeIsTheRequest : Obligations.DecodeOfEncodeIsTheRequest := by
  intro i kind body wf encoded
  obtain ⟨⟨k, fs⟩, fields, pair⟩ := Option.map_eq_some_iff.1 encoded
  obtain ⟨rfl, rfl⟩ := Prod.mk.inj pair
  rw [Instr.wf, fields, Bool.and_eq_true, Bool.and_eq_true, Bool.and_eq_true] at wf
  obtain ⟨shape, ⟨fits, -⟩, -⟩ := wf
  exact decodeRequest_fields fields shape fits

end Machine
end Sys2Proof
end


-- ==== Sys2Proof/Proofs/SiteLink.lean ====
section
/-! The Site Link Interface (chapter 11): the framer, the request frames that are not taken, the frames it answers by
itself, the transmitter, and the requests about the link. -/

set_option autoImplicit false

namespace Sys2Proof
namespace Machine

/-! ### Request frames that are not taken (R189, R201) -/

theorem execSiteStatus_receives (tag clear : Nat) (s : State) :
    ∃ rule after, execSiteStatus tag clear s = .next (s.receive 0x11 tag rule after) := by
  unfold execSiteStatus
  split
  · exact ⟨_, _, rfl⟩
  · exact ⟨_, _, rfl⟩

theorem execLevelRead_receives (tag screen clear : Nat) (s : State) :
    ∃ rule after, execLevelRead tag screen clear s = .next (s.receive 0x32 tag rule after) := by
  unfold execLevelRead
  split
  · split
    · exact ⟨_, _, rfl⟩
    · exact ⟨_, _, rfl⟩
  · exact ⟨_, _, rfl⟩

theorem execLaneSet_receives (tag lane map debounce arm pass : Nat) (s : State) :
    ∃ rule after, execLaneSet tag lane map debounce arm pass s = .next (s.receive 0x40 tag rule after) := by
  unfold execLaneSet
  split
  · exact ⟨_, _, rfl⟩
  · exact ⟨_, _, rfl⟩

/-- Every request of R195 goes through the receive buffer under its kind and tag, whatever its rule. -/
theorem exec_receives {i : Instr} {kind : Nat} {fs : List Field} (e : requestFields i = some (kind, fs)) (s : State) :
    ∃ rule after, exec i s = .next (s.receive kind i.tag rule after) := by
  cases i with
  | siteStatus => cases e; exact execSiteStatus_receives _ _ s
  | levelRead => cases e; exact execLevelRead_receives _ _ _ s
  | laneSet => cases e; exact execLaneSet_receives _ _ _ _ _ _ s
  | admitCar _ _ _ stall _ =>
    cases stall with
    | none => cases e; exact ⟨_, _, rfl⟩
    | some p => cases e; exact ⟨_, _, rfl⟩
  | rehearse _ _ _ auto =>
    cases auto with
    | none => cases e; exact ⟨_, _, rfl⟩
    | some a => cases e; exact ⟨_, _, rfl⟩
  | _ => cases e <;> exact ⟨_, _, rfl⟩

/-- A checked frame at a buffer that holds 4 requests (R189). -/
theorem State.busyFrame_eq (kind tag : Nat) (s : State) :
    (s.onLink fun l => { l with framer := .hunting }).busyFrame kind tag =
      if s.link.busyMarks < 4 then
        { s.taken with
          link :=
            { s.link with
              framer := .hunting
              busyCount := bumpTo 65535 s.link.busyCount
              buffer := s.link.buffer ++
                [{ kind := kind, tag := tag, busy := true, siteReset := false,
                   reply := some { status := .linkBusy, flags := s.flagByte, fields := [] } }] } }
      else
        { s with link := { s.link with framer := .hunting, linkErrors := bumpTo 65535 s.link.linkErrors } } := rfl

/-- Settles O11: a request of R195 goes through the receive buffer, which makes the same of every frame once it holds 4
requests; LINK_BUSY_MARK is that frame itself. -/
theorem fullBufferMarksBusy : Obligations.FullBufferMarksBusy := by
  intro i kind s frame full
  rw [← State.busyFrame_eq]
  obtain ⟨fields, e⟩ | e := frame
  · obtain ⟨rule, after, run⟩ := exec_receives e s
    rw [run, State.receive_busy _ _ _ _ _ full]
  · rw [e]
    exact congrArg Host.Outcome.next (if_pos full)

/-! ### What the taking of a request leaves (R187, R192) -/

theorem Outbox.startReply_eq (o : Outbox) : o.startReply = { o with tx := o.startReply.tx } := by
  unfold Outbox.startReply
  split
  · rfl
  · rfl

theorem State.taken_flagByte (s : State) : s.taken.flagByte = s.flagByte := by
  have lost : s.house.out.startReply.noticeLost = s.house.out.noticeLost := by rw [Outbox.startReply_eq]
  exact congrArg (fun b => flagCode b + 2 * flagCode s.house.timeUnset + 4 * flagCode s.rehearsing) lost

theorem State.taken_siteStatus (s : State) : s.taken.siteStatus = s.siteStatus := by
  have e := Outbox.startReply_eq s.house.out
  unfold State.siteStatus
  rw [show s.taken.house = { s.house with out := s.house.out.startReply } from rfl, e]
  rfl

/-! ### SITE RESET (R201) -/

theorem List.modify_last {α : Type} (f : α → α) (l : List α) (a : α) :
    (l ++ [a]).modify ((l ++ [a]).length - 1) f = l ++ [f a] := by
  rw [List.length_append, List.length_singleton, Nat.add_sub_cancel]
  induction l with
  | nil => rfl
  | cons b l ih => exact congrArg (b :: ·) ih

/-- Settles O18: the reply of a SITE RESET is the last place of the reply order, which is the one it marks; the frames
behind it are the untaken case of a request frame. -/
theorem siteResetWaitsForItsReply : Obligations.SiteResetWaitsForItsReply := by
  intro tag s
  refine ⟨fun a => ?_, fun i kind fields e room waits => ?_, fun e rest tx buffer mark waits => ?_⟩
  case refine_1 =>
    have run : exec (.siteReset tag) s = .next (s.receive 0x12 tag (fun s => (s, ok [])) State.markReset) := rfl
    rw [run, State.receive_taken _ _ _ _ _ a]
    refine congrArg Host.Outcome.next ?_
    unfold State.markReset State.onLink
    dsimp only [State.answered, ok]
    rw [List.modify_last, State.taken_flagByte]
    rfl
  case refine_2 =>
    obtain ⟨rule, after, run⟩ := exec_receives e s
    rw [run, State.receive_untaken _ _ _ _ _ room waits]
    rfl
  case refine_3 =>
    have sent : s.frameSent = s.siteReset := by
      unfold State.frameSent
      rw [tx, buffer]
      exact if_pos mark
    have acts : exec .siteResetTakesEffect s = .next (if s.link.resetTaken then s.siteReset else s) := rfl
    rw [acts, if_pos waits, ← sent]
    rfl

/-! ### The framer (R186 to R188) -/

theorem crcBit_lt {c : Nat} (small : c < 65536) : crcBit c < 65536 := by
  unfold crcBit
  split
  · omega
  · exact Nat.xor_lt_two_pow (n := 16) (by omega) (by decide)

theorem crcByte_lt {c b : Nat} (small : c < 65536) (byte : b < 256) : crcByte c b < 65536 := by
  have start : Nat.xor c (b * 256) < 65536 := Nat.xor_lt_two_pow (n := 16) (by omega) (by omega)
  exact crcBit_lt (crcBit_lt (crcBit_lt (crcBit_lt (crcBit_lt (crcBit_lt (crcBit_lt (crcBit_lt start)))))))

theorem foldl_crcByte_lt {bs : List Nat} (bytes : ∀ b ∈ bs, b < 256) {c : Nat} (small : c < 65536) :
    bs.foldl crcByte c < 65536 := by
  induction bs generalizing c with
  | nil => exact small
  | cons b bs ih =>
    rw [List.foldl_cons]
    exact ih (fun x m => bytes x (List.mem_cons_of_mem _ m)) (crcByte_lt small (bytes b List.mem_cons_self))

theorem crc16_lt {bs : List Nat} (bytes : ∀ b ∈ bs, b < 256) : crc16 bs < 65536 := foldl_crcByte_lt bytes (by decide)

/-- The bytes of a frame up to its end, whatever the two bytes of its CRC (R187). -/
theorem judgeFrame_whole {kind tag : Nat} {body crc : List Nat} (room : body.length ≤ 240) (two : crc.length = 2) :
    judgeFrame (((body.length + 2) :: kind :: tag :: body) ++ crc) =
      if ofBytesBE crc = crc16 ((body.length + 2) :: kind :: tag :: body) then .checked kind tag body else .badCrc := by
  have take : ((kind :: tag :: body) ++ crc).take (body.length + 2) = kind :: tag :: body := List.take_left' rfl
  have drop : ((kind :: tag :: body) ++ crc).drop (body.length + 2) = crc := List.drop_left' rfl
  have whole : ((kind :: tag :: body) ++ crc).length = body.length + 2 + 2 := by
    rw [List.length_append, two]; rfl
  rw [List.cons_append, judgeFrame, if_neg (by omega), if_neg (by omega), take, drop, List.take_of_length_le (by omega)]
  rfl

theorem judgeFrame_frameBytes {kind tag : Nat} {body : List Nat} (k : kind < 256) (t : tag < 256)
    (bytes : ∀ b ∈ body, b < 256) (room : body.length ≤ 240) :
    judgeFrame ((frameBytes kind tag body).drop 1) = .checked kind tag body := by
  have small : crc16 ((body.length + 2) :: kind :: tag :: body) < 65536 := crc16_lt fun b m => by
    rcases List.mem_cons.1 m with rfl | m
    · omega
    rcases List.mem_cons.1 m with rfl | m
    · exact k
    rcases List.mem_cons.1 m with rfl | m
    · exact t
    exact bytes b m
  exact (judgeFrame_whole room (bytesBE_length 2 _)).trans (if_pos (ofBytesBE_bytesBE small))

theorem judgeFrame_wrongCrc {kind tag hi lo : Nat} {body : List Nat} (room : body.length ≤ 240)
    (wrong : hi * 256 + lo ≠ crc16 ((body.length + 2) :: kind :: tag :: body)) :
    judgeFrame (((body.length + 2) :: kind :: tag :: body) ++ [hi, lo]) = .badCrc := by
  have value : ofBytesBE [hi, lo] = hi * 256 + lo := by simp [ofBytesBE]
  rw [judgeFrame_whole room rfl, value, if_neg wrong]

/-- Settles O10. -/
theorem framerChecksFrames : Obligations.FramerChecksFrames := by
  refine ⟨fun kind tag body k t bytes room => ⟨judgeFrame_frameBytes k t bytes room, fun hi lo _ _ wrong =>
    judgeFrame_wrongCrc room wrong⟩, fun s => ⟨rfl, rfl, fun collecting => ?_, fun bytes verdict => ?_⟩⟩
  · have run : exec .frameGapTimeout s = execFrameGapTimeout s := rfl
    rw [run, execFrameGapTimeout, collecting]
    rfl
  · have run : exec (.receiveFrameDiscarded bytes) s = execReceiveFrameDiscarded bytes s := rfl
    rw [run, execReceiveFrameDiscarded]
    obtain e | e := verdict
    · rw [e]; rfl
    · rw [e]; rfl

/-! ### Frames that the Site Link Interface answers by itself (R190, R195) -/

theorem parse_length {ws bs vs : List Nat} (e : parse ws bs = some vs) : bs.length = ws.sum := by
  induction ws generalizing bs vs with
  | nil =>
    cases bs with
    | nil => rfl
    | cons b bs => cases e
  | cons w ws ih =>
    rw [parse] at e
    split at e
    · cases e
    · obtain ⟨us, rest, -⟩ := Option.map_eq_some_iff.1 e
      have tail := ih rest
      rw [List.length_drop] at tail
      rw [List.sum_cons]
      omega

theorem fixedBody_wrongLength {ws b : List Nat} {row : List Nat → Option Instr} (wrong : b.length ≠ ws.sum) :
    fixedBody ws b row = .badLength := by
  have unread : parse ws b = none := by
    cases e : parse ws b with
    | none => rfl
    | some vs => exact absurd (parse_length e) wrong
  rw [fixedBody, unread]

/-- The kinds of one byte are read by the row of a fixed width of 1. -/
theorem decodeRequest_oneByte {kind : Nat} (one : kind ∈ oneByteKinds) (tag : Nat) (b : List Nat) :
    ∃ row, decodeRequest kind tag b = fixedBody [1] b row := by
  simp only [oneByteKinds, List.mem_cons, List.not_mem_nil, or_false] at one
  rcases one with rfl | rfl | rfl | rfl | rfl | rfl | rfl | rfl | rfl | rfl | rfl | rfl | rfl | rfl | rfl | rfl | rfl | rfl
    | rfl | rfl | rfl | rfl | rfl <;> exact ⟨_, rfl⟩

theorem decodeShow_unlisted {kind : Nat} (unlisted : kind ∉ requestKinds) (tag : Nat) (b : List Nat) :
    decodeShow kind tag b = .badKind := by
  unfold decodeShow
  split
  case h_21 => rfl
  all_goals exact absurd (by decide) unlisted

theorem decodeSound_unlisted {kind : Nat} (unlisted : kind ∉ requestKinds) (tag : Nat) (b : List Nat) :
    decodeSound kind tag b = .badKind := by
  unfold decodeSound
  split
  case h_16 => rfl
  all_goals exact absurd (by decide) unlisted

theorem decodeLot_unlisted {kind : Nat} (unlisted : kind ∉ requestKinds) (tag : Nat) (b : List Nat) :
    decodeLot kind tag b = .badKind := by
  unfold decodeLot
  split
  case h_14 => rfl
  all_goals exact absurd (by decide) unlisted

theorem decodeOrders_unlisted {kind : Nat} (unlisted : kind ∉ requestKinds) (tag : Nat) (b : List Nat) :
    decodeOrders kind tag b = .badKind := by
  unfold decodeOrders
  split
  case h_19 => rfl
  all_goals exact absurd (by decide) unlisted

theorem decodeRequest_unlisted {kind : Nat} (unlisted : kind ∉ requestKinds) (tag : Nat) (b : List Nat) :
    decodeRequest kind tag b = .badKind := by
  unfold decodeRequest
  split
  · exact decodeShow_unlisted unlisted tag b
  split
  · exact decodeSound_unlisted unlisted tag b
  split
  · exact decodeLot_unlisted unlisted tag b
  · exact decodeOrders_unlisted unlisted tag b

/-- PHASE POLICY SET with no byte after its form byte: neither form has that length. -/
theorem decodeRequest_bareForm (tag form : Nat) : decodeRequest 0x2A tag [form] = .badLength := by
  rw [decodeRequest_phasePolicySet]
  unfold formBody
  split
  case h_1 e => cases e
  case h_2 rest e => cases e; rfl
  case h_3 rest e => cases e; rfl
  case h_4 e => cases e; rfl

/-- ADMIT with a presence byte that names nothing (R197). -/
theorem decodeRequest_wrongPresence {presence : Nat} (wrong : 1 < presence) (tag lane screen row position high low : Nat) :
    decodeRequest 0x43 tag [lane, screen, presence, row, position, high, low] = .badValue lane := by
  have read : parse [1, 1, 1, 1, 1, 2] [lane, screen, presence, row, position, high, low] =
      some [lane, screen, presence, row, position, high * 256 + low] := by
    simp [parse, ofBytesBE]
  rw [decodeRequest_lot (by decide), decodeLot]
  unfold decodeAdmit
  rw [read]
  obtain ⟨p, rfl⟩ : ∃ p, presence = p + 2 := ⟨presence - 2, by omega⟩
  rfl

theorem exec_unknownKind {kind tag : Nat} {body : List Nat} (room : body.length ≤ 240) {verdict : WireVerdict}
    {s : State} (decoded : decodeRequest kind tag body = verdict) :
    (verdict = .badKind →
      exec (.unknownKind kind tag body) s = readRequest kind tag (fun _ => refuse .badKind []) s)
    ∧ (verdict = .badLength →
      exec (.unknownKind kind tag body) s = readRequest kind tag (fun _ => refuse .badLength []) s)
    ∧ ∀ unit, verdict = .badValue unit →
      exec (.unknownKind kind tag body) s = request kind tag (namedRefusal unit) s := by
  have run : exec (.unknownKind kind tag body) s = execUnknownKind kind tag body s := rfl
  rw [run, execUnknownKind, if_neg (Nat.not_lt.2 room), decoded]
  exact ⟨fun e => by rw [e], fun e => by rw [e], fun unit e => by rw [e]⟩

/-- A read whose answer is a refusal changes nothing but the link (R190). -/
theorem readRequest_refused {kind tag : Nat} {answer : State → Answer} {s : State} {st : Status} {detail : List Field}
    (a : s.accepting) (e : answer s.taken = refuse st detail) :
    readRequest kind tag answer s = .next (s.turnedDown kind tag st detail) :=
  request_refused a (congrArg (s.taken, ·) e)

/-- A rule that names an entry lane, for the code of lane `k`: its answer, and the lane's block behind it (R93). -/
theorem onEntry_of {lane : Nat} {k : EntryId} (named : entryOfCode lane = some k)
    (rule : EntryId → State → State × Answer) (s : State) :
    onEntry lane rule s = ((rule k s).1, { (rule k s).2 with fields := (rule k s).2.fields ++ ((rule k s).1.lane k).block }) := by
  rw [onEntry, named]

/-- Settles O12: each of the three is what the decoder makes of the frame. -/
theorem unknownKindIsAnswered : Obligations.UnknownKindIsAnswered := by
  intro kind tag body s a room
  refine ⟨fun unlisted => ?_, fun one wrong => ?_, fun form => ?_,
    fun lane k screen presence row position high low named wrong => ?_⟩
  · rw [(exec_unknownKind room (decodeRequest_unlisted unlisted tag body)).1 rfl]
    exact readRequest_refused a rfl
  · obtain ⟨row, decoded⟩ := decodeRequest_oneByte one tag body
    rw [fixedBody_wrongLength wrong] at decoded
    rw [(exec_unknownKind room decoded).2.1 rfl]
    exact readRequest_refused a rfl
  · have short : [form].length ≤ 240 := Nat.le_of_ble_eq_true rfl
    rw [(exec_unknownKind short (decodeRequest_bareForm tag form)).2.1 rfl]
    exact readRequest_refused a rfl
  · have short : [lane, screen, presence, row, position, high, low].length ≤ 240 := Nat.le_of_ble_eq_true rfl
    rw [(exec_unknownKind short (decodeRequest_wrongPresence wrong tag lane screen row position high low)).2.2 lane rfl]
    exact request_refused a (onEntry_of named _ _)

/-! ### The transmitter (R192, R193) -/

theorem State.chooseFrame_reply {s : State} {f : LinkEntry} {more : List LinkEntry} (head : s.link.buffer = f :: more)
    (filled : f.reply.isSome = true) :
    s.chooseFrame = s.onHouse fun h => { h with out := { h.out with tx := .reply } } := by
  rw [State.chooseFrame, head]
  exact if_pos filled

theorem State.chooseFrame_notice {s : State}
    (unfilled : ∀ (f : LinkEntry) (more : List LinkEntry), s.link.buffer = f :: more → f.reply = none) :
    s.chooseFrame = s.onHouse fun h => { h with out := h.out.startNotice } := by
  unfold State.chooseFrame
  cases e : s.link.buffer with
  | nil => rfl
  | cons f more => exact if_neg (by rw [unfilled f more e]; decide)

/-- A frame sent whole: the reply at the head leaves the buffer, and the transmitter chooses anew. -/
theorem State.frameSent_eq {s : State} {rest : List LinkEntry}
    (sent : (∃ e, s.house.out.tx = .reply ∧ s.link.buffer = e :: rest ∧ e.siteReset = false)
      ∨ ∃ m, s.house.out.tx = .notice m ∧ s.link.buffer = rest) :
    s.frameSent = (s.freeTransmitter.onLink fun l => { l with buffer := rest }).chooseFrame := by
  unfold State.frameSent
  obtain ⟨e, tx, buffer, plain⟩ | ⟨m, tx, buffer⟩ := sent
  · rw [tx, buffer]
    exact if_neg (by rw [plain]; decide)
  · rw [tx, ← buffer]
    rfl

/-- Settles O13. -/
theorem transmitterTakesRepliesFirst : Obligations.TransmitterTakesRepliesFirst := by
  intro s rest sent
  have run : exec .transmitFrameEnd s = .next s.frameSent := rfl
  rw [run, State.frameSent_eq sent]
  refine ⟨fun f more head filled => ?_, fun unfilled => ?_⟩
  · rw [State.chooseFrame_reply head filled]
    rfl
  · rw [State.chooseFrame_notice unfilled]
    refine ⟨fun empty => ?_, fun m ms queue => ?_⟩
    · have none : { s.house.out with tx := .idle }.startNotice = { s.house.out with tx := .idle } := by
        rw [Outbox.startNotice, empty]
      exact congrArg (fun o => Host.Outcome.next { s with link := { s.link with buffer := rest }
                                                          house := { s.house with out := o } }) none
    · have next : { s.house.out with tx := .idle }.startNotice = { s.house.out with tx := .notice m, notices := ms } := by
        rw [Outbox.startNotice, queue]
      exact congrArg (fun o => Host.Outcome.next { s with link := { s.link with buffer := rest }
                                                          house := { s.house with out := o } }) next

/-! ### SITE STATUS and NOTICE MASK (R193, R194, R200) -/

theorem Outbox.push_off {n : Notice} {o : Outbox} (off : o.mask.testBit n.kind.bit = false) : o.push n = o := by
  rw [Outbox.push, off]
  rfl

theorem Outbox.push_full {n : Notice} {o : Outbox} (on : o.mask.testBit n.kind.bit = true) (full : 32 ≤ o.notices.length) :
    o.push n = { o with noticeLost := true, lostCount := bumpTo 255 o.lostCount } := by
  rw [Outbox.push, if_pos on, if_neg (Nat.not_lt.2 full)]

theorem Outbox.push_room {n : Notice} {o : Outbox} (on : o.mask.testBit n.kind.bit = true) (room : o.notices.length < 32) :
    o.push n = { o with notices := o.notices ++ [n] }.startNotice := by
  rw [Outbox.push, if_pos on, if_pos room]

theorem Outbox.startNotice_busy {o : Outbox} (busy : o.tx ≠ .idle) : o.startNotice = o := by
  unfold Outbox.startNotice
  split
  case h_1 e _ => exact absurd e busy
  case h_2 => rfl

theorem siteStatus_taken {tag clear : Nat} {s : State} (a : s.accepting) (flag : clear ≤ 1) :
    exec (.siteStatus tag clear) s =
      .next (State.clearStatus (clear = 1) (s.taken.answered 0x11 tag .ok s.siteStatus)) := by
  have run : exec (.siteStatus tag clear) s = execSiteStatus tag clear s := rfl
  rw [run, execSiteStatus, if_pos (show isFlag clear = true from decide_eq_true flag), State.receive_taken _ _ _ _ _ a]
  dsimp only [ok]
  rw [State.taken_siteStatus]

theorem siteStatus_refused {tag clear : Nat} {s : State} (a : s.accepting) (wrong : 1 < clear) :
    exec (.siteStatus tag clear) s = .next (s.turnedDown 0x11 tag .badValue []) := by
  have run : exec (.siteStatus tag clear) s = execSiteStatus tag clear s := rfl
  rw [run, execSiteStatus, if_neg (by simpa [isFlag] using wrong)]
  exact readRequest_refused a rfl

theorem noticeMask_taken {tag mask : Nat} {s : State} (a : s.accepting) (small : mask < 4194304) :
    exec (.noticeMask tag mask) s = .next (s.replied
      { s.taken.house with out := { s.taken.house.out with mask := mask } } 0x14 tag []) :=
  houseRequest_accepted a (if_neg (Nat.not_le.2 small))

theorem noticeMask_refused {tag mask : Nat} {s : State} (a : s.accepting) (large : 4194304 ≤ mask) :
    exec (.noticeMask tag mask) s = .next (s.turnedDown 0x14 tag .badValue []) :=
  houseRequest_refused a (if_pos large)

/-- Settles O15. -/
theorem siteStatusAndNoticeMask : Obligations.SiteStatusAndNoticeMask := by
  refine ⟨fun n o => ⟨Outbox.push_off, Outbox.push_full, fun on room => ⟨fun busy => ?_, fun idle empty => ?_⟩⟩,
    fun tag s a => ⟨siteStatus_taken a (by decide), siteStatus_taken a (by decide), fun clear => siteStatus_refused a,
      fun mask => ⟨noticeMask_taken a, noticeMask_refused a⟩⟩⟩
  · rw [Outbox.push_room on room, Outbox.startNotice_busy (o := { o with notices := o.notices ++ [n] }) busy]
  · rw [Outbox.push_room on room, Outbox.startNotice, empty]
    dsimp only [List.nil_append]
    rw [idle]

end Machine
end Sys2Proof
end


-- ==== Sys2Proof/Proofs/Resets.lean ====
section
/-! Power-on reset (R203) and SITE RESET (R201): every block after them. -/

set_option autoImplicit false

namespace Sys2Proof
namespace Machine

/-! ### The tables of a reset house -/

@[simp] theorem House.reset_ctl (n : Screen) : House.reset.ctl n = .reset := tget_replicate _ _
@[simp] theorem House.reset_gain (n : Screen) : House.reset.gain n = .reset := tget_replicate _ _
@[simp] theorem House.reset_queue (n : Screen) : House.reset.queue n = [] := tget_replicate _ _
@[simp] theorem House.reset_player (n : Screen) : House.reset.player n = .quiet := tget_replicate _ _
@[simp] theorem House.reset_lot (n : Screen) : House.reset.lot n = .reset := tget_replicate _ _
@[simp] theorem House.reset_station (st : StationId) : House.reset.station st = .reset := tget_replicate _ _

theorem getD_getElem?_replicate {α : Type} (n i : Nat) (a : α) : ((Vector.replicate n a)[i]?).getD a = a := by
  rw [Vector.getElem?_replicate]
  split
  · rfl
  · rfl

@[simp] theorem House.reset_cue (i : Nat) : House.reset.cue i = .blank := getD_getElem?_replicate _ _ _

@[simp] theorem House.reset_clip (id : Nat) : House.reset.clip id = .blank := by
  unfold House.clip
  split
  · rfl
  · exact getD_getElem?_replicate _ _ _

@[simp] theorem House.reset_item? (c : Nat) : House.reset.item? c = none := by
  unfold House.item?
  split
  · rfl
  · exact getD_getElem?_replicate _ _ _

/-! ### Power-on reset (R203) -/

/-- The cue line of a screen after a reset: a verb line being sent finishes sending (R46). -/
theorem tget_siteReset_lines (h : House) (n : Screen) :
    tget (h.lines.map CueLine.siteReset) n = { CueLine.reset with sendingLines := (h.line n).sendingLines.take 1 } :=
  tget_map _ _ _

/-- Settles O17: the state of `State.powerOn`, block by block. -/
theorem powerOnResetSetsEverything : Obligations.PowerOnResetSetsEverything := by
  intro b1 b0 s
  refine ⟨s.powerOn b1 b0, rfl, rfl, rfl, rfl, House.reset_cue, rfl, rfl, rfl, fun n => ?screens, House.reset_clip, rfl,
    rfl, rfl, fun c => tget_replicate _ _, rfl, fun n => tget_replicate _ _, rfl, rfl, rfl, rfl, House.reset_item?,
    House.reset_station, rfl, rfl, fun k => ?lanes, fun j => ?exits, rfl, rfl, rfl, rfl, rfl, rfl, rfl, rfl, rfl, rfl⟩
  case screens =>
    exact ⟨House.reset_ctl n, House.reset_gain n, House.reset_queue n, House.reset_player n, House.reset_lot n,
      tget_replicate _ _, tget_siteReset_lines s.house n⟩
  case lanes => exact tget_map _ _ _
  case exits => exact tget_map _ _ _

/-! ### SITE RESET (R201) -/

/-- A lane that SITE RESET releases: RAISE-k falls unless the clear loop is OCCUPIED (R96). -/
theorem EntryLane.drive_released {l : EntryLane} (demand : l.demand = false) (rehearsal : l.rehearsal = false)
    (state : l.state ≠ .lowering) : l.drive = { l with raise := l.clear.occupied && l.raise } := by
  unfold EntryLane.drive EntryLane.setRaise
  rw [demand]
  cases occupied : l.clear.occupied with
  | true => cases l; cases demand; simp
  | false => simp [rehearsal, state]

/-- The lane after SITE RESET, whose inputs and RAISE-k are those of `m`. -/
def EntryLane.released (m : EntryLane) : EntryLane :=
  { m with
    state := .closed, closePending := false, refused := false, grant := none, settings := .initial, demand := false,
    armTimer := none, passTimer := none, counters := .zero, raise := m.clear.occupied && m.raise }

theorem EntryLane.siteReset_eq (l : EntryLane) :
    l.siteReset = (if l.rehearsal then l.leaveRehearsal else l).released := by
  have outside : (if l.rehearsal then l.leaveRehearsal else l).rehearsal = false := by
    cases e : l.rehearsal with
    | true => rfl
    | false => exact e
  exact EntryLane.drive_released rfl outside nofun

/-- A clip record after SITE RESET keeps all but its references, which are its roles in the call-clip configuration
(R73). -/
theorem House.siteReset_clip (h : House) {i : Nat} (inside : i < 127) :
    h.siteReset.clip (i + 1) =
      { h.clip (i + 1) with refs := ((h.callClips.map CallClips.roles).getD []).count (i + 1) } := by
  have inTable (v : Vector ClipRec 127) : (v[i]?).getD .blank = tget v ⟨i, inside⟩ := by
    rw [Vector.getElem?_eq_getElem inside]; rfl
  rw [House.clip_succ, House.clip_succ, inTable, inTable, show h.siteReset.clips = h.rolesOnly from rfl, House.rolesOnly,
    tget_ofFn]

theorem House.clip_outside (h : House) {id : Nat} (outside : id = 0 ∨ 127 < id) : h.clip id = .blank := by
  obtain rfl | large := outside
  · rfl
  · obtain ⟨i, rfl⟩ : ∃ i, id = i + 1 := ⟨id - 1, by omega⟩
    rw [House.clip_succ, Vector.getElem?_eq_none (by omega)]
    rfl

theorem House.siteReset_clips (h : House) (id : Nat) :
    (h.siteReset.clip id).state = (h.clip id).state ∧ (h.siteReset.clip id).length = (h.clip id).length
      ∧ (h.siteReset.clip id).pages = (h.clip id).pages
      ∧ (1 ≤ id → id ≤ 127 → (h.siteReset.clip id).refs = ((h.callClips.map CallClips.roles).getD []).count id) := by
  by_cases inside : 1 ≤ id ∧ id ≤ 127
  · obtain ⟨i, rfl⟩ : ∃ i, id = i + 1 := ⟨id - 1, by omega⟩
    rw [h.siteReset_clip (by omega)]
    exact ⟨rfl, rfl, rfl, fun _ _ => rfl⟩
  · have outside : id = 0 ∨ 127 < id := by omega
    rw [House.clip_outside _ outside, House.clip_outside _ outside]
    exact ⟨rfl, rfl, rfl, fun low high => absurd ⟨low, high⟩ inside⟩

theorem Channel.siteReset_eq (tail : Option ClipTail) (c : Channel) :
    c.siteReset tail = { c with
      staged := none
      stagedReset := some (match c.stagedReset with
        | some .screen | some .both => .both
        | some .site | none => .site)
      tail := tail.or c.tail } := by
  unfold Channel.siteReset StagedReset.joinSite
  cases c.stagedReset with
  | none => rfl
  | some r => cases r <;> rfl

theorem State.siteReset_lane (s : State) (k : EntryId) :
    s.siteReset.lane k = (if (s.lane k).rehearsal then (s.lane k).leaveRehearsal else s.lane k).released :=
  (tget_map _ _ _).trans (EntryLane.siteReset_eq _)

theorem exec_siteResetTakesEffect {s : State} (waits : s.link.resetTaken = true) :
    exec .siteResetTakesEffect s = .next s.siteReset := by
  have run : exec .siteResetTakesEffect s = .next (if s.link.resetTaken then s.siteReset else s) := rfl
  rw [run, if_pos waits]

/-- Settles O19: the state of `State.siteReset`, block by block. -/
theorem siteResetTakesEffect : Obligations.SiteResetTakesEffect := by
  intro s waits
  refine ⟨s.siteReset, exec_siteResetTakesEffect waits, rfl, rfl, rfl, House.reset_cue, rfl, rfl, rfl, fun n => ?screens,
    House.siteReset_clips s.house, rfl, rfl, rfl, rfl, rfl, fun n => tget_replicate _ _, rfl, rfl, rfl, rfl,
    House.reset_item?, rfl, rfl, fun st => tget_map _ _ _, fun k => ?lanes, fun j => tget_map _ _ _, rfl, rfl, rfl, rfl,
    rfl, rfl, rfl, rfl⟩
  case screens =>
    exact ⟨House.reset_ctl n, House.reset_queue n, House.reset_player n, House.reset_lot n, rfl,
      (tget_ofFn _ _).trans (Channel.siteReset_eq _ _), tget_siteReset_lines s.house n⟩
  case lanes =>
    rw [State.siteReset_lane]
    cases rehearsing : (s.lane k).rehearsal with
    | true => exact ⟨rfl, rfl, rfl, rfl, rfl, rfl, rfl, rfl, rfl, rfl, rfl, nofun, fun _ => ⟨rfl, rfl⟩⟩
    | false => exact ⟨rfl, rfl, rfl, rfl, rehearsing, rfl, rfl, rfl, rfl, rfl, rfl, fun _ => ⟨rfl, rfl⟩, nofun⟩

end Machine
end Sys2Proof
end


-- ==== Sys2Proof/Proofs/Millisecond.lean ====
section
/-! A step on an empty queue (log entry 3): the counts move on, and the rows whose counts have run out happen. -/

set_option autoImplicit false

namespace Sys2Proof
namespace Machine

/-! ### The counts move on -/

theorem House.running_iff (h : House) (n : Screen) (k : EntryKind) :
    h.running n k = true ↔ (h.ctl n).state = .showing ∧ (h.entry n).kind = k ∧ (h.ctl n).finalHalt = false := by
  simp [House.running, and_assoc]

/-- A screen is in an entry of a kind, as `ShowCtl.pass` asks it of the controller and its entry. -/
theorem House.running_eq (h : House) (n : Screen) (k : EntryKind) :
    (((h.ctl n).state = .showing ∧ ¬ (h.ctl n).finalHalt = true) ∧ (h.entry n).kind = k) ↔ h.running n k = true := by
  rw [House.running_iff, Bool.not_eq_true]
  tauto

theorem ShowCtl.pass_eq (e : CueEntry) (c : ShowCtl) :
    c.pass e = { c with
      stallTimer := c.stallTimer.map (· - 1)
      waitLeft := c.waitLeft.map (· - 1)
      waitSpent := c.waitSpent + if c.state = .laneWait then 1 else 0
      timebase := (c.pass e).timebase, generator := (c.pass e).generator
      holdElapsed := (c.pass e).holdElapsed, record := (c.pass e).record } := by
  unfold ShowCtl.pass
  by_cases waits : c.state = .laneWait
  · rw [if_pos waits, if_pos waits]; rfl
  · rw [if_neg waits, if_neg waits]; rfl

theorem House.pass_timebase (h : House) (n : Screen) {d : ShowDesc} (e : (h.ctl n).running = some d) :
    ((h.ctl n).pass (h.entry n)).timebase = (h.ctl n).timebase
      + if (h.ctl n).counting = .timebase ∨ h.running n .skip = true then d.rate else 0 := by
  simp only [← House.running_eq]
  unfold ShowCtl.pass
  simp only [e, Option.map_some, Option.getD_some, decide_eq_true_eq]
  split <;> rfl

theorem House.pass_generator (h : House) (n : Screen) {d : ShowDesc} (e : (h.ctl n).running = some d) :
    ((h.ctl n).pass (h.entry n)).generator = (h.ctl n).generator.map (· + d.rate) := by
  unfold ShowCtl.pass
  simp only [e, Option.map_some, Option.getD_some]

theorem House.pass_hold (h : House) (n : Screen) :
    ((h.ctl n).pass (h.entry n)).holdElapsed = (h.ctl n).holdElapsed + (if h.running n .hold then 1 else 0)
    ∧ ((h.ctl n).pass (h.entry n)).record = (if h.running n .hold then
        { (h.ctl n).record with progress := ((h.ctl n).holdElapsed + 1) / 1000 }
      else (h.ctl n).record) := by
  simp only [← House.running_eq]
  unfold ShowCtl.pass
  simp only [decide_eq_true_eq]
  by_cases inHold : ((h.ctl n).state = .showing ∧ ¬ (h.ctl n).finalHalt = true) ∧ (h.entry n).kind = .hold
  · simp only [if_pos inHold, and_self]
  · simp only [if_neg inHold, and_self]

theorem Station.pass_eq (x : Station) : x.pass = { x with
    pressWait := x.pressWait - 1
    queue := x.queue.map fun t =>
      if t.state = .cooking ∨ t.state = .void then { t with elapsed := t.elapsed + 1 } else t } := by
  unfold Station.pass
  congr 1
  refine List.map_congr_left fun t _ => ?_
  unfold Ticket.pass Ticket.cooking
  simp only [decide_eq_true_eq]

/-- The counts of a state one millisecond later, and nothing else. -/
theorem State.pass_counted (s : State) : s.pass.counted s where
  rest := rfl
  house := by unfold State.pass House.pass; rfl
  clock := House.pass_clock _
  shows n := by rw [State.pass_house, House.pass_ctl]; exact ShowCtl.pass_eq _ _
  frames n d e := by
    rw [State.pass_house, House.pass_ctl]
    exact ⟨House.pass_generator _ _ e, House.pass_timebase _ _ e⟩
  hold n := by rw [State.pass_house, House.pass_ctl]; exact House.pass_hold _ _
  line n := by rw [State.pass_house, House.pass_line]; rfl
  unit n := by rw [State.pass_house, House.pass_line]; unfold CueLine.pass; cases (s.house.line n).unit <;> rfl
  waits n := by rw [State.pass_house, House.pass_queue]
  calls := House.pass_orders _
  tickets st := by rw [State.pass_house, House.pass_station]; exact Station.pass_eq _
  lane k := tget_map _ _ _
  exit j := tget_map _ _ _

/-! ### What falls due -/

/-- A timer of its own: the row happens when its count has run out. -/
theorem State.fallsDue_one (s : State) (c : Instr) (due : State → Bool) :
    s.fallsDue [(c, due)] = if due s then s.after c else s := by
  unfold State.fallsDue
  simp only [List.find?_cons, List.find?_nil]
  cases due s <;> rfl

theorem State.laneDue_eq (k : EntryId) (s : State) : (laneTimers k).foldl State.fallsDue s = s.laneDue k := by
  unfold laneTimers State.laneDue
  simp only [List.foldl_cons, List.foldl_nil, State.fallsDue_one, decide_eq_true_eq]
  rfl

theorem State.exitDue_eq (j : ExitId) (s : State) : (exitTimers j).foldl State.fallsDue s = s.exitDue j := by
  unfold exitTimers State.exitDue
  simp only [List.foldl_cons, List.foldl_nil, State.fallsDue_one, decide_eq_true_eq]
  rfl

/-- A row of the house, whose condition and meaning are the house's. -/
def House.rowDue (due : House → Bool) (f : House → House) (h : House) : House := if due h then f h else h

theorem House.rowDue_decide (p : House → Prop) [DecidablePred p] (f : House → House) (h : House) :
    House.rowDue (fun h => decide (p h)) f h = if p h then f h else h := by
  simp only [House.rowDue, decide_eq_true_eq]

theorem State.fallsDue_house {s : State} {c : Instr} {due : State → Bool} (p : House → Bool) (f : House → House)
    (asks : ∀ u : State, due u = p u.house) (acts : ∀ u : State, u.after c = u.onHouse f) :
    s.fallsDue [(c, due)] = s.onHouse (House.rowDue p f) := by
  rw [State.fallsDue_one, asks, acts]
  unfold State.onHouse House.rowDue
  split <;> rfl

theorem State.onHouse_onHouse (f g : House → House) (s : State) :
    (s.onHouse f).onHouse g = s.onHouse fun h => g (f h) := rfl

theorem CueLine.autoOver_iff (l : CueLine) : l.autoOver = true ↔ ∃ seq, l.autoDue = some (seq, 0) := by
  unfold CueLine.autoOver
  split
  case h_1 seq e => exact ⟨fun _ => ⟨seq, e⟩, fun _ => rfl⟩
  case h_2 other => exact ⟨nofun, fun ⟨seq, e⟩ => (other seq e).elim⟩

/-- The timers of a cue line: the automatic answer, and then the one that its unit runs. -/
theorem State.lineDue_eq (n : Screen) (s : State) :
    ((screenTimers n).take 2).foldl State.fallsDue s = s.onHouse (House.lineDue n) := by
  have auto : s.fallsDue [(.autoAnswer n, fun s => (s.house.line n).autoOver)] =
      s.onHouse (House.rowDue (fun h => (h.line n).autoOver) (House.autoAnswered n)) :=
    State.fallsDue_house _ _ (fun _ => rfl) (fun _ => rfl)
  have unit (u : State) : u.fallsDue [(.answerTimeout n, fun s => (s.house.line n).awaitOver),
      (.backoffEnd n, fun s => (s.house.line n).backoffOver)] = u.onHouse fun h =>
        match (h.line n).unit with
        | .await _ 0 => h.answerTimeout n
        | .backoff _ 0 => h.backoffEnd n
        | _ => h := by
    unfold State.fallsDue CueLine.awaitOver CueLine.backoffOver State.onHouse
    simp only [List.find?_cons, List.find?_nil]
    cases (u.house.line n).unit with
    | quiet => rfl
    | sending x => rfl
    | await x left => cases left <;> rfl
    | backoff x left => cases left <;> rfl
  unfold screenTimers
  simp only [List.take_succ_cons, List.take_zero, List.foldl_cons, List.foldl_nil]
  rw [auto, unit, State.onHouse_onHouse]
  refine congrArg (s.onHouse ·) (funext fun h => ?_)
  have first : (match (h.line n).autoDue with
      | some (_, 0) => h.autoAnswered n
      | _ => h) = House.rowDue (fun h => (h.line n).autoOver) (House.autoAnswered n) h := by
    split
    case h_1 seq e => exact (if_pos ((h.line n).autoOver_iff.2 ⟨seq, e⟩)).symm
    case h_2 other =>
      refine (if_neg fun due => ?_).symm
      obtain ⟨seq, e⟩ := (h.line n).autoOver_iff.1 due
      exact other seq e
  rw [← first]
  rfl

/-- The start of an AT_TIME show: the row asks whether its time has come, and then starts it (R9). -/
theorem House.evalStart_eq (n : Screen) (h : House) :
    h.evalStart n = if h.startReached n then h.startTimeReached n else h := by
  unfold House.evalStart House.startReached House.startTimeReached
  cases (h.ctl n).state with
  | armed =>
    cases (h.ctl n).running with
    | none => rfl
    | some d =>
      obtain ⟨showId, start, count, rate, policy, mode⟩ := d
      cases mode with
      | onCommand => rfl
      | atTime t => exact (if_congr decide_eq_true_iff rfl rfl).symm
  | _ => rfl

theorem House.showDue_eq (n : Screen) (h : House) :
    h.showDue n = House.rowDue (fun h => h.lateOver n) (House.lateWindowEnd n)
      (House.rowDue (fun h => h.startReached n) (House.startTimeReached n)
      (House.rowDue (fun h => decide ((h.ctl n).state = .laneWait ∧ (h.ctl n).waitLeft = some 0))
        (fun h => if (h.ctl n).state = .laneWait then h.holdExpired n else h)
      (House.rowDue (fun h => decide (h.running n .hold ∧ (h.entry n).length * 1000 ≤ (h.ctl n).holdElapsed))
        (House.holdOver n)
      (House.rowDue (fun h => decide (1000 ≤ (h.ctl n).timebase ∧ h.running n .skip)) (House.skipFrame n)
      (House.rowDue (fun h => decide (1000 ≤ (h.ctl n).timebase ∧ (h.ctl n).counting = .timebase)) (House.timebaseFrame n)
      (House.rowDue (fun h => decide ((h.ctl n).stallTimer = some 0)) (House.pictureStall n)
      (House.rowDue (fun h => decide (1000 ≤ ((h.ctl n).generator.getD 0))) (House.generatedPulse n) h))))))) := by
  unfold House.showDue
  extract_lets h1 h2 h3 h4 h5 h6 h7
  have held : House.rowDue (fun h => decide ((h.ctl n).state = .laneWait ∧ (h.ctl n).waitLeft = some 0))
      (fun h => if (h.ctl n).state = .laneWait then h.holdExpired n else h) h5 = h6 := by
    rw [House.rowDue_decide]
    by_cases waits : (h5.ctl n).state = .laneWait ∧ (h5.ctl n).waitLeft = some 0
    · rw [if_pos waits, if_pos waits.1]; exact (if_pos waits).symm
    · rw [if_neg waits]; exact (if_neg waits).symm
  rw [show House.rowDue _ (House.generatedPulse n) h = h1 from House.rowDue_decide _ _ _,
    show House.rowDue _ (House.pictureStall n) h1 = h2 from House.rowDue_decide _ _ _,
    show House.rowDue _ (House.timebaseFrame n) h2 = h3 from House.rowDue_decide _ _ _,
    show House.rowDue _ (House.skipFrame n) h3 = h4 from House.rowDue_decide _ _ _,
    show House.rowDue _ (House.holdOver n) h4 = h5 from House.rowDue_decide
      (fun h => h.running n .hold ∧ (h.entry n).length * 1000 ≤ (h.ctl n).holdElapsed) _ _, held,
    show House.rowDue (fun h => h.startReached n) (House.startTimeReached n) h6 = h7 from (House.evalStart_eq n h6).symm]
  rfl

/-- The timers of a show, the late admission window last (log entry 3). -/
theorem State.showDue_eq (n : Screen) (s : State) :
    ((screenTimers n).drop 2).foldl State.fallsDue s = s.onHouse (House.showDue n) := by
  unfold screenTimers
  simp only [List.drop_succ_cons, List.drop_zero, List.foldl_cons, List.foldl_nil]
  rw [State.fallsDue_house (fun h => decide (1000 ≤ ((h.ctl n).generator.getD 0))) (House.generatedPulse n)
      (fun _ => rfl) (fun _ => rfl),
    State.fallsDue_house (fun h => decide ((h.ctl n).stallTimer = some 0)) (House.pictureStall n)
      (fun _ => rfl) (fun _ => rfl),
    State.fallsDue_house (fun h => decide (1000 ≤ (h.ctl n).timebase ∧ (h.ctl n).counting = .timebase))
      (House.timebaseFrame n) (fun _ => rfl) (fun _ => rfl),
    State.fallsDue_house (fun h => decide (1000 ≤ (h.ctl n).timebase ∧ h.running n .skip)) (House.skipFrame n)
      (fun _ => rfl) (fun _ => rfl),
    State.fallsDue_house (fun h => decide (h.running n .hold ∧ (h.entry n).length * 1000 ≤ (h.ctl n).holdElapsed))
      (House.holdOver n) (fun _ => rfl) (fun _ => rfl),
    State.fallsDue_house (fun h => decide ((h.ctl n).state = .laneWait ∧ (h.ctl n).waitLeft = some 0))
      (fun h => if (h.ctl n).state = .laneWait then h.holdExpired n else h) (fun _ => rfl) (fun _ => rfl),
    State.fallsDue_house (fun h => h.startReached n) (House.startTimeReached n) (fun _ => rfl) (fun _ => rfl),
    State.fallsDue_house (fun h => h.lateOver n) (House.lateWindowEnd n) (fun _ => rfl) (fun _ => rfl)]
  simp only [State.onHouse_onHouse]
  exact congrArg (s.onHouse ·) (funext fun h => (House.showDue_eq n h).symm)

/-- Everything that falls due on a screen (log entry 3). -/
theorem State.screenDue_eq (n : Screen) (s : State) :
    ((screenTimers n).foldl State.fallsDue s).onHouse (fun h => h.settleQueue n) = s.onHouse fun h => h.screenDue n := by
  rw [← List.take_append_drop 2 (screenTimers n), List.foldl_append, State.showDue_eq]
  rw [State.lineDue_eq, State.onHouse_onHouse, State.onHouse_onHouse]
  simp only [House.screenDue]

theorem State.foldl_onHouse {β : Type} (f : House → β → House) (l : List β) (s : State) :
    l.foldl (fun u b => u.onHouse fun h => f h b) s = s.onHouse fun h => l.foldl f h := by
  induction l generalizing s with
  | nil => rfl
  | cons b l ih => rw [List.foldl_cons, ih]; rfl

/-- The hand-outs of the clock: the whole second leaves the clock for the whole minute to read (R198). -/
theorem State.clockDue_eq (s : State) : clockTimers.foldl State.fallsDue s = s.onHouse House.clockDue := by
  unfold clockTimers
  rw [List.foldl_cons, List.foldl_cons, List.foldl_nil,
    State.fallsDue_house (fun h => h.clock.wholeSecond) House.wholeSecond (fun _ => rfl) (fun _ => rfl),
    State.fallsDue_house (fun h => h.clock.wholeMinute) House.wholeMinute (fun _ => rfl) (fun _ => rfl),
    State.onHouse_onHouse]
  refine congrArg (s.onHouse ·) (funext fun h => ?_)
  unfold House.clockDue
  extract_lets h1
  have second : House.rowDue (fun h => h.clock.wholeSecond) House.wholeSecond h = h1 := rfl
  have clock : h1.clock = h.clock := by
    rw [← second, House.rowDue]
    split
    · exact (House.wholeSecond_stage h).kept.clock
    · rfl
  rw [second, House.rowDue, clock]

/-- What happens in a tick is what the rows whose counts have run out do, in the order of log entry 3. -/
theorem State.runTimers_eq (s : State) : s.runTimers = s.fallDue := by
  have lanes : (allLanes.flatMap laneTimers ++ ([0, 1] : List ExitId).flatMap exitTimers).foldl State.fallsDue s =
      ([0, 1] : List ExitId).foldl State.exitDue (allLanes.foldl State.laneDue s) := by
    rw [List.foldl_append, List.foldl_flatMap, List.foldl_flatMap]
    simp only [State.laneDue_eq, State.exitDue_eq]
  have screens (u : State) : allScreens.foldl
      (fun u n => ((screenTimers n).foldl State.fallsDue u).onHouse fun h => h.settleQueue n) u =
        u.onHouse fun h => allScreens.foldl House.screenDue h := by
    simp only [State.screenDue_eq]
    exact State.foldl_onHouse House.screenDue allScreens u
  have calls (u : State) : ((u.house.orders.filter fun o => o.due = some 0).map Order.number).foldl
      (fun u number => u.after (.callRepeatDue number)) u = u.onHouse House.callsDue :=
    State.foldl_onHouse House.repeatDue _ u
  unfold State.runTimers
  dsimp only
  rw [lanes, screens, calls, State.clockDue_eq, State.onHouse_onHouse, State.onHouse_onHouse, State.fallDue]

/-- Settles O2: the tick lets the counts move on, and then what is due happens. -/
theorem idleStepIsOneMillisecond : Obligations.IdleStepIsOneMillisecond := by
  intro s idle
  have k := State.tick_kept s
  have due : s.tick = s.pass.runTimers := by rw [State.runTimers_eq]; exact State.tick_eq s
  have steps := step_of_idle idle
  generalize s.tick = t at k due steps
  have clock : t.house.clock = SiteTime.ofTotal (s.house.clock.total + 1) := k.clock
  refine ⟨s.pass, t, s.pass_counted, due, steps, ?_⟩
  refine ⟨clock, k.timeUnset, k.pending.trans idle, k.dram, k.link, ?_⟩
  exact ⟨k.channels, k.units, k.monitor, k.mon, k.settings, k.gains⟩

end Machine
end Sys2Proof
end


-- ==== Sys2Proof/Proofs/Releases.lean ====
section
/-! The order table and the stations: how orders and tickets read after each operation, and the release of a DEFERRED
order (R146, R147). -/

set_option autoImplicit false

namespace Sys2Proof
namespace Machine

/-! ### Orders of the table (R138, R140) -/

theorem House.order?_some {h : House} {k : Nat} {o : Order} (e : h.order? k = some o) :
    o ∈ h.orders ∧ o.number = k := by
  unfold House.order? at e
  have found := List.find?_some e
  exact ⟨List.mem_of_find?_eq_some e, of_decide_eq_true found⟩

/-- An order is found under its number, which no other order of the table has. -/
theorem House.order?_of_mem {h : House} (fine : h.ordersFine) {o : Order} (m : o ∈ h.orders) :
    h.order? o.number = some o := by
  obtain ⟨p, found⟩ := Option.isSome_iff_exists.1
    (List.find?_isSome (p := fun x => decide (x.number = o.number)).2 ⟨o, m, decide_eq_true rfl⟩)
  have p1 := House.order?_some found
  rw [show h.order? o.number = some p from found, List.inj_on_of_nodup_map fine.2.1 p1.1 m p1.2]

theorem House.onOrder_orders (k : Nat) (f : Order → Order) (h : House) :
    (h.onOrder k f).orders = h.orders.map fun o => if o.number = k then f o else o := rfl

theorem House.mem_onOrder_self {h : House} {o : Order} {f : Order → Order} (m : o ∈ h.orders) :
    f o ∈ (h.onOrder o.number f).orders :=
  List.mem_map.2 ⟨o, m, if_pos rfl⟩

@[simp] theorem House.onOrder_stations (k : Nat) (f : Order → Order) (h : House) :
    (h.onOrder k f).stations = h.stations := rfl
@[simp] theorem House.onOrder_station (k : Nat) (f : Order → Order) (h : House) (st : StationId) :
    (h.onOrder k f).station st = h.station st := rfl

theorem House.orderStateNotice_orders (k : Nat) (h : House) : (h.orderStateNotice k).orders = h.orders := by
  unfold House.orderStateNotice
  split <;> rfl

theorem House.orderStateNotice_stations (k : Nat) (h : House) : (h.orderStateNotice k).stations = h.stations := by
  unfold House.orderStateNotice
  split <;> rfl

/-! ### What a release reads -/

/-- Two houses agree in all that the release of an order reads: the kitchen, the order table and its policy, the clock. -/
structure House.SameKitchen (a b : House) : Prop where
  clock : b.clock = a.clock
  items : b.items = a.items
  stations : b.stations = a.stations
  orders : b.orders = a.orders
  nextNumber : b.nextNumber = a.nextNumber
  policy : b.orderPolicy = a.orderPolicy

theorem House.touched_congr {a b : House} (items : b.items = a.items) (lines : List OrderLine) :
    b.touched lines = a.touched lines := by
  unfold House.touched House.stationOf House.item?
  rw [items]

theorem House.linesFor_congr {a b : House} (items : b.items = a.items) (lines : List OrderLine) (st : StationId) :
    b.linesFor lines st = a.linesFor lines st := by
  unfold House.linesFor House.stationOf House.item?
  rw [items]

theorem House.prepFor_congr {a b : House} (items : b.items = a.items) (lines : List OrderLine) (st : StationId) :
    b.prepFor lines st = a.prepFor lines st := by
  have seconds (l : OrderLine) : b.lineSeconds l = a.lineSeconds l := by
    unfold House.lineSeconds House.item?
    rw [items]
  unfold House.prepFor
  rw [House.linesFor_congr items, funext seconds]

theorem House.waits_congr {a b : House} (items : b.items = a.items) (stations : b.stations = a.stations)
    (lines : List OrderLine) : b.waits lines = a.waits lines := by
  unfold House.waits House.station
  rw [House.touched_congr items, stations]
  simp only [House.prepFor_congr items]

theorem House.promise_congr {a b : House} (clock : b.clock = a.clock) (policy : b.orderPolicy = a.orderPolicy) (e : Nat) :
    b.promise e = a.promise e := by
  unfold House.promise
  rw [clock, policy]

theorem House.SameKitchen.releasable {a b : House} (k : House.SameKitchen a b) {o : Order} (r : a.releasable o) :
    b.releasable o := by
  unfold House.releasable House.ordersFine House.station at *
  rw [k.orders, k.nextNumber, House.touched_congr k.items, k.stations]
  exact r

theorem House.SameKitchen.released {a b h : House} (k : House.SameKitchen a b) {o : Order} (r : House.released o b h) :
    House.released o a h := by
  unfold House.released at *
  rw [House.touched_congr k.items, House.waits_congr k.items k.stations, House.promise_congr k.clock k.policy] at r
  simp only [House.linesFor_congr k.items, House.prepFor_congr k.items] at r
  exact r

/-! ### The wait of a station with a new ticket (R173, R174) -/

/-- The ticket an order gets at a station (R163). -/
def House.newTicket (h : House) (number : Nat) (lines : List OrderLine) (st : StationId) (joined : Nat) : Ticket :=
  { order := number, lines := h.linesFor lines st, prep := h.prepFor lines st, state := .queued, joined := joined,
    cooked := none, cookStart := none, elapsed := 0 }

theorem House.joinTicket_station (number : Nat) (lines : List OrderLine) (h : House) (st : StationId) :
    (h.joinTicket number lines st).station st =
      { h.station st with queue := (h.station st).queue ++ [h.newTicket number lines st h.nextJoin] } :=
  House.onStation_station _ _ _

theorem House.joinTicket_newTicket (number : Nat) (lines : List OrderLine) (h : House) (su st : StationId) (joined : Nat) :
    (h.joinTicket number lines su).newTicket number lines st joined = h.newTicket number lines st joined := by
  have items : (h.joinTicket number lines su).items = h.items := rfl
  unfold House.newTicket
  rw [House.linesFor_congr items, House.prepFor_congr items]

/-- Each station of a list gets one ticket at the end of its queue; the other stations stay. -/
theorem House.foldl_joinTicket_station (number : Nat) (lines : List OrderLine) {sts : List StationId} (nodup : sts.Nodup)
    (h : House) (st : StationId) :
    (st ∈ sts → ∃ j, (sts.foldl (House.joinTicket number lines) h).station st =
      { h.station st with queue := (h.station st).queue ++ [h.newTicket number lines st j] })
    ∧ (st ∉ sts → (sts.foldl (House.joinTicket number lines) h).station st = h.station st) := by
  induction sts generalizing h with
  | nil => exact ⟨nofun, fun _ => rfl⟩
  | cons su rest ih =>
    obtain ⟨fresh, nodup⟩ := List.nodup_cons.1 nodup
    obtain ⟨inRest, outside⟩ := ih nodup (h.joinTicket number lines su)
    rw [List.foldl_cons]
    refine ⟨fun m => ?_, fun m => ?_⟩
    · by_cases e : st = su
      · subst e
        rw [outside fresh, House.joinTicket_station]
        exact ⟨_, rfl⟩
      · obtain ⟨j, joined⟩ := inRest ((List.mem_cons.1 m).resolve_left e)
        rw [joined, House.joinTicket_station_ne _ _ _ _ _ e, House.joinTicket_newTicket]
        exact ⟨j, rfl⟩
    · obtain ⟨ne, notRest⟩ := not_or.1 (List.mem_cons.not.1 m)
      rw [outside notRest, House.joinTicket_station_ne _ _ _ _ _ ne]

theorem House.joinTickets_station {number : Nat} {lines : List OrderLine} {h : House} {st : StationId}
    (m : st ∈ h.touched lines) : ∃ j, (h.joinTickets number lines).station st =
      { h.station st with queue := (h.station st).queue ++ [h.newTicket number lines st j] } :=
  (House.foldl_joinTicket_station number lines (House.touched_nodup h lines) h st).1 m

/-- Joining tickets touches the stations and the join counter only. -/
theorem House.joinTickets_rest (number : Nat) (lines : List OrderLine) (h : House) :
    h.joinTickets number lines = { h with
      stations := (h.joinTickets number lines).stations, nextJoin := (h.joinTickets number lines).nextJoin } := by
  unfold House.joinTickets
  generalize h.touched lines = sts
  induction sts generalizing h with
  | nil => rfl
  | cons st rest ih => rw [List.foldl_cons, ih]; rfl

theorem Station.backlog_append (x : Station) (t : Ticket) :
    Station.backlog { x with queue := x.queue ++ [t] } = x.backlog + t.load := by
  simp [Station.backlog]

/-- The estimate once the tickets have joined is the largest wait with the new tickets counted. -/
theorem House.estimate_joinTickets (number : Nat) (lines : List OrderLine) (h : House) :
    (h.joinTickets number lines).estimate (h.touched lines) = largestWait (h.waits lines) := by
  unfold House.estimate largestWait House.waits
  rw [List.map_map]
  refine congrArg (List.foldl max 0) (List.map_congr_left fun st m => ?_)
  obtain ⟨j, joined⟩ := House.joinTickets_station (number := number) m
  rw [joined]
  show ceilDiv (Station.backlog { h.station st with queue := _ } + 0) _ = ceilDiv _ _
  rw [Station.backlog_append]
  rfl

/-! ### Starting tickets keeps a release -/

theorem House.mem_orderCooking {h : House} {k : Nat} {p : Order} (m : p ∈ h.orders) :
    p ∈ (h.orderCooking k).orders ∨ { p with state := .cooking } ∈ (h.orderCooking k).orders := by
  unfold House.orderCooking
  split
  · split
    · rw [House.orderStateNotice_orders]
      by_cases e : p.number = k
      · exact .inr (List.mem_map.2 ⟨p, m, if_pos e⟩)
      · exact .inl (List.mem_map.2 ⟨p, m, if_neg e⟩)
    · exact .inl m
  · exact .inl m

theorem House.orderCooking_stations (k : Nat) (h : House) : (h.orderCooking k).stations = h.stations := by
  unfold House.orderCooking
  split
  · split
    · exact House.orderStateNotice_stations _ _
    · rfl
  · rfl

/-- A ticket that starts leaves every ticket of its station with its order, lines and prep seconds, in the state it had
or COOKING. -/
theorem House.startTicket_station (su : StationId) (u : Ticket) (h : House) (st : StationId) {t : Ticket}
    (m : t ∈ (h.station st).queue) : ∃ t' ∈ ((h.startTicket su u).station st).queue,
      t'.order = t.order ∧ t'.lines = t.lines ∧ t'.prep = t.prep ∧ (t'.state = t.state ∨ t'.state = .cooking) := by
  have stations : (h.startTicket su u).station st = (h.onTicket su u.joined fun t =>
      { t with state := .cooking, cooked := some h.nextCook, cookStart := some h.clock, elapsed := 0 }).station st :=
    congrArg (tget · st) (House.orderCooking_stations _ _)
  rw [stations]
  by_cases e : st = su
  · subst e
    rw [House.onTicket, House.onStation_station]
    refine ⟨_, List.mem_map.2 ⟨t, m, rfl⟩, ?_⟩
    split
    · exact ⟨rfl, rfl, rfl, .inr rfl⟩
    · exact ⟨rfl, rfl, rfl, .inl rfl⟩
  · rw [House.onTicket, House.onStation_station_ne _ _ _ _ e]
    exact ⟨t, m, rfl, rfl, rfl, .inl rfl⟩

theorem House.released.startTicket {o : Order} {h0 h : House} (r : House.released o h0 h) (su : StationId) (u : Ticket) :
    House.released o h0 (h.startTicket su u) := by
  obtain ⟨⟨p, mem, number, state, lines, tickets, promised⟩, queues⟩ := r
  refine ⟨?_, fun st m => ?_⟩
  · have kept : p ∈ ({ h.onTicket su u.joined fun t => { t with
        state := .cooking, cooked := some h.nextCook, cookStart := some h.clock, elapsed := 0 } with
        nextCook := h.nextCook + 1 } : House).orders := mem
    obtain m | m := House.mem_orderCooking (k := u.order) kept
    · exact ⟨p, m, number, state, lines, tickets, promised⟩
    · exact ⟨_, m, number, .inr rfl, lines, tickets, promised⟩
  · obtain ⟨t, mem, order, lines, prep, state⟩ := queues st m
    obtain ⟨t', mem', order', lines', prep', state'⟩ := House.startTicket_station su u h st mem
    refine ⟨t', mem', order'.trans order, lines'.trans lines, prep'.trans prep, ?_⟩
    obtain e | e := state'
    · rw [e]; exact state
    · exact .inr e

theorem House.released.startTickets {o : Order} {h0 h : House} (r : House.released o h0 h) (su : StationId) (fuel : Nat) :
    House.released o h0 (h.startTickets su fuel) := by
  induction fuel generalizing h with
  | zero => exact r
  | succ fuel ih =>
    unfold House.startTickets
    split
    · split
      · exact ih (r.startTicket su _)
      · exact r
    · exact r

theorem House.released.fillSlots {o : Order} {h0 h : House} (r : House.released o h0 h) (sts : List StationId) :
    House.released o h0 (sts.foldl House.fillSlots h) := by
  induction sts generalizing h with
  | nil => exact r
  | cons st rest ih => exact ih (r.startTickets st _)

theorem House.released.of_tables {o : Order} {h0 h h' : House} (r : House.released o h0 h) (orders : h'.orders = h.orders)
    (stations : h'.stations = h.stations) : House.released o h0 h' := by
  unfold House.released House.station at *
  rw [orders, stations]
  exact r

/-! ### A release attempt (R147) -/

theorem House.releaseOne_released {h : House} {o : Order} (r : h.releasable o) :
    House.released o h (h.releaseOne o.number) := by
  obtain ⟨fine, mem, -, -, room⟩ := r
  have all : (h.touched o.lines).all (fun st => (h.station st).opened && (h.station st).hasRoom) = true := by
    refine List.all_eq_true.2 fun st m => ?_
    obtain ⟨opened, short⟩ := room st m
    rw [opened, Station.hasRoom, decide_eq_true short]
    rfl
  unfold House.releaseOne
  rw [House.order?_of_mem fine mem]
  dsimp only
  rw [if_pos all]
  refine House.released.fillSlots (.of_tables ?_ (House.orderStateNotice_orders _ _) (House.orderStateNotice_stations _ _)) _
  have rest := House.joinTickets_rest o.number o.lines h
  have kept : o ∈ (h.joinTickets o.number o.lines).orders := by rw [rest]; exact mem
  refine ⟨⟨_, House.mem_onOrder_self kept, rfl, .inl rfl, rfl, rfl, ?_⟩, fun st m => ?_⟩
  · rw [House.estimate_joinTickets, House.promise_congr (a := h) (by rw [rest]) (by rw [rest])]
  · obtain ⟨j, joined⟩ := House.joinTickets_station (number := o.number) m
    rw [House.onOrder_station, joined]
    exact ⟨_, List.mem_append_right _ List.mem_cons_self, rfl, rfl, rfl, .inl rfl⟩

theorem List.eq_singleton_of_nodup {α : Type} {l : List α} {a : α} (nodup : l.Nodup) (mem : a ∈ l)
    (only : ∀ b ∈ l, b = a) : l = [a] := by
  cases l with
  | nil => cases mem
  | cons b rest =>
    obtain rfl := only b List.mem_cons_self
    cases rest with
    | nil => rfl
    | cons c rest =>
      obtain rfl := only c (List.mem_cons_of_mem _ List.mem_cons_self)
      exact absurd List.mem_cons_self (List.nodup_cons.1 nodup).1

theorem House.mayRelease_iff (h : House) (n : Screen) : h.mayRelease n = true ↔ h.mayReleaseNow n := by
  unfold House.mayRelease House.mayReleaseNow
  rw [Bool.or_eq_true, decide_eq_true_eq]
  refine or_congr_right ?_
  split
  case h_1 c e => simp [e]
  case h_2 e => simp [e]

/-- A release attempt for screens that include the order's, which may release now, releases it. -/
theorem House.releaseOn_released {h : House} {o : Order} {screens : List Screen} (r : h.releasable o)
    (named : o.screen ∈ screens) (may : h.mayReleaseNow o.screen) : House.released o h (h.releaseOn screens) := by
  have fit := r
  obtain ⟨fine, mem, deferred, only, -⟩ := fit
  have chosen : (h.orders.filter fun x =>
      decide (x.state = .deferred) && screens.contains x.screen && h.mayRelease x.screen) = [o] := by
    refine List.eq_singleton_of_nodup (fine.2.1.of_map.filter _) (List.mem_filter.2 ⟨mem, ?_⟩) fun p m => ?_
    · simp [deferred, named, (House.mayRelease_iff h o.screen).2 may]
    · obtain ⟨mem', conditions⟩ := List.mem_filter.1 m
      rw [Bool.and_eq_true, Bool.and_eq_true, decide_eq_true_eq] at conditions
      exact only p mem' conditions.1.1
  unfold House.releaseOn
  rw [chosen]
  exact House.releaseOne_released r

/-- With no DEFERRED order that may release, a release attempt changes nothing. -/
theorem House.releaseOn_none {h : House} {screens : List Screen}
    (waits : ∀ o ∈ h.orders, o.state = .deferred → o.screen ∈ screens → ¬ h.mayReleaseNow o.screen) :
    h.releaseOn screens = h := by
  have chosen : (h.orders.filter fun x =>
      decide (x.state = .deferred) && screens.contains x.screen && h.mayRelease x.screen) = [] := by
    refine List.filter_eq_nil_iff.2 fun o m conditions => ?_
    rw [Bool.and_eq_true, Bool.and_eq_true, decide_eq_true_eq, List.contains_iff_mem, House.mayRelease_iff] at conditions
    exact waits o m conditions.1.1 conditions.1.2 conditions.2
  unfold House.releaseOn
  rw [chosen]
  rfl

theorem mem_allScreens (n : Screen) : n ∈ allScreens := by
  revert n
  decide

end Machine
end Sys2Proof
end


-- ==== Sys2Proof/Proofs/ClockAndPolicy.lean ====
section
/-! What the clock hands out (R26, R146, R156, R198) and the phase policy (R24, R25). -/

set_option autoImplicit false

namespace Sys2Proof
namespace Machine

/-! ### Countdowns (R26) -/

theorem House.cue_congr {a b : House} (cues : b.cues = a.cues) (i : Nat) : b.cue i = a.cue i := by
  unfold House.cue
  rw [cues]

theorem House.entriesFrom_congr {a b : House} (cues : b.cues = a.cues) (i fuel : Nat) :
    b.entriesFrom i fuel = a.entriesFrom i fuel := by
  induction fuel generalizing i with
  | zero => rfl
  | succ fuel ih => rw [House.entriesFrom, House.entriesFrom, House.cue_congr cues, ih]

/-- The break countdown reads the cue table and its screen's controller, but not the countdown published there. -/
theorem House.countdownOf_congr {a b : House} {n : Screen} (cues : b.cues = a.cues)
    (ctl : b.ctl n = { a.ctl n with countdown := (b.ctl n).countdown }) : b.countdownOf n = a.countdownOf n := by
  unfold House.countdownOf
  rw [ctl]
  simp only [House.cue_congr cues, House.entriesFrom_congr cues]

theorem House.refreshCountdown_ctl (m n : Screen) (h : House) :
    (h.refreshCountdown m).ctl n = { h.ctl n with
      countdown := if n = m then h.countdownOf m else (h.ctl n).countdown } := by
  unfold House.refreshCountdown
  rw [House.onCtl_ctl_any]
  split <;> rfl

theorem House.refreshCountdown_countdownOf (m n : Screen) (h : House) :
    (h.refreshCountdown m).countdownOf n = h.countdownOf n := by
  refine House.countdownOf_congr rfl ?_
  rw [House.refreshCountdown_ctl]

theorem House.foldl_refreshCountdown_ctl (l : List Screen) (h : House) (n : Screen) :
    (l.foldl (fun h n => h.refreshCountdown n) h).ctl n = { h.ctl n with
      countdown := if n ∈ l then h.countdownOf n else (h.ctl n).countdown } := by
  induction l generalizing h with
  | nil => rfl
  | cons m rest ih =>
    rw [List.foldl_cons, ih, House.refreshCountdown_countdownOf, House.refreshCountdown_ctl]
    by_cases inRest : n ∈ rest
    · rw [if_pos inRest, if_pos (List.mem_cons_of_mem _ inRest)]
    · rw [if_neg inRest]
      by_cases e : n = m
      · rw [if_pos e, if_pos (e ▸ List.mem_cons_self), e]
      · rw [if_neg e, if_neg (by simp [e, inRest])]

theorem House.foldl_refreshCountdown_rest (l : List Screen) (h : House) :
    l.foldl (fun h n => h.refreshCountdown n) h =
      { h with shows := (l.foldl (fun h n => h.refreshCountdown n) h).shows } := by
  induction l generalizing h with
  | nil => rfl
  | cons m rest ih => rw [List.foldl_cons, ih]; rfl

/-! ### The expiry sweep (R156) -/

/-- The two records are of one order: its number and its stall are the same. -/
def Order.SameOrder (o p : Order) : Prop :=
  o.number = p.number ∧ o.screen = p.screen ∧ o.row = p.row ∧ o.position = p.position

theorem Order.SameOrder.rfl' (o : Order) : Order.SameOrder o o := ⟨rfl, rfl, rfl, rfl⟩

theorem Order.SameOrder.trans {o p q : Order} (x : Order.SameOrder o p) (y : Order.SameOrder p q) :
    Order.SameOrder o q :=
  ⟨x.1.trans y.1, x.2.1.trans y.2.1, x.2.2.1.trans y.2.2.1, x.2.2.2.trans y.2.2.2⟩

/-- What announcements, orders and tickets do to one another brings no order into the table. -/
theorem House.Sound.identity {h h' : House} (x : House.Sound h h') {o' : Order} (m : o' ∈ h'.orders) :
    ∃ o ∈ h.orders, Order.SameOrder o o' := by
  induction x generalizing o' with
  | refl h => exact ⟨o', m, .rfl' o'⟩
  | trans _ _ first second =>
    obtain ⟨p, pm, pn⟩ := second m
    obtain ⟨o, om, on⟩ := first pm
    exact ⟨o, om, on.trans pn⟩
  | place n o h room => rw [House.placeAnn_eq] at m; exact ⟨o', m, .rfl' o'⟩
  | takeOut n a h => rw [House.takeOut_eq] at m; exact ⟨o', m, .rfl' o'⟩
  | displace n v fs o h held =>
    rw [House.placeAnn_eq] at m
    obtain ⟨p, pm, rfl⟩ := List.mem_map.1 m
    refine ⟨p, ?_, ?_⟩
    · rw [House.notify_orders, House.takeOut_eq] at pm
      exact pm
    · split <;> exact .rfl' p
  | orderMap f h same =>
    obtain ⟨p, pm, rfl⟩ := List.mem_map.1 m
    obtain ⟨number, screen, row, position, _⟩ := same p
    exact ⟨p, pm, number.symm, screen.symm, row.symm, position.symm⟩
  | orderDrop number h => exact ⟨o', (List.mem_filter.1 m).1, .rfl' o'⟩
  | _ => exact ⟨o', m, .rfl' o'⟩

theorem House.Sound.numbers {h h' : House} (x : House.Sound h h') {o' : Order} (m : o' ∈ h'.orders) :
    ∃ o ∈ h.orders, o.number = o'.number := by
  obtain ⟨o, om, same⟩ := x.identity m
  exact ⟨o, om, same.1⟩

/-- An order that ends is no longer in the table (R154). -/
theorem House.endOrder_gone (outcome : OrderOutcome) (reason : EndReason) (h : House) (number : Nat) {o : Order}
    (m : o ∈ (h.endOrder outcome reason number).orders) : o.number ≠ number := by
  unfold House.endOrder at m
  split at m
  case h_1 missing =>
    intro e
    exact absurd (decide_eq_true e) (by simpa using List.find?_eq_none.1 missing o m)
  case h_2 =>
    extract_lets left h1 h2 h3 h4 h5 at m
    have left5 : h5.orders = h4.orders.filter fun o => o.number ≠ number := by simp only [h5]
    clear_value h5 h4
    have dropped {p : Order} (pm : p ∈ h5.orders) : p.number ≠ number := by
      rw [left5] at pm
      exact of_decide_eq_true (List.mem_filter.1 pm).2
    split at m
    · obtain ⟨p, pm, pn⟩ := (House.releaseAll_sound h5).numbers m
      exact pn ▸ dropped pm
    · exact dropped m

theorem House.foldl_endOrder_gone (outcome : OrderOutcome) (reason : EndReason) {numbers : List Nat} {number : Nat}
    (named : number ∈ numbers) (h : House) {o : Order}
    (m : o ∈ (numbers.foldl (House.endOrder outcome reason) h).orders) : o.number ≠ number := by
  induction numbers generalizing h with
  | nil => cases named
  | cons k rest ih =>
    rw [List.foldl_cons] at m
    by_cases inRest : number ∈ rest
    · exact ih inRest _ m
    · obtain rfl := (List.mem_cons.1 named).resolve_right inRest
      obtain ⟨p, pm, pn⟩ := (House.foldl_sound _ (House.endOrder_sound outcome reason) rest _).numbers m
      exact pn ▸ House.endOrder_gone outcome reason h number pm

theorem House.SoundKept.settings {h h' : House} (k : House.SoundKept h h') : h'.settingsKept h :=
  ⟨k.mask, k.cues, k.policy, k.maxLaneHold, k.lateLimit, k.callClips, k.classes, k.gap, k.routes, k.nextNumber,
    k.nextSequence, k.orderPolicy, k.items⟩

theorem House.SoundKept.sales {h h' : House} (k : House.SoundKept h h') : h'.salesKept h :=
  ⟨k.settings, k.clock, k.shows, k.lines, k.gains⟩

/-- The orders that wait for their customer, a minute older (R156). -/
def agedOrders (orders : List Order) : List Order :=
  orders.map fun o => if o.state = .ready ∨ o.state = .called then { o with age := o.age + 1 } else o

/-- The numbers of the orders that have reached the limit (R156). -/
def overAge (limit : Nat) (orders : List Order) : List Nat :=
  (orders.filter fun o => decide (o.state = .ready ∨ o.state = .called) && decide (limit ≤ o.age)).map Order.number

theorem House.expirySweep_eq (h : House) : h.expirySweep =
    (overAge h.orderPolicy.limit (agedOrders h.orders)).foldl (House.endOrder .expired .none)
      { h with orders := agedOrders h.orders } := by
  unfold House.expirySweep agedOrders
  simp only [decide_eq_true_eq]
  rfl

theorem mem_overAge {limit : Nat} {orders : List Order} {o : Order} (m : o ∈ orders)
    (waits : o.state = .ready ∨ o.state = .called) (reached : limit ≤ o.age + 1) :
    o.number ∈ overAge limit (agedOrders orders) := by
  refine List.mem_map.2 ⟨{ o with age := o.age + 1 }, List.mem_filter.2 ⟨List.mem_map.2 ⟨o, m, if_pos waits⟩, ?_⟩, rfl⟩
  simp [waits, reached]

theorem overAge_eq_nil {limit : Nat} {orders : List Order}
    (young : ∀ o ∈ orders, o.state = .ready ∨ o.state = .called → o.age + 1 < limit) :
    overAge limit (agedOrders orders) = [] := by
  refine List.map_eq_nil_iff.2 (List.filter_eq_nil_iff.2 fun p m conditions => ?_)
  obtain ⟨o, mem, rfl⟩ := List.mem_map.1 m
  rw [Bool.and_eq_true, decide_eq_true_eq, decide_eq_true_eq] at conditions
  by_cases waits : o.state = .ready ∨ o.state = .called
  · rw [if_pos waits] at conditions
    exact absurd conditions.2 (Nat.not_le.2 (young o mem waits))
  · rw [if_neg waits] at conditions
    exact waits conditions.1

/-- Settles O20. -/
theorem clockHandsOut : Obligations.ClockHandsOut := by
  intro s
  refine ⟨⟨s.house.wholeSecond, rfl, ?second⟩, ⟨s.house.expirySweep, rfl, ?sales, ?gone⟩, fun young => ?young⟩
  case second =>
    have rest := House.foldl_refreshCountdown_rest allScreens s.house
    have ctl := House.foldl_refreshCountdown_ctl allScreens s.house
    have stage := (House.wholeSecond_stage s.house).kept
    unfold House.wholeSecond at *
    generalize allScreens.foldl (fun h n => h.refreshCountdown n) s.house = h1 at *
    have sound := (House.releaseAll_sound h1).kept
    have shows : { s.house with shows := h1.releaseAll.shows } = h1 := by rw [sound.shows, ← rest]
    refine ⟨stage.settings, stage.clock, ?_, ?_, fun n => ?_, fun o r may => ?_, fun waits => ?_⟩
    · rw [sound.lines, rest]
    · rw [sound.gains, rest]
    · have kept : h1.releaseAll.ctl n = h1.ctl n := congrArg (tget · n) sound.shows
      rw [kept, ctl, if_pos (mem_allScreens n)]
    · rw [shows] at may
      have same : House.SameKitchen s.house h1 := by constructor <;> rw [rest]
      exact same.released (House.releaseOn_released (same.releasable r) (mem_allScreens _) may)
    · rw [shows] at waits ⊢
      refine House.releaseOn_none fun o m deferred _ => waits o ?_ deferred
      rw [rest] at m
      exact m
  case sales => exact (House.expirySweep_sound s.house).kept.sales
  case gone =>
    intro o m waits reached o' m'
    rw [House.expirySweep_eq] at m'
    exact House.foldl_endOrder_gone .expired .none (mem_overAge m waits reached) _ m'
  case young =>
    have swept : s.house.expirySweep = { s.house with orders := agedOrders s.house.orders } := by
      rw [House.expirySweep_eq, overAge_eq_nil young]
      rfl
    exact congrArg (fun h => Host.Outcome.next (s.withHouse h)) swept

/-! ### What a look at a queue changes (R82, R87) -/

theorem House.selectPlayer_rest (n : Screen) (h : House) :
    h.selectPlayer n = { h with players := (h.selectPlayer n).players } := by
  unfold House.selectPlayer
  split <;> rfl

/-- With nobody's wait over, a queue settles as it stands. -/
theorem House.settleQueue_of_nobody {h : House} {n : Screen} (nobody : h.nobodyExpires n) : h.settleQueue n = h := by
  have stays : (h.queue n).find? (h.waitOver n) = none := by
    refine List.find?_eq_none.2 fun a m expired => ?_
    rw [House.waitOver, Bool.and_eq_true] at expired
    exact absurd (of_decide_eq_true expired.2) (Nat.not_le.2 (nobody a m))
  unfold House.settleQueue House.expireWaits
  rw [stays]

theorem House.wakePlayer_rest {h : House} {n : Screen} (nobody : h.nobodyExpires n) :
    h.wakePlayer n = { h with players := (h.wakePlayer n).players } := by
  have rest := House.selectPlayer_rest n h
  have settled : (h.selectPlayer n).settleQueue n = h.selectPlayer n := by
    refine House.settleQueue_of_nobody ?_
    rw [rest]
    exact nobody
  unfold House.wakePlayer
  rw [settled]
  exact rest

theorem House.foldl_wakePlayer_rest (l : List Screen) {h : House} (nobody : ∀ n, h.nobodyExpires n) :
    l.foldl (fun h n => h.wakePlayer n) h =
      { h with players := (l.foldl (fun h n => h.wakePlayer n) h).players } := by
  induction l generalizing h with
  | nil => rfl
  | cons m rest ih =>
    have woken := House.wakePlayer_rest (nobody m)
    have still : ∀ n, (h.wakePlayer m).nobodyExpires n := fun n => by rw [woken]; exact nobody n
    rw [List.foldl_cons, ih still, woken]

/-! ### Admission (R25) -/

theorem House.phase_congr {a b : House} {n : Screen} (cues : b.cues = a.cues) (ctl : b.ctl n = a.ctl n) :
    b.phase n = a.phase n := by
  unfold House.phase House.entry
  rw [ctl]
  simp only [House.cue_congr cues]

theorem House.admissionOf_congr {a b : House} {n : Screen} (clock : b.clock = a.clock) (cues : b.cues = a.cues)
    (policy : b.policy = a.policy) (lateLimit : b.lateLimit = a.lateLimit) (ctl : b.ctl n = a.ctl n) :
    b.admissionOf n = a.admissionOf n := by
  unfold House.admissionOf House.row
  rw [House.phase_congr cues ctl, ctl, clock, policy, lateLimit]

/-- The admission states worked out again touch the lots only. -/
theorem House.foldl_refreshAdmission_rest (l : List Screen) (h : House) :
    l.foldl (fun h n => h.refreshAdmission n) h =
      { h with lots := (l.foldl (fun h n => h.refreshAdmission n) h).lots } := by
  induction l generalizing h with
  | nil => rfl
  | cons m rest ih => rw [List.foldl_cons, ih]; rfl

theorem House.refreshAdmission_admissionOf (m n : Screen) (h : House) :
    (h.refreshAdmission m).admissionOf n = h.admissionOf n := House.admissionOf_congr rfl rfl rfl rfl rfl

theorem House.foldl_refreshAdmission_lot (l : List Screen) (h : House) (n : Screen) :
    (l.foldl (fun h n => h.refreshAdmission n) h).lot n = { h.lot n with
      admission := if n ∈ l then h.admissionOf n else (h.lot n).admission } := by
  induction l generalizing h with
  | nil => rfl
  | cons m rest ih =>
    have first : (h.refreshAdmission m).lot n =
        { h.lot n with admission := if n = m then h.admissionOf m else (h.lot n).admission } := by
      unfold House.refreshAdmission
      rw [House.onLot_lot_any]
      split <;> rfl
    rw [List.foldl_cons, ih, House.refreshAdmission_admissionOf, first]
    by_cases inRest : n ∈ rest
    · rw [if_pos inRest, if_pos (List.mem_cons_of_mem _ inRest)]
    · rw [if_neg inRest]
      by_cases e : n = m
      · rw [if_pos e, if_pos (e ▸ List.mem_cons_self), e]
      · rw [if_neg e, if_neg (by simp [e, inRest])]

/-! ### A changed policy (R24, R146) -/

/-- What a change of the phase policy brings to shows, cue lines and gains: nothing. -/
theorem House.policyChanged_shows (h : House) : h.policyChanged.shows = h.shows ∧ h.policyChanged.lines = h.lines
    ∧ h.policyChanged.gains = h.gains := by
  have sound : House.SoundKept h (House.releaseAll (allScreens.foldl (fun h n => h.wakePlayer n) h)) :=
    ((House.foldl_sound _ (fun h n => House.wakePlayer_sound n h) _ h).trans (House.releaseAll_sound _)).kept
  unfold House.policyChanged
  generalize House.releaseAll (allScreens.foldl (fun h n => h.wakePlayer n) h) = h1 at sound ⊢
  rw [House.foldl_refreshAdmission_rest]
  exact ⟨sound.shows, sound.lines, sound.gains⟩

theorem House.policyChanged_admission (h : House) (n : Screen) :
    (h.policyChanged.lot n).admission = h.policyChanged.admissionOf n := by
  unfold House.policyChanged
  generalize House.releaseAll _ = h1
  rw [House.foldl_refreshAdmission_lot, if_pos (mem_allScreens n)]
  refine (House.admissionOf_congr ?_ ?_ ?_ ?_ ?_).symm
  all_goals rw [House.foldl_refreshAdmission_rest]
  rfl

/-- A DEFERRED order whose screen may release under the changed policy is released. -/
theorem House.policyChanged_released {h : House} {o : Order} (r : h.releasable o) (nobody : ∀ n, h.nobodyExpires n)
    (may : h.mayReleaseNow o.screen) : House.released o h h.policyChanged := by
  have woken := House.foldl_wakePlayer_rest allScreens nobody
  unfold House.policyChanged
  generalize allScreens.foldl (fun h n => h.wakePlayer n) h = h1 at woken ⊢
  have same : House.SameKitchen h h1 := by constructor <;> rw [woken]
  have mayStill : h1.mayReleaseNow o.screen := by rw [woken]; exact may
  have done := same.released (House.releaseOn_released (same.releasable r) (mem_allScreens _) mayStill)
  unfold House.releaseAll
  generalize h1.releaseOn allScreens = h2 at done ⊢
  rw [House.foldl_refreshAdmission_rest]
  exact done.of_tables rfl rfl

/-- The state in which a rule acts differs from the house before in the transmitter only. -/
theorem State.taken_house (s : State) : s.taken.house = { s.house with out := s.house.out.startReply } := rfl

theorem classSet_some {bits : Nat} (small : bits < 32) :
    classSet bits = some (allClasses.filter fun c => bits.testBit c.index.val) := if_neg (Nat.not_le.2 small)

theorem classSet_none {bits : Nat} (large : 32 ≤ bits) : classSet bits = none := if_pos large

theorem mem_allClasses (c : AnnClass) : c ∈ allClasses := by cases c <;> decide

/-- SAFETY is among the classes of a set byte exactly when its bit is set (R24). -/
theorem contains_safety (bits : Nat) :
    (allClasses.filter fun c => bits.testBit c.index.val).contains .safety = bits.testBit 0 := by
  rw [Bool.eq_iff_iff, List.contains_iff_mem, List.mem_filter]
  exact and_iff_right (mem_allClasses _)

/-- The row that PHASE POLICY SET makes of a set byte: SAFETY is always among its classes (R24). -/
def policyRow (a : Admit) (i : Intake) (allowed duck : Nat) : PolicyRow :=
  let cs := allClasses.filter fun c => allowed.testBit c.index.val
  { admission := a, intake := i, allowed := if !allowed.testBit 0 then .safety :: cs else cs, duck := duck }

theorem mem_policyRow_allowed (a : Admit) (i : Intake) (allowed duck : Nat) (c : AnnClass) :
    c ∈ (policyRow a i allowed duck).allowed ↔ (allowed.testBit c.index.val = true ∨ c = .safety) := by
  have named : c ∈ (allClasses.filter fun c => allowed.testBit c.index.val) ↔ allowed.testBit c.index.val = true := by
    rw [List.mem_filter]
    exact and_iff_right (mem_allClasses c)
  unfold policyRow
  dsimp only
  cases safety : allowed.testBit 0 with
  | false =>
    rw [if_pos (by decide), List.mem_cons, named]
    exact or_comm
  | true =>
    rw [if_neg (by decide), named]
    exact ⟨.inl, fun e => e.elim id fun e => e ▸ safety⟩

theorem phasePolicySetRow_accepted {tag phase adm intake allowed duck : Nat} {p : Phase} {a : Admit} {i : Intake} {s : State}
    (acc : s.accepting) (ep : Phase.ofCode phase = some p) (ea : Admit.ofCode adm = some a)
    (ei : Intake.ofCode intake = some i) (small : allowed < 32) (gain : duck ≤ 32768) :
    exec (.phasePolicySetRow tag phase adm intake allowed duck) s = .next (s.replied
      { s.taken.house with policy := tset s.taken.house.policy p.index (policyRow a i allowed duck) }.policyChanged
      0x2A tag [uBool (!allowed.testBit 0)]) := by
  refine houseRequest_accepted acc ?_
  rw [ep, ea, ei, classSet_some small]
  dsimp only
  rw [if_pos gain, contains_safety]
  rfl

theorem phasePolicySetLimits_accepted {tag maxHold lateLimit : Nat} {s : State} (acc : s.accepting) (h1 : maxHold ≤ 900)
    (h2 : lateLimit ≤ 3600) : exec (.phasePolicySetLimits tag maxHold lateLimit) s = .next (s.replied
      { s.taken.house with maxLaneHold := maxHold, lateLimit := lateLimit }.policyChanged 0x2A tag []) :=
  houseRequest_accepted acc (if_pos ⟨h1, h2⟩)

theorem phasePolicySetRow_refused {tag phase adm intake allowed duck : Nat} {s : State} (acc : s.accepting)
    (wrong : Phase.ofCode phase = none ∨ Admit.ofCode adm = none ∨ Intake.ofCode intake = none ∨ 32 ≤ allowed
      ∨ 32768 < duck) :
    exec (.phasePolicySetRow tag phase adm intake allowed duck) s = .next (s.turnedDown 0x2A tag .badValue []) := by
  refine houseRequest_refused acc ?_
  split
  case h_1 p a i cs ep ea ei ec =>
    refine if_neg fun gain => ?_
    rcases wrong with e | e | e | e | e
    · rw [ep] at e; cases e
    · rw [ea] at e; cases e
    · rw [ei] at e; cases e
    · rw [classSet_none e] at ec; cases ec
    · exact absurd gain (Nat.not_le.2 e)
  case h_2 => rfl

theorem phasePolicySetLimits_refused {tag maxHold lateLimit : Nat} {s : State} (acc : s.accepting)
    (wrong : 900 < maxHold ∨ 3600 < lateLimit) :
    exec (.phasePolicySetLimits tag maxHold lateLimit) s = .next (s.turnedDown 0x2A tag .badValue []) :=
  houseRequest_refused acc (if_neg (by omega))

/-! ### The late window (R25) -/

theorem House.lateWindowEnd_other {h : House} {n : Screen} (other : (h.row n).admission ≠ .late) :
    h.lateWindowEnd n = h := by
  unfold House.lateWindowEnd
  split
  case h_1 late _ _ => exact absurd late other
  case h_2 => rfl

theorem House.lateWindowEnd_late {h : House} {n : Screen} (late : (h.row n).admission = .late)
    (running : (h.ctl n).running.isSome = true) (started : (h.ctl n).record.featureStart.isSome = true) :
    h.lateWindowEnd n = h.onLot n fun l => { l with admission := false } := by
  obtain ⟨d, running⟩ := Option.isSome_iff_exists.1 running
  obtain ⟨t, started⟩ := Option.isSome_iff_exists.1 started
  rw [House.lateWindowEnd, late, running, started]

/-- Settles O21. -/
theorem phasePolicySetsRows : Obligations.PhasePolicySetsRows := by
  intro tag s acc
  refine ⟨fun phase adm intake allowed duck p a i ep ea ei small gain =>
      ⟨_, phasePolicySetRow_accepted acc ep ea ei small gain, ?row⟩,
    fun maxHold lateLimit h1 h2 => ⟨_, phasePolicySetLimits_accepted acc h1 h2, ?limits⟩,
    fun phase adm intake allowed duck => phasePolicySetRow_refused acc,
    fun maxHold lateLimit => phasePolicySetLimits_refused acc, fun n => ⟨fun other => ?_, fun late running started => ?_⟩⟩
  case row =>
    generalize new : { s.taken.house with policy := tset s.taken.house.policy p.index (policyRow a i allowed duck) } = h
    have policy : h.policyChanged.policy = tset s.house.policy p.index (policyRow a i allowed duck) := by
      rw [(House.policyChanged_stage h).kept.policy, ← new]; rfl
    have shows := House.policyChanged_shows h
    rw [policy, tget_tset_self]
    refine ⟨rfl, rfl, rfl, mem_policyRow_allowed a i allowed duck, fun q ne => tget_tset_ne _ _ _ _ ne,
      House.policyChanged_admission h, ?_, ?_, ?_, fun o r nobody inPhase opens => ?_⟩
    · rw [shows.1, ← new]; rfl
    · rw [shows.2.1, ← new]; rfl
    · rw [shows.2.2, ← new]; rfl
    · have same : House.SameKitchen s.house h := by rw [← new]; exact ⟨rfl, rfl, rfl, rfl, rfl, rfl⟩
      have phase : h.phase o.screen = p := by rw [← inPhase, ← new]; exact House.phase_congr rfl rfl
      have may : h.mayReleaseNow o.screen := by
        refine .inl ?_
        have row : h.row o.screen = policyRow a i allowed duck := by
          rw [House.row, phase, ← new]
          exact tget_tset_self _ _ _
        rw [row]
        exact opens
      have still : ∀ n, h.nobodyExpires n := by rw [← new]; exact nobody
      exact same.released (House.policyChanged_released (same.releasable r) still may)
  case limits =>
    generalize new : { s.taken.house with maxLaneHold := maxHold, lateLimit := lateLimit } = h
    have stage := (House.policyChanged_stage h).kept
    have shows := House.policyChanged_shows h
    rw [stage.maxLaneHold, stage.lateLimit, stage.policy, shows.1, shows.2.1, shows.2.2]
    refine ⟨?_, ?_, ?_, House.policyChanged_admission h, ?_, ?_, ?_⟩ <;> rw [← new] <;> rfl
  · exact congrArg (fun h => Host.Outcome.next (s.withHouse h)) (House.lateWindowEnd_other other)
  · exact congrArg (fun h => Host.Outcome.next (s.withHouse h)) (House.lateWindowEnd_late late running started)

end Machine
end Sys2Proof
end


-- ==== Sys2Proof/Proofs/CueTable.lean ====
section
/-! CUE WRITE (R2), and the requests that read (R3, R27, R43, R74, R86, R128, R159, R175). -/

set_option autoImplicit false

namespace Sys2Proof
namespace Machine

/-! ### Requests that name a screen (R196) -/

theorem onScreen_eq {screen : Nat} {n : Screen} (named : screenOfCode screen = some n)
    (rule : Screen → House → House × Answer) (h : House) : onScreen screen rule h = rule n h := by
  rw [onScreen, named]

theorem screenRequest_accepted {kind tag screen : Nat} {n : Screen} {rule : Screen → House → House × Answer} {s : State}
    {h : House} {fields : List Field} (a : s.accepting) (named : screenOfCode screen = some n)
    (e : rule n s.taken.house = (h, ok fields)) :
    houseRequest kind tag (onScreen screen rule) s = .next (s.replied h kind tag fields) :=
  houseRequest_accepted a ((onScreen_eq named _ _).trans e)

theorem screenRequest_refused {kind tag screen : Nat} {n : Screen} {rule : Screen → House → House × Answer} {s : State}
    {st : Status} {detail : List Field} (a : s.accepting) (named : screenOfCode screen = some n)
    (e : rule n s.taken.house = (s.taken.house, refuse st detail)) :
    houseRequest kind tag (onScreen screen rule) s = .next (s.turnedDown kind tag st detail) :=
  houseRequest_refused a ((onScreen_eq named _ _).trans e)

/-! ### CUE WRITE (R2) -/

theorem EntryKind.ofCode_iff (code : Nat) (k : EntryKind) : EntryKind.ofCode code = some k ↔ k.code = code := by
  constructor
  · intro e
    unfold EntryKind.ofCode at e
    split at e <;> cases e <;> rfl
  · intro e
    subst e
    cases k <;> rfl

theorem PhaseTag.ofCode_iff (code : Nat) (t : PhaseTag) : PhaseTag.ofCode code = some t ↔ t.code = code := by
  constructor
  · intro e
    unfold PhaseTag.ofCode at e
    split at e <;> cases e <;> rfl
  · intro e
    subst e
    cases t <;> rfl

theorem EntryKind.code_le (k : EntryKind) : k.code ≤ 3 := by cases k <;> decide

theorem PhaseTag.code_range (t : PhaseTag) : 1 ≤ t.code ∧ t.code ≤ 4 := by cases t <;> decide

theorem EntryKind.ofCode_none {code : Nat} (large : 3 < code) : EntryKind.ofCode code = none := by
  cases e : EntryKind.ofCode code with
  | none => rfl
  | some k => have := (EntryKind.ofCode_iff code k).1 e; have := k.code_le; omega

theorem PhaseTag.ofCode_none {code : Nat} (wrong : code = 0 ∨ 4 < code) : PhaseTag.ofCode code = none := by
  cases e : PhaseTag.ofCode code with
  | none => rfl
  | some t => have := (PhaseTag.ofCode_iff code t).1 e; have := t.code_range; omega

theorem EntryKind.ofCode_some {code : Nat} (small : code ≤ 3) : ∃ k : EntryKind, EntryKind.ofCode code = some k := by
  interval_cases code <;> exact ⟨_, rfl⟩

theorem PhaseTag.ofCode_some {code : Nat} (low : 1 ≤ code) (high : code ≤ 4) :
    ∃ t : PhaseTag, PhaseTag.ofCode code = some t := by
  interval_cases code <;> exact ⟨_, rfl⟩

/-- The first check of R2: what a wrong kind or phase tag makes of the entry. -/
theorem writtenEntry_none {kind content length phaseTag flags startClip : Nat}
    (wrong : 3 < kind ∨ (kind ≠ 0 ∧ (phaseTag = 0 ∨ 4 < phaseTag))) :
    writtenEntry kind content length phaseTag flags startClip = none := by
  unfold writtenEntry
  obtain large | ⟨full, tag⟩ := wrong
  · rw [EntryKind.ofCode_none large]
  · rw [PhaseTag.ofCode_none tag]
    split
    case h_1 e => exact absurd ((EntryKind.ofCode_iff kind .empty).1 e).symm full
    case h_2 e => cases e
    case h_3 => rfl

/-- The entry that passes the first check of R2 has exactly the contents sent. -/
theorem writtenEntry_some {kind content length phaseTag flags startClip : Nat} (small : kind ≤ 3)
    (tagged : kind = 0 ∨ (1 ≤ phaseTag ∧ phaseTag ≤ 4)) :
    ∃ e, writtenEntry kind content length phaseTag flags startClip = some e ∧ e.kind.code = kind
      ∧ (kind ≠ 0 → e.content = content ∧ e.length = length ∧ e.tag.code = phaseTag
          ∧ e.last = flags.testBit 0 ∧ e.laneHold = flags.testBit 1 ∧ e.startClip = startClip) := by
  obtain ⟨k, ek⟩ := EntryKind.ofCode_some small
  obtain rfl := (EntryKind.ofCode_iff kind k).1 ek
  unfold writtenEntry
  rw [ek]
  cases k with
  | empty => exact ⟨.blank, rfl, rfl, fun full => absurd rfl full⟩
  | play | skip | hold =>
    obtain ⟨low, high⟩ := tagged.resolve_left (by decide)
    obtain ⟨t, et⟩ := PhaseTag.ofCode_some low high
    rw [et]
    exact ⟨_, rfl, rfl, fun _ => ⟨rfl, rfl, (PhaseTag.ofCode_iff phaseTag t).1 et, rfl, rfl, rfl⟩⟩

theorem slotCovers_iff (slot : Option ShowDesc) (i : Nat) :
    slotCovers slot i = true ↔ ∃ d, slot = some d ∧ d.start ≤ i ∧ i < d.start + d.count := by
  cases slot with
  | none => exact ⟨nofun, fun ⟨d, e, _⟩ => by cases e⟩
  | some d => simp [slotCovers, ShowDesc.covers]

theorem House.protected_iff (h : House) (i : Nat) : h.protected i = true ↔
    ∃ (n : Screen) (d : ShowDesc), ((h.ctl n).running = some d ∨ (h.ctl n).waiting = some d)
      ∧ d.start ≤ i ∧ i < d.start + d.count := by
  unfold House.protected
  simp only [List.any_eq_true, Bool.or_eq_true, slotCovers_iff, mem_allScreens, true_and]
  refine exists_congr fun n => ⟨?_, ?_⟩
  · rintro (⟨d, e, r⟩ | ⟨d, e, r⟩)
    · exact ⟨d, .inl e, r⟩
    · exact ⟨d, .inr e, r⟩
  · rintro ⟨d, e | e, r⟩
    · exact .inl ⟨d, e, r⟩
    · exact .inr ⟨d, e, r⟩

/-- Settles O22. -/
theorem cueWriteSetsEntry : Obligations.CueWriteSetsEntry := by
  intro tag index kind content length phaseTag flags startClip s a _
  refine ⟨fun wrong => houseRequest_refused a ?_, fun small tagged => ?_⟩
  · rw [writtenEntry_none wrong]
  · obtain ⟨e, written, code, contents⟩ := writtenEntry_some (content := content) (length := length) (flags := flags)
      (startClip := startClip) small tagged
    refine ⟨fun inUse => houseRequest_refused a ?_, fun unused => ⟨e, houseRequest_accepted a ?_, code, contents⟩⟩
    · rw [written]
      exact if_pos ((House.protected_iff s.taken.house index).2 inUse)
    · rw [written]
      refine if_neg fun kept => ?_
      obtain ⟨n, d, held, inside⟩ := (House.protected_iff s.taken.house index).1 kept
      exact unused n d held inside

/-! ### How wide a list of records is (R190) -/

theorem fieldWidth_eq (fs : List Field) : fieldWidth fs = (fs.map Field.width).sum := by
  have fold (acc : Nat) : fs.foldl (fun acc f => acc + f.width) acc = acc + (fs.map Field.width).sum := by
    induction fs generalizing acc with
    | nil => rfl
    | cons f fs ih => rw [List.foldl_cons, ih, List.map_cons, List.sum_cons, Nat.add_assoc]
  rw [fieldWidth, fold, Nat.zero_add]

theorem fieldWidth_append (fs gs : List Field) : fieldWidth (fs ++ gs) = fieldWidth fs + fieldWidth gs := by
  simp [fieldWidth_eq]

theorem fieldWidth_uOpt (width : Nat) (v : Option Nat) : fieldWidth (uOpt width v) = 1 + width := by
  cases v <;> simp [uOpt, fieldWidth_eq, u8]

/-- Whole records are taken as long as they fit. -/
theorem fieldWidth_takeRecords (room : Nat) (rs : List (List Field)) : fieldWidth (takeRecords room rs).flatten ≤ room := by
  induction rs generalizing room with
  | nil => exact Nat.zero_le _
  | cons r rs ih =>
    unfold takeRecords
    split
    · have := ih (room - fieldWidth r)
      rw [List.flatten_cons, fieldWidth_append]
      omega
    · exact Nat.zero_le _

/-- A list behind its head leaves `tail` bytes of a body of 240 whose first two are the status and the flag byte. -/
theorem fieldWidth_recordList {head : List Field} {tail : Nat} (records : List (List Field))
    (fits : fieldWidth head + tail ≤ 237) : fieldWidth (recordList head tail records).2 + tail ≤ 238 := by
  have taken := fieldWidth_takeRecords (Config.bodyRoom - (3 + fieldWidth head + tail)) records
  have one (v : Nat) : fieldWidth [u8 v] = 1 := rfl
  unfold recordList
  dsimp only
  rw [fieldWidth_append, fieldWidth_append, one]
  have room : Config.bodyRoom = 240 := rfl
  omega

theorem fieldWidth_recordList_last {head : List Field} (records : List (List Field)) (fits : fieldWidth head ≤ 237) :
    fieldWidth (recordList head 0 records).2 ≤ 238 := fieldWidth_recordList (tail := 0) records fits

theorem House.queueRead_width (h : House) (n : Screen) (first : Nat) : fieldWidth (h.queueRead n first) ≤ 238 := by
  unfold House.queueRead
  refine fieldWidth_recordList_last _ ?_
  simp only [fieldWidth_append, fieldWidth_uOpt]
  exact (by decide : (1 + 2 + 1) + (1 + 3) + (1 + 4) + 1 ≤ 237)

theorem State.clipList_width (s : State) (first : Nat) : fieldWidth (s.clipList first) ≤ 238 := by
  unfold State.clipList
  dsimp only
  rw [fieldWidth_append]
  exact fieldWidth_recordList _ (by decide : 2 + 2 + 1 ≤ 237)

theorem House.orderList_width (h : House) (number : Nat) : fieldWidth (h.orderList number) ≤ 238 := by
  unfold House.orderList
  dsimp only
  rw [fieldWidth_append]
  exact fieldWidth_recordList _ (by decide : 1 + 2 ≤ 237)

theorem Station.fields_width (x : Station) (first : Nat) : fieldWidth (x.fields first) ≤ 238 := by
  unfold Station.fields
  refine fieldWidth_recordList_last _ ?_
  exact (by decide : 1 + 1 + 2 + 1 + 1 + 1 + 1 + 1 + 1 + 1 + 1 + 1 + 3 + 3 ≤ 237)

/-! ### The reading requests -/

/-- A read of one screen's house: it answers the fields and changes nothing but the link. -/
theorem screenRead_accepted {kind tag screen : Nat} {n : Screen} {rule : Screen → House → House × Answer} {s : State}
    {fields : List Field} (a : s.accepting) (named : screenOfCode screen = some n)
    (e : rule n s.taken.house = (s.taken.house, ok fields)) :
    houseRequest kind tag (onScreen screen rule) s = .next (s.taken.answered kind tag .ok fields) :=
  screenRequest_accepted a named e

theorem orderRead_found {number : Nat} {h : House} {o : Order} (range : 1 ≤ number ∧ number ≤ 999)
    (found : h.order? number = some o) :
    h.orderRead 1 number = ok (o.record o.state.code ++ [u32 (o.due.getD 0xFFFFFFFF)]) := by
  unfold House.orderRead
  rw [if_neg (by omega), found]
  rfl

theorem orderRead_missing {number : Nat} {h : House} (range : 1 ≤ number ∧ number ≤ 999)
    (missing : h.order? number = none) : h.orderRead 1 number = refuse .notFound [] := by
  unfold House.orderRead
  rw [if_neg (by omega), missing]
  rfl

/-- Settles O23: each rule answers the fields named and leaves the state it is given. -/
theorem readsAnswerAndChangeNothing : Obligations.ReadsAnswerAndChangeNothing := by
  intro tag s a
  refine ⟨fun index => readRequest_accepted a rfl, fun code n named => ⟨screenRead_accepted a named rfl,
    screenRead_accepted a named rfl, fun first low => ⟨screenRead_accepted a named (if_neg (by omega)),
      s.house.queueRead_width n first⟩, fun row position r1 r2 p1 p2 => ⟨?_, ?_⟩⟩,
    fun first low high => ⟨readRequest_accepted a (if_pos ((clipId_iff first).2 ⟨low, high⟩)), s.clipList_width first⟩,
    fun number low high => ⟨?_, readRequest_accepted a (if_neg (by omega)),
      s.house.orderList_width number⟩,
    fun code first st named low high => ⟨readRequest_accepted a ?_, (s.house.station st).fields_width first⟩⟩
  · exact screenRead_accepted a named (if_pos (decide_eq_true ⟨r1, r2, p1, p2⟩))
  · exact screenRead_accepted a named (if_pos (decide_eq_true ⟨r1, r2, p1, p2⟩))
  · cases found : s.house.order? number with
    | some o => exact readRequest_accepted a (orderRead_found ⟨low, high⟩ found)
    | none => exact readRequest_refused a (orderRead_missing ⟨low, high⟩ found)
  · rw [named]
    exact if_pos ⟨low, high⟩

end Machine
end Sys2Proof
end


-- ==== Sys2Proof/Proofs/Mix.lean ====
section
/-! The programme mix: its arithmetic (R54, R55), and the requests that set it (R51, R52, R63, R65). -/

set_option autoImplicit false

namespace Sys2Proof
namespace Machine

/-! ### One sample (R54, R55) -/

/-- A total within the range of the output keeps its residue exactly. -/
theorem mixSample_exact {p a r : Int} {gp ga : Nat} (low : -8388608 * 32768 ≤ p * gp + a * ga + r)
    (high : p * gp + a * ga + r < 8388608 * 32768) :
    mixSample p gp a ga r =
      { out := (p * gp + a * ga + r) / 32768, residue := (p * gp + a * ga + r) % 32768, saturated := false } := by
  unfold mixSample
  generalize p * gp + a * ga + r = t at low high ⊢
  have upper : ¬ 8388607 < t / 32768 := by omega
  have lower : ¬ t / 32768 < -8388608 := by omega
  simp only [if_neg upper, if_neg lower, Mixed.mk.injEq, true_and, and_true]
  omega

theorem mixSample_above {p a r : Int} {gp ga : Nat} (high : 8388608 * 32768 ≤ p * gp + a * ga + r) :
    mixSample p gp a ga r = { out := 8388607, residue := 0, saturated := true } :=
  if_pos (by generalize p * gp + a * ga + r = t at high ⊢; omega)

theorem mixSample_below {p a r : Int} {gp ga : Nat} (low : p * gp + a * ga + r < -8388608 * 32768) :
    mixSample p gp a ga r = { out := -8388608, residue := 0, saturated := true } :=
  (if_neg (by generalize p * gp + a * ga + r = t at low ⊢; omega)).trans
    (if_pos (by generalize p * gp + a * ga + r = t at low ⊢; omega))

/-- An output that is not saturated and its residue carry the whole total. -/
theorem mixSample_carries {p a r : Int} {gp ga : Nat} (plain : (mixSample p gp a ga r).saturated = false) :
    (mixSample p gp a ga r).out * 32768 + (mixSample p gp a ga r).residue = p * gp + a * ga + r := by
  unfold mixSample at plain ⊢
  generalize p * gp + a * ga + r = t at plain ⊢
  dsimp only at plain ⊢
  split at plain
  · cases plain
  · split at plain
    · cases plain
    · next upper lower => rw [if_neg upper, if_neg lower]; dsimp only; omega

/-- A product of a sample and a gain is at most their largest values' product. -/
theorem natAbs_mul_gain {p : Int} {g : Nat} (sample : p.natAbs ≤ 8388608) (gain : g ≤ 32768) :
    (p * g).natAbs ≤ 8388608 * 32768 := by
  rw [Int.natAbs_mul]
  exact Nat.mul_le_mul sample gain

theorem mixTotal_small {p a r : Int} {gp ga : Nat} (hp : p.natAbs ≤ 8388608) (ha : a.natAbs ≤ 8388608)
    (hgp : gp ≤ 32768) (hga : ga ≤ 32768) (low : 0 ≤ r) (high : r ≤ 32767) :
    (p * gp + a * ga + r).natAbs < 2 ^ 40 := by
  have programme := natAbs_mul_gain hp hgp
  have clip := natAbs_mul_gain ha hga
  omega

/-- Over a run without saturation the outputs and the last residue carry exactly what went in. -/
theorem mixRun_carries (gp ga : Nat) (r : Int) (xs : List (Int × Int))
    (plain : ∀ m ∈ mixRun gp ga r xs, m.saturated = false) :
    ((mixRun gp ga r xs).map Mixed.out).sum * 32768 + ((mixRun gp ga r xs).getLast?.map Mixed.residue).getD r
      = (xs.map fun x => x.1 * (gp : Int) + x.2 * (ga : Int)).sum + r := by
  induction xs generalizing r with
  | nil => simp [mixRun]
  | cons x rest ih =>
    have first := mixSample_carries (plain (mixSample x.1 gp x.2 ga r) (List.mem_cons_self ..))
    have others := ih (mixSample x.1 gp x.2 ga r).residue fun m inside => plain m (List.mem_cons_of_mem _ inside)
    have last : ((mixRun gp ga r (x :: rest)).getLast?.map Mixed.residue).getD r =
        ((mixRun gp ga (mixSample x.1 gp x.2 ga r).residue rest).getLast?.map Mixed.residue).getD
          (mixSample x.1 gp x.2 ga r).residue := by
      simp only [mixRun, List.getLast?_cons]
      cases (mixRun gp ga (mixSample x.1 gp x.2 ga r).residue rest).getLast? <;> simp
    rw [last]
    simp only [mixRun, List.map_cons, List.sum_cons] at others ⊢
    omega

/-- Settles O35. -/
theorem mixCarriesItsResidue : Obligations.MixCarriesItsResidue := by
  refine ⟨fun p a r gp ga => ⟨_, rfl, fun low high => ?_, mixSample_above, mixSample_below, mixTotal_small⟩,
    mixRun_carries⟩
  rw [mixSample_exact low high]
  generalize p * gp + a * ga + r = t 
  dsimp only
  exact ⟨by omega, by omega, by omega, rfl⟩

/-! ### Requests on the mix (R51, R52, R63, R65) -/

/-- A rule that accepts: the state it leaves, and a reply OK with its fields (R190). -/
theorem request_accepted {kind tag : Nat} {rule : State → State × Answer} {s t : State} {fields : List Field}
    (a : s.accepting) (e : rule s.taken = (t, ok fields)) :
    request kind tag rule s = .next (State.answered kind tag .ok fields t) := by
  rw [request_taken kind tag rule s a, e]; rfl

theorem isFlag_iff (v : Nat) : isFlag v = true ↔ v ≤ 1 := decide_eq_true_iff

section MixSet
variable {tag screen : Nat} {n : Screen} {s : State} (a : s.accepting) (named : screenOfCode screen = some n)
  (m : MixSettings)
include a named

theorem exec_mixSet_refused {st : Status} {detail : List Field}
    (e : s.taken.mixSet n m = (s.taken, refuse st detail)) :
    exec (.mixSet tag screen m.delay m.fade m.duck m.release m.silence m.hot m.limit) s =
      .next (s.turnedDown 0x30 tag st detail) :=
  request_refused a (by rw [named]; exact e)

theorem exec_mixSet_accepted {t : State} {fields : List Field} (e : s.taken.mixSet n m = (t, ok fields)) :
    exec (.mixSet tag screen m.delay m.fade m.duck m.release m.silence m.hot m.limit) s =
      .next (State.answered 0x30 tag .ok fields t) :=
  request_accepted a (by rw [named]; exact e)

end MixSet

theorem allScreens_any_iff (p : Screen → Bool) : allScreens.any p = true ↔ ∃ n, p n = true := by
  simp [List.any_eq_true, mem_allScreens]

/-- The delay that the requests taken so far leave, after a partition of other units was accepted. -/
theorem Channel.latest_repartition (units : Nat) (c : Channel) :
    (c.repartition units).latest.delay = min c.latest.delay (units * 2048 - 1) := rfl

theorem State.partitionFields_repartitioned (units : Nat) (s : State) :
    State.partitionFields units
        { s with stagedUnits := some units, channels := s.channels.map (Channel.repartition units) } =
      [u24 (units * 2048), u16 (8192 - 16 * units)] ++ allScreens.map fun n =>
        u24 (min (s.channel n).latest.delay (units * 2048 - 1)) := by
  refine congrArg _ (List.map_congr_left fun n _ => ?_)
  have moved : tget (s.channels.map (Channel.repartition units)) n = (s.channel n).repartition units := by
    simp [tget, State.channel]
  exact congrArg (fun c : Channel => u24 c.latest.delay) moved

theorem exec_levelRead (tag screen clear : Nat) (s : State) :
    exec (.levelRead tag screen clear) s = execLevelRead tag screen clear s := rfl

theorem levelRead_read {tag screen : Nat} {n : Screen} {s : State} (a : s.accepting)
    (named : screenOfCode screen = some n) :
    exec (.levelRead tag screen 0) s = .next (s.taken.answered 0x32 tag .ok (s.levelRead n)) := by
  rw [exec_levelRead, execLevelRead, named]
  exact congrArg _ (State.receive_taken 0x32 tag _ _ s a)

theorem levelRead_clear {tag screen : Nat} {n : Screen} {s : State} (a : s.accepting)
    (named : screenOfCode screen = some n) :
    exec (.levelRead tag screen 1) s = .next
      { s.taken.answered 0x32 tag .ok (s.levelRead n) with
        channels := tmod s.channels n fun c => { c with summary := false } } := by
  rw [exec_levelRead, execLevelRead, named]
  exact congrArg _ (State.receive_taken 0x32 tag _ _ s a)

/-- Settles O39. -/
theorem mixRequestsStage : Obligations.MixRequestsStage := by
  intro tag s a
  refine ⟨fun screen n m named => ⟨fun out => ?_, fun fine moved playing => ?_, fun fine may => ?_⟩,
    fun units => ⟨fun out => request_refused a (if_pos out), fun fine busy => ?_, fun fine quiet => ?_⟩,
    fun screen n named => ⟨levelRead_read a named, levelRead_clear a named, request_accepted a ?_⟩,
    request_accepted a rfl, fun selection on wrong => request_refused a ?_⟩
  case refine_1 => exact exec_mixSet_refused a named m (if_pos (by rw [Bool.not_eq_true]; exact out))
  case refine_2 =>
    exact exec_mixSet_refused a named m ((if_neg (not_not_intro fine)).trans (if_pos ⟨moved, playing⟩))
  case refine_3 =>
    refine exec_mixSet_accepted a named m ((if_neg (not_not_intro fine)).trans (if_neg ?_))
    rintro ⟨moved, playing⟩
    obtain same | ⟨quiet, still⟩ := may
    · exact moved same
    · exact playing.elim quiet still
  case refine_4 =>
    refine request_refused a ((if_neg (Nat.not_lt.mpr fine)).trans (if_pos ?_))
    exact (allScreens_any_iff _).2 (busy.imp fun n => decide_eq_true)
  case refine_5 =>
    have idle : ¬ (allScreens.any fun n => decide ((s.taken.house.ctl n).state ≠ .idle)) = true := by
      rw [allScreens_any_iff]
      rintro ⟨n, busy⟩
      exact of_decide_eq_true busy (quiet n)
    refine ⟨fun ⟨p, held, between⟩ => request_refused a ?_, fun same => request_accepted a ?_,
      fun free change => request_accepted a ?_⟩
    · refine (if_neg (Nat.not_lt.mpr fine)).trans ((if_neg idle).trans (if_pos ?_))
      exact List.any_eq_true.2 ⟨p, held, decide_eq_true between⟩
    · refine (if_neg (Nat.not_lt.mpr fine)).trans ((if_neg idle).trans ((if_neg ?_).trans (if_pos same)))
      intro held
      obtain ⟨p, _, between⟩ := List.any_eq_true.1 held
      have between := of_decide_eq_true between
      change 16 * s.latestUnits ≤ p ∧ p < 16 * units at between
      omega
    · refine (if_neg (Nat.not_lt.mpr fine)).trans ((if_neg idle).trans ((if_neg ?_).trans ((if_neg change).trans ?_)))
      · intro held
        obtain ⟨p, member, between⟩ := List.any_eq_true.1 held
        exact free p member (of_decide_eq_true between)
      · exact congrArg (fun fs => (_, ok fs)) (State.partitionFields_repartitioned units s.taken)
  case refine_6 =>
    have on : screen ≠ 0 := by rintro rfl; cases named
    rw [if_neg on, named]
  case refine_7 => rw [if_neg on, wrong]

end Machine
end Sys2Proof
end


-- ==== Sys2Proof/Proofs/ClipLoads.lean ====
section
/-! CLIP BEGIN, CLIP DATA and CLIP END (R69 to R71). -/

set_option autoImplicit false

namespace Sys2Proof
namespace Machine

/-! ### Bytes of the audio DRAM -/

/-- Erased pages read as never written, and every other byte stays. -/
theorem readByte_erasePages (m : Memory) (pages : List Nat) (a : Nat) :
    readByte (erasePages m pages) a = if pages.contains (pageOf a) then 0 else readByte m a := by
  induction m with
  | nil => exact (ite_self (c := pages.contains (pageOf a) = true) (0 : Byte)).symm
  | cons c rest ih =>
    unfold erasePages at ih ⊢
    by_cases here : c.1 = a
    · subst here
      by_cases erased : pages.contains (pageOf c.1) = true
      · rw [List.filter_cons_of_neg (by rw [erased]; decide), ih, if_pos erased, if_pos erased]
      · rw [List.filter_cons_of_pos (by simpa using erased), if_neg erased]
        simp [readByte]
    · have skip (l : Memory) : readByte (c :: l) a = readByte l a := by rw [readByte, if_neg here]
      rw [List.filter_cons, skip rest]
      split
      · rw [skip, ih]
      · exact ih

theorem readByte_writeSample_ne {m : Memory} {pages : List Nat} {i a : Nat} {v : Int}
    (high : a ≠ sampleAddress pages i) (low : a ≠ sampleAddress pages i + 1) :
    readByte (writeSample m pages i v) a = readByte m a :=
  (readByte_writeByte_ne _ _ _ _ low).trans (readByte_writeByte_ne _ _ _ _ high)

/-- CLIP DATA leaves every byte that is not one of its samples'. -/
theorem readByte_writeSamples_ne {m : Memory} {pages : List Nat} {offset a : Nat} {samples : List Int}
    (outside : ∀ i < samples.length,
      a ≠ sampleAddress pages (offset + i) ∧ a ≠ sampleAddress pages (offset + i) + 1) :
    readByte (writeSamples m pages offset samples) a = readByte m a := by
  induction samples generalizing m offset with
  | nil => rfl
  | cons v rest ih =>
    obtain ⟨high, low⟩ := outside 0 (Nat.succ_pos _)
    refine Eq.trans (ih fun i inside => ?_) (readByte_writeSample_ne high low)
    have next := outside (i + 1) (Nat.succ_lt_succ inside)
    rwa [show offset + (i + 1) = offset + 1 + i by omega] at next

/-! ### Samples at different places (R68) -/

/-- Within its pages, a clip has each sample at an address of its own. -/
theorem sampleAddress_inj {pages : List Nat} {i j : Nat} (once : pages.Nodup) (hi : i < pages.length * 2048)
    (hj : j < pages.length * 2048) (same : sampleAddress pages i = sampleAddress pages j) : i = j := by
  change pages.getD (i / 2048) 0 * 4096 + 2 * (i % 2048) = pages.getD (j / 2048) 0 * 4096 + 2 * (j % 2048) at same
  have pi : i / 2048 < pages.length := by omega
  have pj : j / 2048 < pages.length := by omega
  rw [List.getD_eq_getElem _ _ pi, List.getD_eq_getElem _ _ pj] at same
  have page : pages[i / 2048] = pages[j / 2048] := by omega
  have place := (List.Nodup.getElem_inj_iff once).1 page
  omega

theorem sampleAddress_even (pages : List Nat) (i : Nat) : sampleAddress pages i % 2 = 0 := by
  change (pages.getD (i / 2048) 0 * 4096 + 2 * (i % 2048)) % 2 = 0
  omega

/-- A sample's bytes are not those of another one. -/
theorem sampleAddress_apart {pages : List Nat} {i j : Nat} (once : pages.Nodup) (hi : i < pages.length * 2048)
    (hj : j < pages.length * 2048) (ne : i ≠ j) :
    sampleAddress pages i ≠ sampleAddress pages j ∧ sampleAddress pages i ≠ sampleAddress pages j + 1
      ∧ sampleAddress pages i + 1 ≠ sampleAddress pages j
      ∧ sampleAddress pages i + 1 ≠ sampleAddress pages j + 1 := by
  have apart := mt (sampleAddress_inj once hi hj) ne
  have evenI := sampleAddress_even pages i
  have evenJ := sampleAddress_even pages j
  omega

theorem sampleBits_lt (v : Int) : sampleBits v < 65536 := by unfold sampleBits; omega

/-- A sample just written reads back. -/
theorem readSampleBits_writeSample {m : Memory} (pages : List Nat) (i : Nat) (v : Int) (w : m.wf = true) :
    readSampleBits (writeSample m pages i v) pages i = sampleBits v := by
  have small := sampleBits_lt v
  unfold readSampleBits writeSample
  dsimp only
  rw [readByte_writeByte_self _ _ _ (writeByte_wf _ _ _ w), readByte_writeByte_ne _ _ _ _ (by omega),
    readByte_writeByte_self _ _ _ w, BitVec.toNat_ofNat, BitVec.toNat_ofNat]
  omega

theorem readSampleBits_writeSamples_ne {m : Memory} {pages : List Nat} {offset j : Nat} {samples : List Int}
    (once : pages.Nodup) (fits : offset + samples.length ≤ pages.length * 2048) (before : j < offset) :
    readSampleBits (writeSamples m pages offset samples) pages j = readSampleBits m pages j := by
  have apart (i : Nat) (inside : i < samples.length) :=
    sampleAddress_apart once (i := j) (j := offset + i) (by omega) (by omega) (by omega)
  unfold readSampleBits
  dsimp only
  rw [readByte_writeSamples_ne fun i inside => ⟨(apart i inside).1, (apart i inside).2.1⟩,
    readByte_writeSamples_ne fun i inside => ⟨(apart i inside).2.2.1, (apart i inside).2.2.2⟩]

/-- Every sample of a CLIP DATA reads back (R70). -/
theorem readSample_writeSamples {m : Memory} {pages : List Nat} {offset : Nat} {samples : List Int} (w : m.wf = true)
    (once : pages.Nodup) (fits : offset + samples.length ≤ pages.length * 2048) {i : Nat} {v : Int}
    (sent : samples[i]? = some v) (low : -32768 ≤ v) (high : v ≤ 32767) :
    readSample (writeSamples m pages offset samples) pages (offset + i) = v := by
  induction samples generalizing m offset i with
  | nil => cases sent
  | cons x rest ih =>
    rw [List.length_cons] at fits
    cases i with
    | zero =>
      obtain rfl : x = v := Option.some.inj sent
      have inRange : isClipSample x = true := decide_eq_true ⟨low, high⟩
      unfold readSample writeSamples
      rw [Nat.add_zero offset, readSampleBits_writeSamples_ne (offset := offset + 1) (samples := rest) once (by omega)
        (Nat.lt_succ_self offset), readSampleBits_writeSample pages offset x w, sampleValue_sampleBits inRange]
    | succ i =>
      rw [show offset + (i + 1) = offset + 1 + i by omega]
      exact ih (writeSample_wf m pages offset x w) (by omega) sent

/-! ### The checks of a load -/

theorem ClipRec.loadCheck_of_loading {r : ClipRec} (loading : r.state = .loading) : r.loadCheck = none := by
  rw [ClipRec.loadCheck, loading]

theorem ClipRec.loadCheck_of_loaded {r : ClipRec} (loaded : r.state = .ready ∨ r.state = .bad) :
    r.loadCheck = some .badState := by
  obtain state | state := loaded <;> rw [ClipRec.loadCheck, state]

section Rules
variable {id : Nat} {s : State} (range : clipId id = true)
include range

theorem State.clipData_refused {offset : Nat} {samples : List Int} {st : Status} (nonempty : samples ≠ [])
    (fits : samples.length ≤ 112) (check : (s.house.clip id).loadCheck = some st) :
    s.clipData id offset samples = (s, refuse st []) := by
  simp [State.clipData, check, range, nonempty, Nat.not_lt.mpr fits]

theorem State.clipData_loading {offset : Nat} {samples : List Int} (nonempty : samples ≠ [])
    (fits : samples.length ≤ 112) (loading : (s.house.clip id).state = .loading) :
    s.clipData id offset samples =
      if (s.house.clip id).length < offset + samples.length then (s, refuse .badValue [])
      else ({ s with dram := writeSamples s.dram (s.house.clip id).pages offset samples }, ok []) := by
  simp [State.clipData, ClipRec.loadCheck_of_loading loading, range, nonempty, Nat.not_lt.mpr fits]

theorem State.clipEnd_refused {crc : Nat} {st : Status} (check : (s.house.clip id).loadCheck = some st) :
    s.clipEnd id crc = (s, refuse st []) := by
  simp [State.clipEnd, check, range]

theorem State.clipEnd_loading {crc : Nat} (loading : (s.house.clip id).state = .loading) :
    s.clipEnd id crc =
      (s.onHouse (House.setClip id { s.house.clip id with
        state := if clipCrc s.dram (s.house.clip id).pages (s.house.clip id).length = crc then .ready else .bad }),
        ok [u8 (if clipCrc s.dram (s.house.clip id).pages (s.house.clip id).length = crc then
          ClipState.ready else .bad).code,
          u16 (clipCrc s.dram (s.house.clip id).pages (s.house.clip id).length)]) := by
  simp [State.clipEnd, ClipRec.loadCheck_of_loading loading, range]

theorem State.clipBegin_checks {length : Nat} (low : 1 ≤ length) (high : length ≤ 4194304) :
    s.clipBegin id length =
      if (s.house.clip id).state ≠ .empty then (s, refuse .badState [])
      else if s.freePages.length < ceilDiv length 2048 then (s, refuse .full [u16 s.freePages.length])
      else
        let pages := s.freePages.take (ceilDiv length 2048)
        ({ s with
           house := s.house.setClip id { state := .loading, length := length, pages := pages, refs := 0 }
           dram := erasePages s.dram pages }, ok [u16 pages.length]) := by
  refine if_neg ?_
  rw [not_or, not_or]
  exact ⟨not_not_intro range, by omega, by omega⟩

end Rules

/-- Settles O41. -/
theorem clipDataWritesItsSamples : Obligations.ClipDataWritesItsSamples := by
  intro tag id offset samples s a low high nonempty fits
  have range : clipId id = true := (clipId_iff id).2 ⟨low, high⟩
  refine ⟨fun empty => request_refused a (State.clipData_refused range nonempty fits
      (ClipRec.loadCheck_of_empty empty)),
    fun loaded => request_refused a (State.clipData_refused range nonempty fits (ClipRec.loadCheck_of_loaded loaded)),
    fun loading long => request_refused a ?_, fun loading inside =>
      ⟨writeSamples s.dram (s.house.clip id).pages offset samples, request_accepted a ?_, ?_, ?_⟩⟩
  case refine_1 =>
    exact (State.clipData_loading (s := s.taken) range nonempty fits loading).trans (if_pos long)
  case refine_2 =>
    exact (State.clipData_loading (s := s.taken) range nonempty fits loading).trans (if_neg (Nat.not_lt.mpr inside))
  case refine_3 => exact fun b outside => readByte_writeSamples_ne outside
  case refine_4 =>
    exact fun w once room i v sent low high =>
      readSample_writeSamples w once (inside.trans room) sent low high

/-- Settles O40. -/
theorem clipBeginAndEnd : Obligations.ClipBeginAndEnd := by
  intro tag id s a
  refine ⟨fun out => ?_, fun length out => request_refused a (if_pos (.inr out)), fun low high => ?_⟩
  · have range : ¬ clipId id = true := by rw [clipId_iff]; omega
    exact ⟨fun length => request_refused a (if_pos (.inl range)), fun crc => request_refused a (if_pos range)⟩
  · have range : clipId id = true := (clipId_iff id).2 ⟨low, high⟩
    refine ⟨fun length short long empty => ⟨fun few => request_refused a ?_, fun room =>
        ⟨_, _, request_accepted a ?_, rfl, readByte_erasePages _ _⟩⟩,
      fun length short long used => request_refused a ?_, fun crc loading => ?_,
      fun crc empty => clipEnd_of_empty a range empty,
      fun crc loaded => request_refused a (State.clipEnd_refused range (ClipRec.loadCheck_of_loaded loaded))⟩
    · exact (State.clipBegin_checks range short long).trans ((if_neg (not_not_intro empty)).trans (if_pos few))
    · exact (State.clipBegin_checks range short long).trans
        ((if_neg (not_not_intro empty)).trans (if_neg (Nat.not_lt.mpr room)))
    · exact (State.clipBegin_checks range short long).trans (if_pos used)
    · exact request_accepted a (State.clipEnd_loading (s := s.taken) range loading)

end Machine
end Sys2Proof
end


-- ==== Sys2Proof/Proofs/SoundTables.lean ====
section
/-! CALL CLIPS SET, CLASS SET and ROUTE SET (R73, R75, R77, R78). -/

set_option autoImplicit false

namespace Sys2Proof
namespace Machine

/-! ### The roles of a call-clip configuration (R75) -/

/-- A complete configuration names its roles with the codes 1 to 12 in order, the postamble's only when present. -/
theorem CallClips.codedRoles_eq {cc : CallClips} (ten : cc.digits.length = 10) :
    cc.codedRoles = (1, cc.preamble) ::
      ((if cc.postamble = 0 then [] else [(2, cc.postamble)]) ++ List.zip (List.range' 3 10) cc.digits) := by
  unfold CallClips.codedRoles
  rw [List.zipIdx_eq_zip_range', ten, List.zip_swap]

theorem CallClips.codedRoles_clips (cc : CallClips) : cc.codedRoles.map Prod.snd = cc.roles := by
  have digits : ((cc.digits.zipIdx 3).map Prod.swap).map Prod.snd = cc.digits := by
    rw [List.map_map]
    exact List.zipIdx_map_fst 3 cc.digits
  unfold CallClips.codedRoles CallClips.roles
  rw [List.map_cons, List.map_append, digits]
  split <;> rfl

theorem CallClips.all_clipId (cc : CallClips) :
    cc.roles.all clipId = true ↔ ∀ r ∈ cc.codedRoles, 1 ≤ r.2 ∧ r.2 ≤ 127 := by
  rw [← cc.codedRoles_clips, List.all_map, List.all_eq_true]
  exact forall₂_congr fun r _ => clipId_iff r.2

theorem House.clipReady_iff (h : House) (id : Nat) : h.clipReady id = true ↔ (h.clip id).state = .ready :=
  decide_eq_true_iff

theorem House.unready_none {h : House} {roles : List (Nat × Nat)}
    (ready : ∀ r ∈ roles, (h.clip r.2).state = .ready) : roles.find? (fun r => !h.clipReady r.2) = none := by
  rw [List.find?_eq_none]
  intro r inside wrong
  rw [(h.clipReady_iff r.2).2 (ready r inside)] at wrong
  cases wrong

/-- The first role whose clip is not READY is the one found. -/
theorem House.unready_first {h : House} {before after : List (Nat × Nat)} {r : Nat × Nat}
    (ready : ∀ q ∈ before, (h.clip q.2).state = .ready) (wrong : (h.clip r.2).state ≠ .ready) :
    (before ++ r :: after).find? (fun r => !h.clipReady r.2) = some r := by
  rw [List.find?_append, House.unready_none ready, Option.none_or, List.find?_cons_of_pos]
  rw [Bool.not_eq_true', ← Bool.not_eq_true, House.clipReady_iff]
  exact wrong

section CallClipsSet
variable {tag preamble postamble : Nat} {digits : List Nat} {s : State} (a : s.accepting)
  (ten : digits.length = 10)

include a in
theorem callClipsSet_outOfRange
    (wrong : ¬ (CallClips.mk preamble postamble digits).roles.all clipId = true) :
    exec (.callClipsSet tag preamble postamble digits) s = .next (s.turnedDown 0x39 tag .badValue []) :=
  houseRequest_refused a (if_neg fun fine => wrong fine.2)

include a ten in
theorem callClipsSet_notReady {r : Nat × Nat} (fine : (CallClips.mk preamble postamble digits).roles.all clipId = true)
    (first : (CallClips.mk preamble postamble digits).codedRoles.find? (fun r => !s.taken.house.clipReady r.2) = some r) :
    exec (.callClipsSet tag preamble postamble digits) s = .next (s.turnedDown 0x39 tag .notReady [u8 r.1]) :=
  houseRequest_refused a ((if_pos ⟨ten, fine⟩).trans (by rw [first]))

include a ten in
theorem callClipsSet_accepted (fine : (CallClips.mk preamble postamble digits).roles.all clipId = true)
    (ready : (CallClips.mk preamble postamble digits).codedRoles.find? (fun r => !s.taken.house.clipReady r.2) = none) :
    exec (.callClipsSet tag preamble postamble digits) s = .next (s.replied
      { (s.taken.house.takeRefs (CallClips.mk preamble postamble digits).roles).dropRefs
          ((s.house.callClips.map CallClips.roles).getD []) with
        callClips := some ⟨preamble, postamble, digits⟩ } 0x39 tag []) :=
  houseRequest_accepted a ((if_pos ⟨ten, fine⟩).trans (by rw [ready] <;> rfl))

end CallClipsSet

/-! ### Classes and routes (R77, R78) -/

theorem AnnClass.index_inj {c e : AnnClass} (same : c.index = e.index) : c = e := by
  cases c <;> cases e <;> first | rfl | exact absurd same (by decide)

section Tables
variable {tag cls : Nat} {c : AnnClass} {s : State} (a : s.accepting)
include a

theorem classSetRow_unknown (unknown : AnnClass.ofCode cls = none) (priority level maxWait : Nat) :
    exec (.classSetRow tag cls priority level maxWait) s = .next (s.turnedDown 0x3A tag .badValue []) :=
  houseRequest_refused a (by rw [unknown])

theorem routeSet_unknown (unknown : AnnClass.ofCode cls = none) (screens : Nat) :
    exec (.routeSet tag cls screens) s = .next (s.turnedDown 0x3B tag .badValue []) :=
  houseRequest_refused a (by rw [unknown])

variable (known : AnnClass.ofCode cls = some c)
include known

theorem classSetRow_refused {priority level maxWait : Nat}
    (wrong : ¬ ((if c = .safety then priority = 0 else 1 ≤ priority ∧ priority ≤ 7)
      ∧ level ≤ Config.unity ∧ 10 ≤ maxWait ∧ maxWait ≤ 3600)) :
    exec (.classSetRow tag cls priority level maxWait) s = .next (s.turnedDown 0x3A tag .badValue []) :=
  houseRequest_refused a (by rw [known]; exact if_neg wrong)

theorem classSetRow_accepted {priority level maxWait : Nat}
    (fine : (if c = .safety then priority = 0 else 1 ≤ priority ∧ priority ≤ 7)
      ∧ level ≤ Config.unity ∧ 10 ≤ maxWait ∧ maxWait ≤ 3600) :
    exec (.classSetRow tag cls priority level maxWait) s = .next (s.replied
      (allScreens.foldl (fun h n => h.settleQueue n)
        { s.taken.house with classes := tset s.house.classes c.index ⟨priority, level, maxWait⟩ }) 0x3A tag []) :=
  houseRequest_accepted a (by rw [known]; exact if_pos fine)

theorem routeSet_refused {screens : Nat} (wrong : 16 ≤ screens) :
    exec (.routeSet tag cls screens) s = .next (s.turnedDown 0x3B tag .badValue []) :=
  houseRequest_refused a (by rw [known]; exact if_neg (Nat.not_lt.2 wrong))

theorem routeSet_accepted {screens : Nat} (fine : screens < 16) :
    exec (.routeSet tag cls screens) s = .next (s.replied
      { s.taken.house with
        routes := tset s.house.routes c.index (allScreens.filter fun n => screens.testBit n.val) } 0x3B tag []) :=
  houseRequest_accepted a (by rw [known]; exact if_pos fine)

end Tables

/-- A class row replaced, whatever announcements expire then (R82). -/
theorem House.settled_kept (h : House) :
    House.SoundKept h (allScreens.foldl (fun h n => h.settleQueue n) h) :=
  (House.foldl_sound _ (fun h n => House.settleQueue_sound n h) _ h).kept

theorem House.classRow_congr {a b : House} (same : b.classes = a.classes) (c : AnnClass) :
    b.classRow c = a.classRow c := by unfold House.classRow; rw [same]

/-- Settles O43. -/
theorem soundTablesSet : Obligations.SoundTablesSet := by
  intro tag s a
  refine ⟨fun preamble postamble digits ten fine => ?_, fun preamble postamble digits ten => ?_,
    fun cls unknown => ⟨classSetRow_unknown a unknown, routeSet_unknown a unknown⟩, houseRequest_accepted a rfl,
    fun cls priority level maxWait c known => ⟨fun fine => ?_, fun wrong => ?_⟩,
    fun gap => ⟨fun fine => houseRequest_accepted a (if_pos fine),
      fun wrong => houseRequest_refused a (if_neg (Nat.not_le.2 wrong))⟩,
    fun cls screens c known => ⟨routeSet_accepted a known, routeSet_refused a known⟩⟩
  · have coded : ∀ r ∈ (CallClips.mk preamble postamble digits).codedRoles,
        r.2 ∈ (CallClips.mk preamble postamble digits).roles := fun r inside => by
      rw [← CallClips.codedRoles_clips]
      exact List.mem_map_of_mem inside
    refine callClipsSet_accepted a ten ((CallClips.all_clipId _).2 fun r inside => ?_) (House.unready_none ?_)
    · obtain ⟨low, high, _⟩ := fine r.2 (coded r inside)
      exact ⟨low, high⟩
    · intro r inside
      obtain ⟨_, _, ready⟩ := fine r.2 (coded r inside)
      exact ready
  · have named := CallClips.codedRoles_eq (cc := ⟨preamble, postamble, digits⟩) ten
    refine ⟨fun ⟨r, inside, out⟩ => callClipsSet_outOfRange a fun fine => ?_, fun before r after fine split ready wrong =>
      callClipsSet_notReady a ten ((CallClips.all_clipId _).2 (by rw [named]; exact fine)) ?_⟩
    · have := (CallClips.all_clipId _).1 fine r (by rw [named]; exact inside)
      omega
    · rw [named.trans split]
      exact House.unready_first ready wrong
  · have kept := House.settled_kept
      { s.taken.house with classes := tset s.house.classes c.index ⟨priority, level, maxWait⟩ }
    refine ⟨_, classSetRow_accepted a known fine, ?_, fun e ne => ?_, kept.gap, kept.routes, kept.shows, kept.lines,
      kept.gains⟩
    · rw [House.classRow_congr kept.classes]
      exact tget_tset_self ..
    · rw [House.classRow_congr kept.classes]
      exact tget_tset_ne _ _ _ _ fun same => ne (AnnClass.index_inj same)
  · refine classSetRow_refused a known fun fine => ?_
    obtain ⟨prio, loud, low, high⟩ := fine
    obtain out | out | out | out := wrong
    · split at out <;> rename_i safe
      · rw [if_pos safe] at prio
        exact out prio
      · rw [if_neg safe] at prio
        omega
    · exact absurd loud (Nat.not_le.2 out)
    · omega
    · omega

end Machine
end Sys2Proof
end


-- ==== Sys2Proof/Proofs/Stalls.lean ====
section
/-! Stalls (R114): what a change of one stall leaves of the others, and what shows, calls and orders leave of all. -/

set_option autoImplicit false

namespace Sys2Proof
namespace Machine

/-! ### One stall changed -/

theorem changeStall_getD (rows : List (List Stall)) (row position j : Nat) (f : Stall → Stall) :
    (changeStall rows row position f).getD j [] =
      if row - 1 = j then (rows.getD j []).modify (position - 1) f else rows.getD j [] := by
  unfold changeStall
  rw [List.getD_eq_getElem?_getD, List.getD_eq_getElem?_getD, List.getElem?_modify]
  split
  · cases rows[j]? <;> simp
  · simp

/-- Rows and positions are told apart by their places in the layout. -/
theorem House.stall?_onStall (n m : Screen) (row position r p : Nat) (f : Stall → Stall) (h : House) :
    (h.onStall n row position f).stall? m r p =
      if m = n ∧ r - 1 = row - 1 ∧ p - 1 = position - 1 then (h.stall? m r p).map f else h.stall? m r p := by
  unfold House.stall? House.onStall
  by_cases out : r = 0 ∨ p = 0
  · simp [out]
  · simp only [if_neg out]
    by_cases same : m = n
    · subst same
      rw [House.onLot_lot, changeStall_getD]
      by_cases row' : row - 1 = r - 1
      · rw [if_pos row', List.getElem?_modify]
        by_cases position' : position - 1 = p - 1
        · simp [row', position']
        · simp [row', position', Ne.symm position']
      · rw [if_neg row', if_neg fun both => row' both.2.1.symm]
    · rw [House.onLot_lot_ne _ _ _ _ same, if_neg fun both => same both.1]

theorem House.stall?_onStall_self (n : Screen) (row position : Nat) (f : Stall → Stall) (h : House) :
    (h.onStall n row position f).stall? n row position = (h.stall? n row position).map f := by
  rw [House.stall?_onStall, if_pos ⟨rfl, rfl, rfl⟩]

/-- A stall that is there is at row and position 1 or more. -/
theorem House.stall?_range {h : House} {n : Screen} {row position : Nat} {x : Stall}
    (e : h.stall? n row position = some x) : row ≠ 0 ∧ position ≠ 0 := by
  unfold House.stall? at e
  split at e
  · cases e
  · next out => exact not_or.1 out

theorem House.stall?_onLot (n m : Screen) (f : Lot → Lot) (h : House) (same : ∀ l, (f l).rows = l.rows)
    (row position : Nat) : (h.onLot n f).stall? m row position = h.stall? m row position := by
  unfold House.stall?
  by_cases e : m = n
  · subst e
    rw [House.onLot_lot, same]
  · rw [House.onLot_lot_ne _ _ _ _ e]

theorem House.stall?_congr {a b : House} (lots : b.lots = a.lots) (n : Screen) (row position : Nat) :
    b.stall? n row position = a.stall? n row position := by
  unfold House.stall? House.lot
  rw [lots]

/-! ### The full indication (R118) -/

/-- What working the full indication out afresh does: nothing, or the flag and its notice. -/
theorem House.refreshFull_cases (n : Screen) (h : House) : h.refreshFull n = h ∨
    ∃ b k fs, h.refreshFull n = (h.onLot n fun l => { l with full := b }).notify k fs := by
  unfold House.refreshFull
  dsimp only
  split
  · exact .inl rfl
  · exact .inr ⟨_, _, _, rfl⟩

@[simp] theorem House.refreshFull_stall? (n m : Screen) (row position : Nat) (h : House) :
    (h.refreshFull n).stall? m row position = h.stall? m row position := by
  obtain e | ⟨b, k, fs, e⟩ := h.refreshFull_cases n
  · rw [e]
  · rw [e]
    exact House.stall?_onLot n m (fun l => { l with full := b }) h (fun _ => rfl) row position

/-- The full indication says whether the occupancy is the capacity, and nothing else of the lot changes. -/
theorem House.refreshFull_lot (n : Screen) (h : House) : (h.refreshFull n).lot n =
    { h.lot n with full := decide ((h.lot n).occupancy = (h.lot n).capacity) } := by
  unfold House.refreshFull
  dsimp only
  split
  · next same => rw [same]
  · exact House.onLot_lot ..

theorem House.refreshFull_lot_ne {n m : Screen} (ne : m ≠ n) (h : House) : (h.refreshFull n).lot m = h.lot m := by
  obtain e | ⟨b, k, fs, e⟩ := h.refreshFull_cases n
  · rw [e]
  · rw [e]
    exact House.onLot_lot_ne _ _ _ _ ne

theorem House.refreshFull_eq (n : Screen) (h : House) :
    h.refreshFull n = { h with lots := (h.refreshFull n).lots, out := (h.refreshFull n).out } := by
  obtain e | ⟨b, k, fs, e⟩ := h.refreshFull_cases n <;> rw [e] <;> rfl

/-! ### What shows, calls and orders leave of the stalls -/

/-- Every stall stays as it was, but for orders that ended at it. -/
def House.StallsKept (h h' : House) : Prop :=
  ∀ n row position, ∃ d : Nat, h'.stall? n row position =
    (h.stall? n row position).map fun x => { x with openOrders := x.openOrders - d }

theorem House.StallsKept.of_same {h h' : House} (same : ∀ n r p, h'.stall? n r p = h.stall? n r p) :
    House.StallsKept h h' := fun n r p => ⟨0, by rw [same]; cases h.stall? n r p <;> rfl⟩

theorem House.StallsKept.of_lots {h h' : House} (lots : h'.lots = h.lots) : House.StallsKept h h' :=
  .of_same (House.stall?_congr lots)

theorem House.StallsKept.trans {a b c : House} (x : House.StallsKept a b) (y : House.StallsKept b c) :
    House.StallsKept a c := by
  intro n r p
  obtain ⟨d, first⟩ := x n r p
  obtain ⟨e, second⟩ := y n r p
  refine ⟨d + e, ?_⟩
  rw [second, first, Option.map_map]
  refine congrArg (fun f => Option.map f (a.stall? n r p)) (funext fun s => ?_)
  simp only [Function.comp, Nat.sub_sub]

theorem House.Sound.stalls {h h' : House} (x : House.Sound h h') : House.StallsKept h h' := by
  induction x with
  | refl h => exact .of_lots rfl
  | trans _ _ a b => exact a.trans b
  | place n o h _ => exact .of_lots (by rw [House.placeAnn_eq])
  | takeOut n a h => exact .of_lots (by rw [House.takeOut_eq])
  | displace n v fs o h _ => exact .of_lots (by rw [House.placeAnn_eq, House.takeOut_eq]; rfl)
  | openOrders n r p h =>
    intro m row position
    rw [House.stall?_onStall]
    split
    · exact ⟨1, rfl⟩
    · exact ⟨0, by cases h.stall? m row position <;> rfl⟩
  | _ => exact .of_lots rfl

theorem House.Stage.stalls {h h' : House} (x : House.Stage h h') : House.StallsKept h h' := by
  induction x with
  | refl h => exact .of_lots rfl
  | trans _ _ a b => exact a.trans b
  | sound s => exact s.stalls
  | admission n b h => exact .of_same (House.stall?_onLot n · (fun l => { l with admission := b }) h fun _ => rfl)
  | _ => exact .of_lots rfl

theorem House.StallsKept.vacant {h h' : House} (x : House.StallsKept h h') {n : Screen} {row position : Nat}
    (e : h.stall? n row position = some .vacant) : h'.stall? n row position = some .vacant := by
  obtain ⟨d, e'⟩ := x n row position
  rw [e', e]
  simp [Stall.vacant]

theorem House.StallsKept.found {h h' : House} (x : House.StallsKept h h') {n : Screen} {row position : Nat} {y : Stall}
    (e : h.stall? n row position = some y) :
    ∃ z, h'.stall? n row position = some z ∧ z.state = y.state ∧ z.party = y.party ∧ z.lane = y.lane
      ∧ z.admitTime = y.admitTime := by
  obtain ⟨d, e'⟩ := x n row position
  rw [e', e]
  exact ⟨_, rfl, rfl, rfl, rfl, rfl⟩

theorem House.StallsKept.state {h h' : House} (x : House.StallsKept h h') (n : Screen) (row position : Nat) :
    h'.stallState n row position = h.stallState n row position := by
  obtain ⟨d, e⟩ := x n row position
  unfold House.stallState
  rw [e, Option.map_map]
  rfl

end Machine
end Sys2Proof
end


-- ==== Sys2Proof/Proofs/LotRequests.lean ====
section
/-! LOT CONFIG, STALL BLOCK and STALL UNBLOCK (R116 to R118, R122), DEPART and SWEEP (R124, R125), COUNTERS READ (R133,
R134). -/

set_option autoImplicit false

namespace Sys2Proof
namespace Machine

/-! ### Requests on one stall -/

section OneStall
variable {kind tag screen row position : Nat} {n : Screen} {rule : Screen → House → House × Answer} {s : State}
  (a : s.accepting) (named : screenOfCode screen = some n) (range : stallInRange row position = true)
include a named range

theorem stallRequest_accepted {h : House} {fields : List Field} (e : rule n s.taken.house = (h, ok fields)) :
    houseRequest kind tag (onStallOf screen row position rule) s = .next (s.replied h kind tag fields) :=
  screenRequest_accepted a named ((if_pos range).trans e)

theorem stallRequest_refused {st : Status} {detail : List Field}
    (e : rule n s.taken.house = (s.taken.house, refuse st detail)) :
    houseRequest kind tag (onStallOf screen row position rule) s = .next (s.turnedDown kind tag st detail) :=
  screenRequest_refused a named ((if_pos range).trans e)

end OneStall

/-! ### The layout (R116 to R118) -/

/-- A layout of FREE stalls has none of them occupied. -/
theorem Lot.occupancy_vacant (l : Lot) (counts : List Nat) (rows : l.rows = counts.map fun c => List.replicate c .vacant) :
    l.occupancy = 0 := by
  have none_in (state : StallState) (busy : ¬ StallState.free = state) : l.countState state = 0 := by
    unfold Lot.countState
    rw [rows, List.map_map]
    refine List.sum_eq_zero fun c inside => ?_
    obtain ⟨k, _, rfl⟩ := List.mem_map.1 inside
    exact List.countP_replicate.trans (if_neg (by rw [decide_eq_true_iff]; exact busy))
  rw [Lot.occupancy, none_in .assigned (by decide), none_in .admitted (by decide)]

/-- A lot changed, and its full indication worked out: nothing but lots and notices changes. -/
theorem House.relot_eq (n : Screen) (f : Lot → Lot) (h : House) :
    (h.onLot n f).refreshFull n =
      { h with lots := ((h.onLot n f).refreshFull n).lots, out := ((h.onLot n f).refreshFull n).out } := by
  rw [House.refreshFull_eq n (h.onLot n f)]
  rfl

theorem House.relot_lot (n : Screen) (f : Lot → Lot) (h : House) : ((h.onLot n f).refreshFull n).lot n =
    { f (h.lot n) with full := decide ((f (h.lot n)).occupancy = (f (h.lot n)).capacity) } := by
  rw [House.refreshFull_lot, House.onLot_lot]

theorem House.relot_lot_ne {n m : Screen} (ne : m ≠ n) (f : Lot → Lot) (h : House) :
    ((h.onLot n f).refreshFull n).lot m = h.lot m :=
  (House.refreshFull_lot_ne ne _).trans (House.onLot_lot_ne _ _ _ _ ne)

/-- Settles O51. -/
theorem lotIsConfigured : Obligations.LotIsConfigured := by
  intro tag screen s n a named
  refine ⟨fun rows capacity counts fill fine => ⟨fun occupied => ?_, fun empty few => ?_, fun empty room => ?_⟩,
    fun rows capacity counts fill wrong => screenRequest_refused a named (if_pos (by rw [wrong]; decide)),
    fun capacity => ⟨fun large => screenRequest_refused a named (if_pos large), fun fine => ?_⟩,
    fun row position range => ⟨fun free => stallRequest_accepted a named range (if_pos free),
      fun busy => stallRequest_refused a named range (if_neg busy),
      fun blocked => stallRequest_accepted a named range (if_pos blocked),
      fun other => stallRequest_refused a named range (if_neg other)⟩⟩
  · exact screenRequest_refused a named ((if_neg (not_not_intro fine)).trans (if_pos occupied))
  · exact screenRequest_refused a named
      ((if_neg (not_not_intro fine)).trans ((if_neg (not_not_intro empty)).trans (if_pos few)))
  · refine ⟨_, screenRequest_accepted a named
      ((if_neg (not_not_intro fine)).trans ((if_neg (not_not_intro empty)).trans (if_neg (Nat.not_lt.2 room)))),
      House.relot_eq .., ?_, fun m ne => House.relot_lot_ne ne ..⟩
    rw [House.relot_lot, Lot.occupancy_vacant _ counts rfl]
    simp only [eq_comm (a := (0 : Nat))]
    rfl
  · exact ⟨_, screenRequest_accepted a named (if_neg (Nat.not_lt.2 fine)), House.relot_eq .., House.relot_lot ..,
      fun m ne => House.relot_lot_ne ne ..⟩

/-! ### Departing cars (R124, R125) -/

theorem House.Stage.salesKept_of_sound {h h' : House} (x : House.Sound h h') : h'.salesKept h := x.kept.sales

theorem House.foldl_endOrder_sound (numbers : List Nat) (outcome : OrderOutcome) (reason : EndReason) (h : House) :
    House.Sound h (numbers.foldl (House.endOrder outcome reason) h) :=
  House.foldl_sound _ (House.endOrder_sound outcome reason) numbers h

theorem House.mem_stallOrders {h : House} {o : Order} (m : o ∈ h.orders) :
    o.number ∈ h.stallOrders o.screen o.row o.position :=
  List.mem_map_of_mem (List.mem_filter.2 ⟨m, decide_eq_true ⟨rfl, rfl, rfl⟩⟩)

theorem House.departStall_orders (n : Screen) (p : Nat × Nat) (h : House) : (h.departStall n p).orders =
    ((h.stallOrders n p.1 p.2).foldl (House.endOrder .canceled .stallLeft) h).orders := by
  unfold House.departStall
  rw [House.refreshFull_eq]
  rfl

/-- No order stays at a stall whose car has left (R124). -/
theorem House.departStall_noOrders {n : Screen} {p : Nat × Nat} {h : House} {o : Order}
    (m : o ∈ (h.departStall n p).orders) : ¬ (o.screen = n ∧ o.row = p.1 ∧ o.position = p.2) := by
  rintro ⟨rfl, row, position⟩
  rw [House.departStall_orders] at m
  obtain ⟨q, qm, number, screen, row', position'⟩ := (House.foldl_endOrder_sound _ _ _ _).identity m
  have listed : q.number ∈ h.stallOrders o.screen p.1 p.2 := by
    rw [← row, ← position, ← screen, ← row', ← position']
    exact House.mem_stallOrders qm
  exact House.foldl_endOrder_gone .canceled .stallLeft listed h m number.symm

/-- The orders that a departing car leaves are orders there were. -/
theorem House.departStall_identity {n : Screen} {p : Nat × Nat} {h : House} {o : Order}
    (m : o ∈ (h.departStall n p).orders) : ∃ q ∈ h.orders, Order.SameOrder q o := by
  rw [House.departStall_orders] at m
  exact (House.foldl_endOrder_sound _ _ _ _).identity m

/-- A departing car leaves its stall FREE and every other stall in its state. -/
theorem House.departStall_stall {n : Screen} {p : Nat × Nat} {h : House} {x : Stall}
    (found : h.stall? n p.1 p.2 = some x) : (h.departStall n p).stall? n p.1 p.2 = some .vacant := by
  obtain ⟨y, there, _⟩ := (House.foldl_endOrder_sound (h.stallOrders n p.1 p.2) .canceled .stallLeft h).stalls.found found
  unfold House.departStall
  rw [House.refreshFull_stall?, House.stall?_onStall_self, there]
  rfl

theorem House.stallState_range {h : House} {n : Screen} {row position : Nat} {state : StallState}
    (e : h.stallState n row position = some state) : row ≠ 0 ∧ position ≠ 0 := by
  obtain ⟨x, found, _⟩ := Option.map_eq_some_iff.1 e
  exact House.stall?_range found

theorem House.departStall_others {n m : Screen} {p : Nat × Nat} {row position : Nat} {h : House}
    (there : p.1 ≠ 0 ∧ p.2 ≠ 0) (ne : ¬ (m = n ∧ row = p.1 ∧ position = p.2)) :
    (h.departStall n p).stallState m row position = h.stallState m row position := by
  have ended := (House.foldl_endOrder_sound (h.stallOrders n p.1 p.2) .canceled .stallLeft h).stalls.state m row position
  rw [← ended]
  unfold House.departStall House.stallState
  rw [House.refreshFull_stall?, House.stall?_onStall]
  split
  · next same =>
    obtain ⟨rfl, row', position'⟩ := same
    have out : row = 0 ∨ position = 0 := by
      by_contra inside
      rw [not_or] at inside
      exact ne ⟨rfl, by omega, by omega⟩
    rw [House.stall?, if_pos out]
    rfl
  · rfl

theorem Outbox.push_settings {h h' : House} (out : h'.out.mask = h.out.mask) {lots : Vector Lot 4}
    (e : h' = { h with lots := lots, out := h'.out }) : h'.salesKept h := by
  rw [e]
  exact ⟨⟨out, rfl, rfl, rfl, rfl, rfl, rfl, rfl, rfl, rfl, rfl, rfl, rfl⟩, rfl, rfl, rfl, rfl⟩

theorem House.refreshFull_mask (n : Screen) (h : House) : (h.refreshFull n).out.mask = h.out.mask := by
  obtain e | ⟨b, k, fs, e⟩ := h.refreshFull_cases n <;> rw [e]
  exact Outbox.push_mask ..

theorem House.salesKept.trans {a b c : House} (x : b.salesKept a) (y : c.salesKept b) : c.salesKept a :=
  ⟨y.settings.trans x.settings, y.clock.trans x.clock, y.shows.trans x.shows, y.lines.trans x.lines,
    y.gains.trans x.gains⟩

theorem House.salesKept.refl (h : House) : h.salesKept h := ⟨.refl h, rfl, rfl, rfl, rfl⟩

theorem State.taken_sales (s : State) : s.taken.house.salesKept s.house := ⟨s.taken_settings, rfl, rfl, rfl, rfl⟩

theorem House.relot_sales (n : Screen) (f : Lot → Lot) (h : House) : ((h.onLot n f).refreshFull n).salesKept h :=
  Outbox.push_settings (House.refreshFull_mask n (h.onLot n f)) (House.relot_eq n f h)

theorem House.departStall_sales (n : Screen) (p : Nat × Nat) (h : House) : (h.departStall n p).salesKept h :=
  .trans (House.foldl_endOrder_sound _ _ _ h).kept.sales (House.relot_sales n _ _)

theorem House.departStall_full (n : Screen) (p : Nat × Nat) (h : House) :
    ((h.departStall n p).lot n).full = true ↔ ((h.departStall n p).lot n).occupancy = ((h.departStall n p).lot n).capacity := by
  unfold House.departStall
  rw [House.refreshFull_lot]
  exact decide_eq_true_iff

/-- The ADMITTED stalls of a lot are those that SWEEP goes through (R125). -/
theorem House.mem_admittedStalls (h : House) (n : Screen) (row position : Nat) :
    (row, position) ∈ (h.lot n).admittedStalls ↔ h.stallState n row position = some .admitted := by
  have listed : (row, position) ∈ (h.lot n).admittedStalls ↔ ∃ r x, (r, row) ∈ (h.lot n).rows.zipIdx 1
      ∧ (x, position) ∈ r.zipIdx 1 ∧ x.state = .admitted := by
    unfold Lot.admittedStalls
    simp only [List.mem_flatMap, List.mem_filterMap, Prod.exists]
    constructor
    · rintro ⟨r, i, inRows, x, j, inRow, e⟩
      split at e <;> cases e
      exact ⟨r, x, inRows, inRow, ‹_›⟩
    · rintro ⟨r, x, inRows, inRow, state⟩
      exact ⟨r, row, inRows, x, position, inRow, if_pos state⟩
  rw [listed]
  simp only [List.mk_mem_zipIdx_iff_le_and_getElem?_sub]
  unfold House.stallState House.stall?
  constructor
  · rintro ⟨r, x, ⟨low, inRows⟩, ⟨left, inRow⟩, state⟩
    rw [if_neg (by omega), List.getD_eq_getElem?_getD, inRows, Option.getD_some, inRow, ← state]
    rfl
  · intro e
    split at e
    · cases e
    · next inside =>
      obtain ⟨x, found, state⟩ := Option.map_eq_some_iff.1 e
      rw [List.getD_eq_getElem?_getD] at found
      cases inRows : (h.lot n).rows[row - 1]? with
      | none => rw [inRows] at found; cases found
      | some r =>
        rw [inRows] at found
        exact ⟨r, x, ⟨by omega, rfl⟩, ⟨by omega, found⟩, state⟩

/-! ### One departure after another (R125) -/

theorem House.departStall_vacant {n : Screen} {row position : Nat} {h : House} (p : Nat × Nat)
    (free : h.stall? n row position = some .vacant) : (h.departStall n p).stall? n row position = some .vacant := by
  have ended := (House.foldl_endOrder_sound (h.stallOrders n p.1 p.2) .canceled .stallLeft h).stalls.vacant free
  unfold House.departStall
  rw [House.refreshFull_stall?, House.stall?_onStall]
  split
  · rw [ended]; rfl
  · exact ended

theorem House.departStall_found {n : Screen} {row position : Nat} {h : House} {x : Stall} (p : Nat × Nat)
    (found : h.stall? n row position = some x) : ∃ y, (h.departStall n p).stall? n row position = some y := by
  obtain ⟨y, there, _⟩ := (House.foldl_endOrder_sound (h.stallOrders n p.1 p.2) .canceled .stallLeft h).stalls.found found
  unfold House.departStall
  rw [House.refreshFull_stall?, House.stall?_onStall]
  split
  · rw [there]; exact ⟨_, rfl⟩
  · exact ⟨y, there⟩

theorem House.sweep_sales (n : Screen) (stalls : List (Nat × Nat)) (h : House) :
    (stalls.foldl (House.departStall n) h).salesKept h := by
  induction stalls generalizing h with
  | nil => exact .refl h
  | cons p rest ih => exact (House.departStall_sales n p h).trans (ih _)

theorem House.sweep_identity {n : Screen} {stalls : List (Nat × Nat)} {h : House} {o : Order}
    (m : o ∈ (stalls.foldl (House.departStall n) h).orders) : ∃ q ∈ h.orders, Order.SameOrder q o := by
  induction stalls generalizing h with
  | nil => exact ⟨o, m, .rfl' o⟩
  | cons p rest ih =>
    obtain ⟨q, qm, same⟩ := ih m
    obtain ⟨r, rm, first⟩ := House.departStall_identity qm
    exact ⟨r, rm, first.trans same⟩

theorem House.sweep_vacant {n : Screen} {row position : Nat} (stalls : List (Nat × Nat)) {h : House}
    (free : h.stall? n row position = some .vacant) :
    (stalls.foldl (House.departStall n) h).stall? n row position = some .vacant := by
  induction stalls generalizing h with
  | nil => exact free
  | cons p rest ih => exact ih (House.departStall_vacant p free)

/-- Each stall of a sweep is FREE after it. -/
theorem House.sweep_frees {n : Screen} {p : Nat × Nat} {stalls : List (Nat × Nat)} {h : House} {x : Stall}
    (swept : p ∈ stalls) (found : h.stall? n p.1 p.2 = some x) :
    (stalls.foldl (House.departStall n) h).stall? n p.1 p.2 = some .vacant := by
  induction stalls generalizing h x with
  | nil => cases swept
  | cons q rest ih =>
    by_cases later : p ∈ rest
    · obtain ⟨y, there⟩ := House.departStall_found q found
      exact ih later there
    · obtain rfl := (List.mem_cons.1 swept).resolve_right later
      exact House.sweep_vacant rest (House.departStall_stall found)

/-- No order stays at a stall of a sweep. -/
theorem House.sweep_noOrders {n : Screen} {p : Nat × Nat} {stalls : List (Nat × Nat)} {h : House} (swept : p ∈ stalls)
    {o : Order} (m : o ∈ (stalls.foldl (House.departStall n) h).orders) :
    ¬ (o.screen = n ∧ o.row = p.1 ∧ o.position = p.2) := by
  induction stalls generalizing h with
  | nil => cases swept
  | cons q rest ih =>
    by_cases later : p ∈ rest
    · exact ih later m
    · obtain rfl := (List.mem_cons.1 swept).resolve_right later
      obtain ⟨r, rm, _, screen, row, position⟩ := House.sweep_identity (stalls := rest) m
      rw [← screen, ← row, ← position]
      exact House.departStall_noOrders rm

/-- A sweep changes the state of no other stall. -/
theorem House.sweep_others {n m : Screen} {row position : Nat} {stalls : List (Nat × Nat)} {h : House}
    (there : ∀ p ∈ stalls, p.1 ≠ 0 ∧ p.2 ≠ 0) (apart : m ≠ n ∨ (row, position) ∉ stalls) :
    (stalls.foldl (House.departStall n) h).stallState m row position = h.stallState m row position := by
  induction stalls generalizing h with
  | nil => rfl
  | cons p rest ih =>
    refine (ih (fun q inside => there q (List.mem_cons_of_mem _ inside)) ?_).trans
      (House.departStall_others (there p (List.mem_cons_self ..)) ?_)
    · exact apart.imp id fun out inside => out (List.mem_cons_of_mem _ inside)
    · rintro ⟨same, rfl, rfl⟩
      exact apart.elim (fun ne => ne same) fun out => out (List.mem_cons_self ..)

/-- Settles O52. -/
theorem departAndSweepFree : Obligations.DepartAndSweepFree := by
  intro tag screen s n a named
  refine ⟨fun row position range => ⟨fun other => stallRequest_refused a named range (if_neg other),
    fun here => ⟨_, stallRequest_accepted a named range (if_pos here), ?_, fun o m => House.departStall_noOrders m,
      House.departStall_full .., s.taken_sales.trans (House.departStall_sales ..)⟩⟩,
    ⟨_, screenRequest_accepted a named rfl, fun row position here => ?_, fun m row position apart => ?_,
      s.taken_sales.trans (House.sweep_sales ..)⟩⟩
  · obtain ⟨x, found, _⟩ := Option.map_eq_some_iff.1 here
    exact House.departStall_stall (p := (row, position)) found
  · have swept := (House.mem_admittedStalls s.house n row position).2 here
    obtain ⟨x, found, _⟩ := Option.map_eq_some_iff.1 here
    exact ⟨House.sweep_frees (p := (row, position)) swept found, fun o m => House.sweep_noOrders swept m⟩
  · refine House.sweep_others (fun p swept => ?_) ?_
    · exact House.stallState_range ((House.mem_admittedStalls s.house n p.1 p.2).1 swept)
    · by_cases same : m = n
      · subst same
        exact .inr fun swept => apart.elim (fun ne => ne rfl) fun other =>
          other ((House.mem_admittedStalls s.house m row position).1 swept)
      · exact .inl same

/-! ### Counters (R133, R134) -/

theorem exitOfCode_of_entry {lane : Nat} {k : EntryId} (named : entryOfCode lane = some k) : exitOfCode lane = none := by
  unfold entryOfCode at named
  split at named <;> first | rfl | cases named

theorem entryOfCode_of_exit {lane : Nat} {j : ExitId} (named : exitOfCode lane = some j) : entryOfCode lane = none := by
  unfold exitOfCode at named
  split at named <;> first | rfl | cases named

/-- The fields that COUNTERS READ gives of an entry lane (R133). -/
def EntryLane.counterReply (l : EntryLane) (result : ClearResult) : List Field :=
  l.block ++ [uBool l.rehearsal] ++ l.counters.fields ++ uTime l.counters.clearedAt ++ [u8 result.code]

theorem State.readEntry_cleared {k : EntryId} {s : State} (empty : (s.lane k).grant = none) :
    s.readEntry k true =
      (s.onLane k fun l => { l with counters := { Counters.zero with clearedAt := some s.house.clock } },
        ok ((s.lane k).counterReply .cleared)) := by
  simp [State.readEntry, EntryLane.counterReply, empty]

theorem State.readEntry_held {k : EntryId} {s : State} (held : (s.lane k).grant.isSome = true) :
    s.readEntry k true = (s, ok ((s.lane k).counterReply .notCleared)) := by
  have held := Option.isSome_iff_ne_none.1 held
  simp [State.readEntry, EntryLane.counterReply, held]

section Counters
variable {tag lane : Nat} {s : State} (a : s.accepting)
include a

theorem countersRead_entry {k : EntryId} (named : entryOfCode lane = some k) {clear : Nat} (option : isFlag clear = true)
    {t : State} {fields : List Field} (e : s.taken.readEntry k (clear = 1) = (t, ok fields)) :
    exec (.countersRead tag lane clear) s = .next (State.answered 0x4C tag .ok fields t) :=
  request_accepted a ((if_pos option).trans (by rw [named]; exact e))

theorem countersRead_exit {j : ExitId} (named : exitOfCode lane = some j) {clear : Nat} (option : isFlag clear = true)
    {t : State} {fields : List Field} (e : s.taken.readExit j (clear = 1) = (t, ok fields)) :
    exec (.countersRead tag lane clear) s = .next (State.answered 0x4C tag .ok fields t) :=
  request_accepted a ((if_pos option).trans (by rw [entryOfCode_of_exit named, named]; exact e))

theorem countersRead_wrongOption {clear : Nat} (wrong : 1 < clear) {detail : List Field}
    (e : onEntry lane (fun _ s => (s, refuse .badValue [])) s.taken = (s.taken, refuse .badValue detail)) :
    exec (.countersRead tag lane clear) s = .next (s.turnedDown 0x4C tag .badValue detail) :=
  request_refused a ((if_neg (by rw [isFlag_iff]; omega)).trans e)

end Counters

/-- Settles O53. -/
theorem countersReadClears : Obligations.CountersReadClears := by
  intro tag lane s a
  refine ⟨fun k named => ⟨countersRead_entry a named rfl rfl, fun empty => countersRead_entry a named rfl ?_,
      fun held => countersRead_entry a named rfl ?_, fun clear wrong => countersRead_wrongOption a wrong (onEntry_of named ..)⟩,
    fun j named => ⟨countersRead_exit a named rfl rfl, countersRead_exit a named rfl rfl,
      fun clear wrong => countersRead_wrongOption a wrong ?_⟩⟩
  · exact State.readEntry_cleared (s := s.taken) empty
  · exact State.readEntry_held (s := s.taken) held
  · rw [onEntry, entryOfCode_of_exit named]

end Machine
end Sys2Proof
end


-- ==== Sys2Proof/Proofs/KitchenSettings.lean ====
section
/-! Cook slots (R165), the backlog of a station (R173, R175), and the kitchen's settings (R139, R161, R162). -/

set_option autoImplicit false

namespace Sys2Proof
namespace Machine

/-! ### Tickets that start (R165) -/

/-- Changing the one element of a key, from outside a predicate into it, counts one more. -/
theorem countP_map_key {α : Type} {l : List α} {key : α → Nat} {f : α → α} {p : α → Bool} {a : α}
    (once : (l.map key).Nodup) (inside : a ∈ l) (before : p a = false) (after : p (f a) = true) :
    (l.map fun b => if key b = key a then f b else b).countP p = l.countP p + 1 := by
  induction l with
  | nil => cases inside
  | cons b rest ih =>
    obtain ⟨fresh, once'⟩ := List.nodup_cons.1 once
    by_cases here : key b = key a
    · obtain rfl : a = b := by
        refine (List.mem_cons.1 inside).resolve_right fun later => fresh ?_
        rw [here]
        exact List.mem_map_of_mem later
      have others : (rest.map fun b => if key b = key a then f b else b) = rest := by
        refine (List.map_congr_left fun c m => if_neg fun same => fresh ?_).trans (List.map_id _)
        rw [← same]
        exact List.mem_map_of_mem m
      rw [List.map_cons, others, if_pos rfl, List.countP_cons_of_pos after,
        List.countP_cons_of_neg (by rw [before]; decide)]
    · have later := (List.mem_cons.1 inside).resolve_left fun same => here (by rw [same])
      rw [List.map_cons, if_neg here, List.countP_cons, List.countP_cons, ih once' later]
      omega

/-- A QUEUED ticket at a station, COOKING now (R165). -/
def House.startedTicket (h : House) (t : Ticket) : Ticket :=
  { t with state := .cooking, cooked := some h.nextCook, cookStart := some h.clock, elapsed := 0 }

theorem House.startTicket_stations (st : StationId) (t : Ticket) (h : House) :
    (h.startTicket st t).stations = tmod h.stations st fun x =>
      { x with queue := x.queue.map fun u => if u.joined = t.joined then h.startedTicket u else u } :=
  House.orderCooking_stations _ _

theorem House.startTicket_self (st : StationId) (t : Ticket) (h : House) :
    (h.startTicket st t).station st = { h.station st with
      queue := (h.station st).queue.map fun u => if u.joined = t.joined then h.startedTicket u else u } := by
  unfold House.station
  rw [House.startTicket_stations, tget_tmod_self]

theorem House.startTicket_ne {st x : StationId} (ne : x ≠ st) (t : Ticket) (h : House) :
    (h.startTicket st t).station x = h.station x := by
  unfold House.station
  rw [House.startTicket_stations, tget_tmod_ne _ _ _ _ ne]

theorem joined_map_onTicket (queue : List Ticket) (joined : Nat) (f : Ticket → Ticket)
    (same : ∀ u, (f u).joined = u.joined) :
    (queue.map fun u => if u.joined = joined then f u else u).map Ticket.joined = queue.map Ticket.joined := by
  rw [List.map_map]
  refine List.map_congr_left fun u _ => ?_
  simp only [Function.comp]
  split
  · exact same u
  · rfl

/-- What started tickets leave of a station: its settings, and its queue ticket by ticket. -/
structure Station.Cooked (x y : Station) : Prop where
  settings : y = { x with queue := y.queue }
  joined : y.queue.map Ticket.joined = x.queue.map Ticket.joined

theorem Station.Cooked.refl (x : Station) : Station.Cooked x x := ⟨rfl, rfl⟩

theorem Station.Cooked.trans {x y z : Station} (first : Station.Cooked x y) (second : Station.Cooked y z) :
    Station.Cooked x z := ⟨second.settings.trans (by rw [first.settings]), second.joined.trans first.joined⟩

theorem House.startTicket_cooked (st : StationId) (t : Ticket) (h : House) :
    Station.Cooked (h.station st) ((h.startTicket st t).station st) := by
  rw [House.startTicket_self]
  exact ⟨rfl, joined_map_onTicket _ _ _ fun _ => rfl⟩

theorem House.startTickets_cooked (st : StationId) (fuel : Nat) (h : House) :
    Station.Cooked (h.station st) ((h.startTickets st fuel).station st) := by
  induction fuel generalizing h with
  | zero => exact .refl _
  | succ fuel ih =>
    unfold House.startTickets
    split
    · split
      · exact (House.startTicket_cooked ..).trans (ih _)
      · exact .refl _
    · exact .refl _

theorem House.startTickets_ne {st x : StationId} (ne : x ≠ st) (fuel : Nat) (h : House) :
    (h.startTickets st fuel).station x = h.station x := by
  induction fuel generalizing h with
  | zero => rfl
  | succ fuel ih =>
    unfold House.startTickets
    split
    · split
      · exact (ih _).trans (House.startTicket_ne ne ..)
      · rfl
    · rfl

theorem Station.oldestQueued_some {x : Station} {t : Ticket} (e : x.oldestQueued = some t) :
    t ∈ x.queue ∧ t.state = .queued := by
  unfold Station.oldestQueued at e
  exact ⟨List.mem_of_find?_eq_some e, by simpa using List.find?_some e⟩

theorem Station.oldestQueued_none (x : Station) : x.oldestQueued = none ↔ ∀ t ∈ x.queue, t.state ≠ .queued := by
  unfold Station.oldestQueued
  simp

/-- A started ticket takes one slot. -/
theorem House.startTicket_count {st : StationId} {t : Ticket} {h : House} (once : ((h.station st).queue.map Ticket.joined).Nodup)
    (m : t ∈ (h.station st).queue) (queued : t.state = .queued) :
    ((h.startTicket st t).station st).cookingCount = (h.station st).cookingCount + 1 := by
  rw [House.startTicket_self]
  refine countP_map_key (key := Ticket.joined) once m ?_ ?_
  · rw [Ticket.cooking, queued]; rfl
  · rfl

/-- The free slots of a station start tickets until none is free, or no ticket is QUEUED (R165). -/
theorem House.startTickets_fill (st : StationId) (fuel : Nat) {h : House}
    (once : ((h.station st).queue.map Ticket.joined).Nodup) (fits : (h.station st).cookingCount ≤ (h.station st).slots)
    (enough : (h.station st).slots - (h.station st).cookingCount ≤ fuel) :
    ((h.startTickets st fuel).station st).cookingCount = (h.station st).slots
      ∨ ∀ t ∈ ((h.startTickets st fuel).station st).queue, t.state ≠ .queued := by
  induction fuel generalizing h with
  | zero => exact .inl (show (h.station st).cookingCount = _ by omega)
  | succ fuel ih =>
    unfold House.startTickets
    split
    · next t found =>
      obtain ⟨m, queued⟩ := Station.oldestQueued_some found
      split
      · next free =>
        have cooked := House.startTicket_cooked st t h
        have slots : ((h.startTicket st t).station st).slots = (h.station st).slots := by rw [cooked.settings]
        have count := House.startTicket_count once m queued
        rw [Station.freeSlots] at free
        rw [← slots]
        exact ih (by rw [cooked.joined]; exact once) (by omega) (by omega)
      · next full =>
        rw [Station.freeSlots] at full
        exact .inl (by omega)
    · next none => exact .inr ((Station.oldestQueued_none _).1 none)

/-- With no QUEUED ticket nothing starts. -/
theorem House.startTickets_none {st : StationId} {h : House} (fuel : Nat)
    (none : ∀ t ∈ (h.station st).queue, t.state ≠ .queued) : h.startTickets st fuel = h := by
  cases fuel with
  | zero => rfl
  | succ fuel =>
    unfold House.startTickets
    rw [(Station.oldestQueued_none _).2 none]

/-! ### Settings (R139, R161, R162) -/

section Settings
variable {tag station : Nat} {s : State} (a : s.accepting)
include a

theorem itemClassSet_unknown (unknown : stationOfCode station = none) (item base perUnit : Nat) :
    exec (.itemClassSet tag item station base perUnit) s = .next (s.turnedDown 0x50 tag .badValue []) :=
  houseRequest_refused a (by rw [unknown])

theorem stationSet_unknown (unknown : stationOfCode station = none) (opened slots maxWait : Nat) :
    exec (.stationSet tag station opened slots maxWait) s = .next (s.turnedDown 0x51 tag .badValue []) :=
  houseRequest_refused a (by rw [unknown])

variable {st : StationId} (known : stationOfCode station = some st)
include known

theorem itemClassSet_accepted {item base perUnit : Nat} (fine : 1 ≤ item ∧ item ≤ 64 ∧ base ≤ 1800 ∧ perUnit ≤ 600) :
    exec (.itemClassSet tag item station base perUnit) s = .next (s.replied { s.taken.house with
      items := s.house.items.setIfInBounds (item - 1) (some { station := st, base := base, perUnit := perUnit }) }
      0x50 tag []) :=
  houseRequest_accepted a (by rw [known]; exact if_pos fine)

theorem itemClassSet_refused {item base perUnit : Nat} (wrong : ¬ (1 ≤ item ∧ item ≤ 64 ∧ base ≤ 1800 ∧ perUnit ≤ 600)) :
    exec (.itemClassSet tag item station base perUnit) s = .next (s.turnedDown 0x50 tag .badValue []) :=
  houseRequest_refused a (by rw [known]; exact if_neg wrong)

variable {opened slots maxWait : Nat}

theorem stationSet_wrong (wrong : ¬ (isFlag opened = true ∧ 1 ≤ slots ∧ slots ≤ 8 ∧ 60 ≤ maxWait ∧ maxWait ≤ 3600)) :
    exec (.stationSet tag station opened slots maxWait) s = .next (s.turnedDown 0x51 tag .badValue []) :=
  houseRequest_refused a (by rw [known]; exact if_neg wrong)

variable (fine : isFlag opened = true ∧ 1 ≤ slots ∧ slots ≤ 8 ∧ 60 ≤ maxWait ∧ maxWait ≤ 3600)
include fine

theorem stationSet_inUse (busy : slots < (s.house.station st).cookingCount) :
    exec (.stationSet tag station opened slots maxWait) s =
      .next (s.turnedDown 0x51 tag .inUse [u8 (s.house.station st).cookingCount]) :=
  houseRequest_refused a (by rw [known]; exact (if_pos fine).trans (if_pos busy))

theorem stationSet_accepted (free : (s.house.station st).cookingCount ≤ slots) :
    exec (.stationSet tag station opened slots maxWait) s = .next (s.replied
      ((s.taken.house.onStation st fun x => { x with opened := opened = 1, slots := slots, maxWait := maxWait }).fillSlots
        st) 0x51 tag []) :=
  houseRequest_accepted a (by rw [known]; exact (if_pos fine).trans (if_neg (Nat.not_lt.2 free)))

end Settings

/-- What STATION SET leaves, its slots at least the cooking tickets (R162, R165). -/
theorem House.stationSet_leaves (st : StationId) (opened : Bool) (slots maxWait : Nat) (h : House)
    (free : (h.station st).cookingCount ≤ slots) : ∃ h', ((h.onStation st fun x =>
        { x with opened := opened, slots := slots, maxWait := maxWait }).fillSlots st) = h'
      ∧ (h'.station st).opened = opened ∧ (h'.station st).slots = slots ∧ (h'.station st).maxWait = maxWait
      ∧ h'.salesKept h ∧ (∀ x, x ≠ st → h'.station x = h.station x)
      ∧ (((h.station st).queue.map Ticket.joined).Nodup →
          (h'.station st).queue.map Ticket.joined = (h.station st).queue.map Ticket.joined
          ∧ ((h'.station st).cookingCount = slots ∨ ∀ t ∈ (h'.station st).queue, t.state ≠ .queued))
      ∧ ((∀ t ∈ (h.station st).queue, t.state ≠ .queued) →
          (h'.station st).queue = (h.station st).queue ∧ h'.orders = h.orders) := by
  generalize e : h.onStation st (fun x => { x with opened := opened, slots := slots, maxWait := maxWait }) = g
  have self : g.station st = { h.station st with opened := opened, slots := slots, maxWait := maxWait } := by
    rw [← e, House.onStation_station]
  have cooked : Station.Cooked (g.station st) ((g.fillSlots st).station st) := House.startTickets_cooked ..
  have others (x : StationId) (ne : x ≠ st) : g.station x = h.station x := by
    rw [← e, House.onStation_station_ne _ _ _ _ ne]
  have sales : g.salesKept h := by rw [← e]; exact ⟨by constructor <;> rfl, rfl, rfl, rfl, rfl⟩
  have orders : g.orders = h.orders := by rw [← e]; rfl
  clear e
  refine ⟨_, rfl, ?opened, ?slots, ?maxWait, sales.trans (House.fillSlots_sound g st).kept.sales, fun x ne => ?_,
    fun once => ⟨?joined, ?_⟩, fun none => ?_⟩
  case opened => rw [cooked.settings, self]
  case slots => rw [cooked.settings, self]
  case maxWait => rw [cooked.settings, self]
  case joined => rw [cooked.joined, self]
  · exact (House.startTickets_ne ne _ g).trans (others x ne)
  · have filled := House.startTickets_fill st (g.station st).slots (h := g) (by rw [self]; exact once)
      (by rw [self]; exact free) (Nat.sub_le ..)
    have slots' : (g.station st).slots = slots := by rw [self]
    exact filled.imp (fun count => count.trans slots') id
  · have same : g.fillSlots st = g := House.startTickets_none _ (by rw [self]; exact none)
    rw [same, self]
    exact ⟨rfl, orders⟩

/-- Settles O54. -/
theorem kitchenSettingsSet : Obligations.KitchenSettingsSet := by
  intro tag s a
  refine ⟨fun station unknown => ⟨itemClassSet_unknown a unknown, stationSet_unknown a unknown⟩,
    fun item station base perUnit st known => ⟨itemClassSet_accepted a known, fun wrong =>
      itemClassSet_refused a known (by omega)⟩,
    fun station opened slots maxWait st known => ⟨fun ⟨option, fine⟩ => ?_, fun wrong =>
      stationSet_wrong a known (by rw [isFlag_iff]; omega)⟩,
    fun lead margin repeats interval limit => ⟨fun wrong => houseRequest_refused a (if_neg wrong), fun fine =>
      ⟨_, houseRequest_accepted a (if_pos fine), ?_⟩⟩⟩
  · have fine := And.intro ((isFlag_iff opened).2 option) fine
    refine ⟨stationSet_inUse a known fine, fun free => ?_⟩
    obtain ⟨h, same, open', slots', wait', sales, others, filled, idle⟩ :=
      House.stationSet_leaves st (decide (opened = 1)) slots maxWait s.taken.house free
    refine ⟨h, same ▸ stationSet_accepted a known fine free, open', slots', wait', s.taken_sales.trans sales, others,
      fun bounds => filled bounds.2.1, idle⟩
  · generalize policy : (⟨lead, margin, repeats, interval, limit⟩ : OrderPolicy) = p
    have kept := (House.releaseAll_sound { s.taken.house with orderPolicy := p }).kept
    refine ⟨kept.orderPolicy, fun o releasable may => ?_, kept.shows, kept.lines, kept.gains, kept.nextNumber,
      fun none => ?_⟩
    · have same : House.SameKitchen { s.house with orderPolicy := p } { s.taken.house with orderPolicy := p } :=
        ⟨rfl, rfl, rfl, rfl, rfl, rfl⟩
      exact same.released (House.releaseOn_released (same.releasable releasable) (mem_allScreens _) may)
    · have nothing : House.releaseAll { s.taken.house with orderPolicy := p } =
          { s.taken.house with orderPolicy := p } :=
        House.releaseOn_none fun o m deferred _ => absurd deferred (none o m)
      rw [nothing]
      exact ⟨rfl, rfl⟩

/-! ### The backlog (R173, R175) -/

theorem Station.backlog_cons (x : Station) (t : Ticket) (queue : List Ticket) :
    Station.backlog { x with queue := t :: queue } = t.load + Station.backlog { x with queue := queue } :=
  List.sum_cons

/-- The backlog is the sum of the loads, one sum for each state that has one. -/
theorem Ticket.loads_by_state (queue : List Ticket) : (queue.map Ticket.load).sum =
    ((queue.filter fun t => t.state = .queued).map Ticket.prep).sum
      + ((queue.filter fun t => t.state = .cooking).map fun t => t.prep - t.elapsed / 1000).sum
      + ((queue.filter fun t => t.state = .void).map fun t => t.prep - t.elapsed / 1000).sum := by
  induction queue with
  | nil => rfl
  | cons t rest ih =>
    rw [List.map_cons, List.sum_cons, ih]
    cases e : t.state <;> simp [Ticket.load, e] <;> omega

theorem Station.fields_backlog (x : Station) (first : Nat) :
    ∃ before after, x.fields first = before ++ [u24 x.backlog] ++ after ∧ before.length = 12 :=
  ⟨[uBool x.opened, u8 x.slots, u16 x.maxWait, uBool x.rehearsal, uBool x.readyLit, u8 x.queue.length,
     u8 (x.countState .queued), u8 (x.countState .cooking), u8 (x.countState .done), u8 (x.countState .void),
     u8 x.cookingCount, u8 x.freeSlots], _, rfl, rfl⟩

/-- Settles O58. -/
theorem backlogIsTheSum : Obligations.BacklogIsTheSum := by
  intro x
  refine ⟨Ticket.loads_by_state x.queue, fun t done => ?_, fun tag code first s st a named here low high => ?_⟩
  · have nothing : t.load = 0 := by rw [Ticket.load, done]
    rw [Station.backlog_cons, nothing, Nat.zero_add]
  · obtain ⟨before, after, fields, length⟩ := x.fields_backlog first
    refine ⟨before, after, readRequest_accepted a ?_, length⟩
    rw [named, ← fields, ← here]
    exact if_pos ⟨low, high⟩

end Machine
end Sys2Proof
end


-- ==== Sys2Proof/Proofs/LaneMoves.lean ====
section
/-! What an event at one entry lane leaves of the whole state, said once (`State.LaneChange`), and what each operation of
the lane makes of its lane, of the present count, and of the notices. -/

set_option autoImplicit false

namespace Sys2Proof
namespace Machine

/-! ### A change at one lane -/

/-- From `s` to `t` only lane `k` has changed, to `x`, and the present count, to `p`; of the house what lanes may ask of
it. -/
structure State.LaneChange (k : EntryId) (x : EntryLane) (p : Nat) (s t : State) : Prop where
  act : State.Act s t
  lane : t.lane k = x
  others : ∀ j, j ≠ k → t.lane j = s.lane j
  exits : t.exits = s.exits
  present : t.present = p

open State (LaneChange Act)

theorem State.LaneChange.refl (k : EntryId) (s : State) : LaneChange k (s.lane k) s.present s s :=
  ⟨.refl s, rfl, fun _ _ => rfl, rfl, rfl⟩

theorem State.LaneChange.laneKept {k : EntryId} {x : EntryLane} {p : Nat} {s t : State} (c : LaneChange k x p s t) :
    State.laneKept k t s := by
  obtain ⟨act, lane, others, exits, present⟩ := c
  have kept := act.kept
  refine ⟨?_, others, kept.house.settings, kept.house.clock⟩
  have channels := kept.channels
  have units := kept.units
  have stagedUnits := kept.stagedUnits
  have monitor := kept.monitor
  have stagedMonitor := kept.stagedMonitor
  have mon := kept.mon
  have dram := kept.dram
  have link := kept.link
  have draws := kept.draws
  have pending := kept.pending
  cases s; cases t
  simp_all

section Chain
variable {k : EntryId} {x : EntryLane} {p : Nat} {s t : State} (c : LaneChange k x p s t)
include c

theorem State.LaneChange.onHouse (f : House → House) (act : Act t (t.onHouse f)) : LaneChange k x p s (t.onHouse f) :=
  ⟨c.act.trans act, c.lane, c.others, c.exits, c.present⟩

theorem State.LaneChange.stage {f : House → House} (stage : House.Stage t.house (f t.house)) :
    LaneChange k x p s (t.onHouse f) := c.onHouse f (State.onHouse_act f t stage)

theorem State.LaneChange.notify (kind : Subkind) (fields : List Field) :
    LaneChange k x p s (t.onHouse (House.notify kind fields)) := c.onHouse _ (State.notify_act ..)

theorem State.LaneChange.onLane (f : EntryLane → EntryLane) : LaneChange k (f x) p s (t.onLane k f) :=
  ⟨c.act.trans (.lane k f t), by rw [State.onLane_lane, c.lane],
    fun j ne => (State.onLane_lane_ne _ _ _ _ ne).trans (c.others j ne), c.exits, c.present⟩

theorem State.LaneChange.moveLane (f : EntryLane → EntryLane) : LaneChange k (f x) p s (t.moveLane k f) :=
  (c.onLane f).onHouse _ (State.reportBacklog_act _)

theorem State.LaneChange.count (f : Counters → Counters) :
    LaneChange k { x with counters := f x.counters } p s (t.count k f) :=
  c.onLane fun l => { l with counters := f l.counters }

theorem State.LaneChange.enterVehicle :
    LaneChange k x (if x.rehearsal then p else bumpTo 65535 p) s (t.enterVehicle k) := by
  unfold State.enterVehicle
  rw [c.lane]
  split
  · exact c
  · exact ⟨c.act.trans (.present _ t), c.lane, c.others, c.exits, congrArg rise c.present⟩

end Chain

/-! ### Close-out (R111, R135, R136) -/

/-- A lane whose close has taken effect (R111). -/
def EntryLane.closed (l : EntryLane) : EntryLane :=
  { l with state := .closed, closePending := false, refused := false, armTimer := none, passTimer := none }

theorem Counters.verdict_fields (c : Counters) : c.verdict.fields = findingsOf c
    ++ [uBool (decide (c.tailgates = 65535 ∨ c.unpaid = 65535 ∨ c.attendant = 65535))] := by
  unfold Counters.verdict Verdict.fields findingsOf
  dsimp only
  generalize c.tailgates + c.unpaid = extra
  generalize c.attendant = unseen
  cases extra <;> cases unseen <;> rfl

theorem House.takeBacklogs_clock (b : Vector Nat 4) (h : House) : (h.takeBacklogs b).clock = h.clock :=
  (House.takeBacklogs_stage b h).kept.clock

/-- With no show in LANE_WAIT the backlogs are only handed over (R11, R126). -/
theorem House.takeBacklogs_quiet {h : House} (quiet : ∀ n, (h.ctl n).state ≠ .laneWait) (b : Vector Nat 4) :
    h.takeBacklogs b = { h with backlog := b } := by
  have still (screens : List Screen) : screens.foldl
      (fun h n => if (h.ctl n).state = .laneWait ∧ tget h.backlog n = 0 then h.leaveWait n else h)
      { h with backlog := b } = { h with backlog := b } := by
    induction screens with
    | nil => rfl
    | cons n rest ih => rw [List.foldl_cons, if_neg fun both => quiet n both.1, ih]
  exact still allScreens

/-- Two houses between which at most the backlogs were handed over: the clock is the same, and so is everything else while
no show is in LANE_WAIT. -/
structure House.Handed (h u : House) : Prop where
  clock : u.clock = h.clock
  quiet : (∀ n, (h.ctl n).state ≠ .laneWait) → ∃ b, u = { h with backlog := b }

theorem House.Handed.refl (h : House) : House.Handed h h := ⟨rfl, fun _ => ⟨h.backlog, rfl⟩⟩

theorem House.Handed.trans {a b c : House} (x : House.Handed a b) (y : House.Handed b c) : House.Handed a c := by
  refine ⟨y.clock.trans x.clock, fun quiet => ?_⟩
  obtain ⟨b0, rfl⟩ := x.quiet quiet
  exact y.quiet quiet

theorem House.Handed.takeBacklogs {h u : House} (e : House.Handed h u) (b : Vector Nat 4) :
    House.Handed h (u.takeBacklogs b) := by
  refine ⟨(House.takeBacklogs_clock b u).trans e.clock, fun quiet => ⟨b, ?_⟩⟩
  obtain ⟨b0, rfl⟩ := e.quiet quiet
  exact House.takeBacklogs_quiet quiet b

theorem House.Handed.told {s t : State} {u : House} {kind : Subkind} {fields : List Field} (e : House.Handed s.house u)
    (house : t.house = u.notify kind fields) : State.told { kind := kind, time := s.house.clock, fields := fields } s t := by
  refine ⟨u.out, ?_, fun quiet => ?_⟩
  · rw [house, House.notify_out, e.clock]
  · obtain ⟨b, rfl⟩ := e.quiet quiet
    rfl

theorem State.moveLane_house (k : EntryId) (f : EntryLane → EntryLane) (s : State) :
    (s.moveLane k f).house = s.house.takeBacklogs (s.onLane k f).backlogs := by
  have house : (s.onLane k f).house = s.house := rfl
  simp only [State.moveLane, State.reportBacklog, State.onHouse, house]

theorem State.LaneChange.closeLane {k : EntryId} {x : EntryLane} {p : Nat} {s t : State} (c : LaneChange k x p s t) :
    LaneChange k x.closed p s (t.closeLane k) := by
  unfold State.closeLane
  extract_lets s1 counters
  have moved : LaneChange k x.closed p s s1 := c.moveLane EntryLane.closed
  clear_value s1
  exact moved.onHouse _ (.house _ (House.notify_stage ..))

/-- The close-out tells the verdict of the counters as they stand (R135, R136). -/
theorem State.closeLane_house (k : EntryId) (s : State) : ∃ u, House.Handed s.house u
    ∧ (s.closeLane k).house = u.notify .laneClosed (closeOut k (s.lane k).counters s.house.clock).fields := by
  unfold State.closeLane
  extract_lets s1 c
  have handed : House.Handed s.house s1.house := by
    simp only [s1, State.moveLane_house]
    exact (House.Handed.refl _).takeBacklogs _
  have counters : c = (s.lane k).counters := by
    simp only [c, s1, State.moveLane_lane]
  clear_value c s1
  refine ⟨s1.house, handed, ?_⟩
  rw [← counters]
  have fields : (closeOut k c s.house.clock).fields = u8 (entryCode k)
      :: (c.verdict.fields ++ uTime (some s1.house.clock) ++ uTime c.clearedAt ++ c.fields) := by
    rw [handed.clock, Counters.verdict_fields]
    rfl
  rw [fields]
  rfl

/-! ### Arrivals and the end of a visit (R98, R99, R107) -/

/-- A lane at which a car has arrived (R98, R99, R107). -/
def EntryLane.arrived (l : EntryLane) : EntryLane :=
  { l with
    counters := { l.counters with arrivals := bumpTo 65535 l.counters.arrivals }
    state := .waiting, refused := false, armTimer := none, passTimer := none }

/-- A lane in IDLE with nothing pending (R99). -/
def EntryLane.idled (l : EntryLane) : EntryLane :=
  { l with state := .idle, refused := false, armTimer := none, passTimer := none }

/-- A lane that reaches IDLE: a pending close takes effect (R99, R111). -/
def EntryLane.idledOrClosed (l : EntryLane) : EntryLane := if l.closePending then l.closed else l.idled

/-- The count of a visit that ends: a refusal, or a car left unpaid (R99). -/
def Counters.visitEnded (marked : Bool) (c : Counters) : Counters :=
  if marked then { c with refusals := bumpTo 65535 c.refusals } else { c with leftUnpaid := bumpTo 65535 c.leftUnpaid }

theorem State.LaneChange.arrival {k : EntryId} {x : EntryLane} {p : Nat} {s t : State} (c : LaneChange k x p s t) :
    LaneChange k x.arrived p s (t.arrival k) := by
  unfold State.arrival
  exact ((c.count fun c => { c with arrivals := rise c.arrivals }).moveLane fun l =>
    { l with state := .waiting, refused := false, armTimer := none, passTimer := none }).notify ..

theorem State.arrival_house (k : EntryId) (s : State) : ∃ u, House.Handed s.house u
    ∧ (s.arrival k).house = u.notify .vehicleWaiting [u8 (entryCode k)] := by
  unfold State.arrival
  generalize e : (s.count k fun c => { c with arrivals := rise c.arrivals }) = s1
  have house : s1.house = s.house := by rw [← e]; rfl
  clear e
  refine ⟨_, ?_, rfl⟩
  rw [State.moveLane_house, house]
  exact (House.Handed.refl _).takeBacklogs _

theorem State.LaneChange.reachIdle {k : EntryId} {x : EntryLane} {p : Nat} {s t : State} (c : LaneChange k x p s t) :
    LaneChange k x.idledOrClosed p s (t.reachIdle k) := by
  unfold State.reachIdle EntryLane.idledOrClosed
  extract_lets s1
  have moved : LaneChange k x.idled p s s1 := c.moveLane EntryLane.idled
  clear_value s1
  have pending : (s1.lane k).closePending = x.closePending := by rw [moved.lane]; rfl
  rw [pending]
  split
  · exact moved.closeLane
  · exact moved

/-- A close that was pending is told when the lane reaches IDLE (R111). -/
theorem State.reachIdle_house {k : EntryId} {s : State} (closing : (s.lane k).closePending = true) : ∃ u,
    House.Handed s.house u
      ∧ (s.reachIdle k).house = u.notify .laneClosed (closeOut k (s.lane k).counters s.house.clock).fields := by
  unfold State.reachIdle
  extract_lets s1
  have moved : s1.lane k = (s.lane k).idled := State.moveLane_lane ..
  have house : s1.house = s.house.takeBacklogs (s.onLane k EntryLane.idled).backlogs := State.moveLane_house ..
  clear_value s1
  rw [if_pos (by rw [moved]; exact closing)]
  obtain ⟨u, handed, told⟩ := State.closeLane_house k s1
  have first : House.Handed s.house s1.house := by rw [house]; exact (House.Handed.refl _).takeBacklogs _
  refine ⟨u, first.trans handed, ?_⟩
  rw [told, first.clock, moved]
  rfl

theorem State.LaneChange.visitEnd {k : EntryId} {x : EntryLane} {p : Nat} {s t : State} (c : LaneChange k x p s t) :
    LaneChange k (EntryLane.idledOrClosed { x with counters := x.counters.visitEnded x.refused }) p s (t.visitEnd k) := by
  unfold State.visitEnd
  extract_lets marked
  have mark : marked = x.refused := congrArg EntryLane.refused c.lane
  rw [mark]
  exact (c.count _).reachIdle

theorem State.LaneChange.lowered {k : EntryId} {x : EntryLane} {p : Nat} {s t : State} (c : LaneChange k x p s t) :
    LaneChange k (if x.closePending then x.closed else if x.arrive.occupied then x.arrived else x.idled) p s
      (t.lowered k) := by
  have lane := c.lane
  unfold State.lowered
  extract_lets l
  rw [show l = x from lane]
  split
  · exact c.closeLane
  · next open' =>
    split
    · exact c.arrival
    · have idle := c.reachIdle
      rwa [EntryLane.idledOrClosed, if_neg open'] at idle

/-! ### The arm (R96, R107) -/

theorem SimArm.follow_raise (a : SimArm) : a.follow.raise = a.raise := by
  unfold SimArm.follow
  split
  · rfl
  · split <;> split <;> rfl

/-- An arm that is not down is not brought down at once. -/
theorem SimArm.follow_down {a : SimArm} (up : a.position ≠ .down) : a.follow.position ≠ .down := by
  unfold SimArm.follow
  split
  · exact up
  · split <;> split <;> first | exact up | nofun

/-- An arm under an asserted output is at the top exactly where it was there before. -/
theorem SimArm.follow_up {a : SimArm} (raise : a.raise = true) : a.follow.position = .up ↔ a.position = .up := by
  unfold SimArm.follow
  split
  · rfl
  · split
    · next e => rw [e]; exact ⟨nofun, nofun⟩
    · next e => rw [e]; exact ⟨nofun, nofun⟩
    · rfl
    · rfl

theorem EntryLane.setRaise_eq (l : EntryLane) (b : Bool) :
    l.setRaise b = { l with raise := (l.setRaise b).raise, sim := (l.setRaise b).sim } := by
  unfold EntryLane.setRaise
  split
  · split <;> rfl
  · rfl

theorem EntryLane.setRaise_raised (l : EntryLane) (b : Bool) : (l.setRaise b).raised = b := by
  unfold EntryLane.setRaise EntryLane.raised
  cases e : l.rehearsal
  · simp
  · by_cases same : l.sim.raise = b
    · simp [same, e]
    · simp [same, SimArm.follow_raise]

theorem EntryLane.setRaise_downSense {l : EntryLane} (up : l.downSense = false) (b : Bool) :
    (l.setRaise b).downSense = false := by
  unfold EntryLane.setRaise
  unfold EntryLane.downSense at *
  cases e : l.rehearsal
  · rw [e] at up
    simpa using up
  · rw [e] at up
    have up : l.sim.position ≠ .down := by simpa using up
    by_cases same : l.sim.raise = b
    · simp [same, up, e]
    · have := SimArm.follow_down (a := { l.sim with raise := b }) up
      simp [same, this]

theorem EntryLane.setRaise_upSense (l : EntryLane) : (l.setRaise true).upSense = l.upSense := by
  unfold EntryLane.setRaise EntryLane.upSense
  cases e : l.rehearsal
  · simp
  · by_cases same : l.sim.raise = true
    · simp [same, e]
    · have up := SimArm.follow_up (a := { l.sim with raise := true }) rfl
      simp [same, up]

theorem EntryLane.drive_demanded {l : EntryLane} (demand : l.demand = true) : l.drive = l.setRaise true := if_pos demand

theorem EntryLane.drive_eq (l : EntryLane) :
    l.drive = { l with raise := l.drive.raise, sim := l.drive.sim, armTimer := l.drive.armTimer } := by
  obtain e | ⟨b, e⟩ | ⟨t, e⟩ := l.drive_cases
  · rw [e]
  · rw [e, l.setRaise_eq b]
  · rw [e, l.setRaise_eq false]

theorem EntryLane.drive_downSense {l : EntryLane} (up : l.downSense = false) : l.drive.downSense = false := by
  obtain e | ⟨b, e⟩ | ⟨t, e⟩ := l.drive_cases <;> rw [e]
  · exact up
  · exact EntryLane.setRaise_downSense up b
  · exact EntryLane.setRaise_downSense up false

/-- Over a vacant clear loop RAISE is what the demand asks for (R96). -/
theorem EntryLane.drive_raised {l : EntryLane} (vacant : l.clear.occupied = false) : l.drive.raised = l.demand := by
  unfold EntryLane.drive
  cases e : l.demand
  · rw [if_neg (by decide), if_neg (by rw [vacant]; decide)]
    dsimp only
    split
    · exact l.setRaise_raised false
    · exact l.setRaise_raised false
  · exact l.setRaise_raised true

/-- A RAISE released in LOWERING starts the arm timer (R107). -/
theorem EntryLane.drive_lowering {l : EntryLane} (vacant : l.clear.occupied = false) (demand : l.demand = false)
    (raised : l.raised = true) (state : l.state = .lowering) :
    l.drive.armTimer = some (l.settings.armTimeout * 1000) := by
  unfold EntryLane.drive
  rw [if_neg (by rw [demand]; decide), if_neg (by rw [vacant]; decide)]
  dsimp only
  rw [if_pos ⟨raised, state⟩]

/-- The lane that lowers its arm, but for what RAISE and the arm timer make of the clear loop. -/
theorem EntryLane.lower_eq (l : EntryLane) : l.lower = { l with
    state := .lowering, grant := none, refused := false, demand := false, passTimer := none,
    raise := l.lower.raise, sim := l.lower.sim, armTimer := l.lower.armTimer } := by
  conv => lhs; unfold EntryLane.lower
  rw [EntryLane.drive_eq]
  rfl

theorem EntryLane.lower_downSense {l : EntryLane} (up : l.downSense = false) : l.lower.downSense = false :=
  EntryLane.drive_downSense (l := { l with
    state := .lowering, grant := none, refused := false, demand := false, armTimer := none, passTimer := none }) up

theorem EntryLane.lower_raised {l : EntryLane} (vacant : l.clear.occupied = false) : l.lower.raised = false :=
  EntryLane.drive_raised (l := { l with
    state := .lowering, grant := none, refused := false, demand := false, armTimer := none, passTimer := none }) vacant


end Machine
end Sys2Proof
end


-- ==== Sys2Proof/Proofs/LaneGrants.lean ====
section
/-! Grants of an entry lane (R101 to R106, R110): what each way to take or settle one makes of the lane, the present count
and the stall; and what an occupied clear loop brings (R108, R109). -/

set_option autoImplicit false

namespace Sys2Proof
namespace Machine

open State (LaneChange Act)

/-! ### Stalls of grants (R120, R121) -/

theorem State.moveLane_stage (k : EntryId) (f : EntryLane → EntryLane) (s : State) :
    House.Stage s.house (s.moveLane k f).house := by
  rw [State.moveLane_house]
  exact House.takeBacklogs_stage ..

theorem State.enterVehicle_house (k : EntryId) (s : State) : (s.enterVehicle k).house = s.house := by
  unfold State.enterVehicle
  split <;> rfl

theorem House.admitStall_stall (g : Grant) (h : House) : (h.admitStall g).stall? g.screen g.row g.position =
    (h.stall? g.screen g.row g.position).map fun x => { x with state := .admitted, admitTime := some h.clock } :=
  House.stall?_onStall_self ..

theorem House.freeStall_stall (g : Grant) (h : House) : (h.freeStall g).stall? g.screen g.row g.position =
    (h.stall? g.screen g.row g.position).map fun _ => .vacant := by
  unfold House.freeStall
  rw [House.refreshFull_stall?, House.stall?_onStall_self]

theorem House.assignStall_stall (n : Screen) (p : Nat × Nat) (party : Nat) (k : EntryId) (h : House) :
    (h.assignStall n p party k).stall? n p.1 p.2 = (h.stall? n p.1 p.2).map fun x =>
      { x with state := .assigned, party := party, lane := some k, admitTime := none } := by
  unfold House.assignStall
  rw [House.refreshFull_stall?, House.stall?_onStall_self]

/-! ### The end of a grant (R103 to R106) -/

theorem State.lookDown_up {k : EntryId} {t : State} (up : (t.lane k).downSense = false) : t.lookDown k = t :=
  if_neg fun both => by rw [up] at both; exact absurd both.2.2 (by decide)

theorem State.lookUp_down {k : EntryId} {t : State} (down : (t.lane k).upSense = false) : t.lookUp k = t :=
  if_neg fun both => by rw [down] at both; exact absurd both.2 (by decide)

/-- The counters after a pass (R103, R106). -/
def Counters.passed (kind : PassKind) (c : Counters) : Counters :=
  match kind with
  | .loop => { c with admitted := bumpTo 65535 c.admitted }
  | .attendant => { c with attendant := bumpTo 65535 c.attendant }

section Settle
variable {k : EntryId} {t : State} {g : Grant} (held : (t.lane k).grant = some g) (up : (t.lane k).downSense = false)
include held up

/-- A pass, with ARMDN not asserted: nothing but the settling of the grant. -/
theorem State.passGrant_eq (kind : PassKind) : t.passGrant k kind =
    State.onHouse (House.notify .passed (u8 (entryCode k) :: (g.fields ++ [u16 g.party, u8 kind.code])))
      (State.moveLane k EntryLane.lower
        (State.enterVehicle k ((t.onHouse (House.admitStall g)).count k (Counters.passed kind)))) := by
  unfold State.passGrant
  rw [held]
  have lowered := ((((LaneChange.refl k t).onHouse _ (State.admitStall_act g t)).count
    (Counters.passed kind)).enterVehicle.moveLane EntryLane.lower).notify .passed
      (u8 (entryCode k) :: (g.fields ++ [u16 g.party, u8 kind.code]))
  have stays := State.lookDown_up (k := k) (by rw [lowered.lane]; exact EntryLane.lower_downSense up)
  cases kind <;> exact stays

theorem State.backout_eq : t.backout k =
    State.onHouse (House.notify .backout (u8 (entryCode k) :: g.fields))
      (State.moveLane k EntryLane.lower
        ((t.onHouse (House.freeStall g)).count k fun c => { c with backouts := bumpTo 65535 c.backouts })) := by
  unfold State.backout
  rw [held]
  have lowered := ((((LaneChange.refl k t).onHouse _ (State.freeStall_act g t)).count
    fun c => { c with backouts := bumpTo 65535 c.backouts }).moveLane EntryLane.lower).notify .backout
      (u8 (entryCode k) :: g.fields)
  have stays := State.lookDown_up (k := k) (by rw [lowered.lane]; exact EntryLane.lower_downSense up)
  exact stays

theorem State.lapse_eq : t.lapse k =
    State.onHouse (House.notify .lapse (u8 (entryCode k) :: (g.fields ++ [uBool g.seen])))
      (State.moveLane k EntryLane.lower
        ((t.onHouse (House.freeStall g)).count k fun c => { c with lapses := bumpTo 65535 c.lapses })) := by
  unfold State.lapse
  rw [held]
  have lowered := ((((LaneChange.refl k t).onHouse _ (State.freeStall_act g t)).count
    fun c => { c with lapses := bumpTo 65535 c.lapses }).moveLane EntryLane.lower).notify .lapse
      (u8 (entryCode k) :: (g.fields ++ [uBool g.seen]))
  have stays := State.lookDown_up (k := k) (by rw [lowered.lane]; exact EntryLane.lower_downSense up)
  exact stays

/-- After a pass the stall of the grant is ADMITTED, but for orders that ended at it (R121). -/
theorem State.passGrant_house (kind : PassKind) : House.Stage (t.house.admitStall g) (t.passGrant k kind).house := by
  rw [State.passGrant_eq held up]
  refine .trans ?_ (House.notify_stage ..)
  generalize e : State.enterVehicle k ((t.onHouse (House.admitStall g)).count k (Counters.passed kind)) = s1
  have house : s1.house = t.house.admitStall g := by rw [← e, State.enterVehicle_house]; rfl
  rw [← house]
  exact State.moveLane_stage ..

/-- After a backout the stall of the grant is FREE (R121). -/
theorem State.backout_house : House.Stage (t.house.freeStall g) (t.backout k).house := by
  rw [State.backout_eq held up]
  exact .trans (State.moveLane_stage k _
    ((t.onHouse (House.freeStall g)).count k fun c => { c with backouts := bumpTo 65535 c.backouts }))
    (House.notify_stage ..)

theorem State.lapse_house : House.Stage (t.house.freeStall g) (t.lapse k).house := by
  rw [State.lapse_eq held up]
  exact .trans (State.moveLane_stage k _
    ((t.onHouse (House.freeStall g)).count k fun c => { c with lapses := bumpTo 65535 c.lapses }))
    (House.notify_stage ..)

end Settle

section SettleChange
variable {k : EntryId} {x : EntryLane} {p : Nat} {s t : State} (c : LaneChange k x p s t) {g : Grant}
  (held : x.grant = some g) (up : x.downSense = false)
include c held up

theorem State.LaneChange.passGrant (kind : PassKind) :
    LaneChange k (EntryLane.lower { x with counters := x.counters.passed kind })
      (if x.rehearsal then p else bumpTo 65535 p) s (t.passGrant k kind) := by
  rw [State.passGrant_eq (by rw [c.lane]; exact held) (by rw [c.lane]; exact up)]
  exact (((c.onHouse _ (State.admitStall_act ..)).count _).enterVehicle.moveLane EntryLane.lower).notify ..

theorem State.LaneChange.backout :
    LaneChange k (EntryLane.lower { x with counters := { x.counters with backouts := bumpTo 65535 x.counters.backouts } })
      p s (t.backout k) := by
  rw [State.backout_eq (by rw [c.lane]; exact held) (by rw [c.lane]; exact up)]
  exact (((c.onHouse _ (State.freeStall_act g t)).count fun c =>
    { c with backouts := bumpTo 65535 c.backouts }).moveLane EntryLane.lower).notify ..

theorem State.LaneChange.lapse :
    LaneChange k (EntryLane.lower { x with counters := { x.counters with lapses := bumpTo 65535 x.counters.lapses } })
      p s (t.lapse k) := by
  rw [State.lapse_eq (by rw [c.lane]; exact held) (by rw [c.lane]; exact up)]
  exact (((c.onHouse _ (State.freeStall_act g t)).count fun c =>
    { c with lapses := bumpTo 65535 c.lapses }).moveLane EntryLane.lower).notify ..

end SettleChange

/-! ### What the end of a grant leaves (R103 to R106, R121) -/

/-- What a backout leaves of the lane and the stall (R104, R121). -/
theorem State.LaneChange.backout_leaves {k : EntryId} {x : EntryLane} {p : Nat} {s t : State} {g : Grant}
    (c : LaneChange k x p s t) (held : x.grant = some g) (up : x.downSense = false) (house : t.house = s.house) :
    ∃ u, t.backout k = u ∧ State.laneKept k u s ∧ u.present = p
      ∧ (u.lane k).state = .lowering ∧ (u.lane k).grant = none ∧ (u.lane k).demand = false
      ∧ (u.lane k).passTimer = none
      ∧ (u.lane k).counters = { x.counters with backouts := bumpTo 65535 x.counters.backouts }
      ∧ ∀ y, s.house.stall? g.screen g.row g.position = some y →
          u.house.stall? g.screen g.row g.position = some .vacant := by
  have change := c.backout held up
  have stage := State.backout_house (k := k) (t := t) (by rw [c.lane]; exact held) (by rw [c.lane]; exact up)
  rw [house] at stage
  refine ⟨_, rfl, change.laneKept, change.present, ?_⟩
  rw [change.lane]
  refine ⟨EntryLane.lower_state _, EntryLane.lower_grant _, ?_, ?_, EntryLane.lower_counters _, fun y found =>
    stage.stalls.vacant ((House.freeStall_stall g s.house).trans (by rw [found]; rfl))⟩
  · rw [EntryLane.lower_eq]
  · rw [EntryLane.lower_eq]

theorem State.LaneChange.passGrant_leaves {k : EntryId} {x : EntryLane} {p : Nat} {s t : State} {g : Grant}
    (c : LaneChange k x p s t) (held : x.grant = some g) (up : x.downSense = false) (house : t.house = s.house)
    (kind : PassKind) : ∃ u, t.passGrant k kind = u ∧ State.laneKept k u s
      ∧ u.present = (if x.rehearsal then p else bumpTo 65535 p)
      ∧ (u.lane k).state = .lowering ∧ (u.lane k).grant = none ∧ (u.lane k).demand = false
      ∧ (x.clear.occupied = false → (u.lane k).raised = false) ∧ (u.lane k).passTimer = none
      ∧ (u.lane k).counters = x.counters.passed kind
      ∧ ∀ y, s.house.stall? g.screen g.row g.position = some y → ∃ z,
          u.house.stall? g.screen g.row g.position = some z ∧ z.state = .admitted
            ∧ z.admitTime = some s.house.clock := by
  have change := c.passGrant held up kind
  have stage := State.passGrant_house (k := k) (t := t) (by rw [c.lane]; exact held) (by rw [c.lane]; exact up) kind
  rw [house] at stage
  refine ⟨_, rfl, change.laneKept, change.present, ?_⟩
  rw [change.lane]
  refine ⟨EntryLane.lower_state _, EntryLane.lower_grant _, ?_, fun vacant => EntryLane.lower_raised vacant, ?_,
    EntryLane.lower_counters _, fun y found => ?_⟩
  · rw [EntryLane.lower_eq]
  · rw [EntryLane.lower_eq]
  · obtain ⟨z, there, state, _, _, time⟩ :=
      stage.stalls.found ((House.admitStall_stall g s.house).trans (by rw [found]; rfl))
    exact ⟨z, there, state, time⟩

/-- What a lapse leaves of the lane and the stall (R105, R121). -/
theorem State.LaneChange.lapse_leaves {k : EntryId} {x : EntryLane} {p : Nat} {s t : State} {g : Grant}
    (c : LaneChange k x p s t) (held : x.grant = some g) (up : x.downSense = false) (house : t.house = s.house) :
    ∃ u, t.lapse k = u ∧ State.laneKept k u s ∧ u.present = p
      ∧ (u.lane k).state = .lowering ∧ (u.lane k).grant = none ∧ (u.lane k).demand = false
      ∧ (u.lane k).counters = { x.counters with lapses := bumpTo 65535 x.counters.lapses }
      ∧ ∀ y, s.house.stall? g.screen g.row g.position = some y →
          u.house.stall? g.screen g.row g.position = some .vacant := by
  have change := c.lapse held up
  have stage := State.lapse_house (k := k) (t := t) (by rw [c.lane]; exact held) (by rw [c.lane]; exact up)
  rw [house] at stage
  refine ⟨_, rfl, change.laneKept, change.present, ?_⟩
  rw [change.lane]
  refine ⟨EntryLane.lower_state _, EntryLane.lower_grant _, ?_, EntryLane.lower_counters _, fun y found =>
    stage.stalls.vacant ((House.freeStall_stall g s.house).trans (by rw [found]; rfl))⟩
  rw [EntryLane.lower_eq]

/-! ### RAISING and PASSING (R102, R103) -/

/-- A lane that enters PASSING (R102). -/
def EntryLane.passing (l : EntryLane) : EntryLane :=
  { l with state := .passing, armTimer := none, passTimer := some (l.settings.passTimeout * 1000) }

/-- A lane enters PASSING and stays there while the loops bring neither a pass nor a backout (R102, R103). -/
theorem State.enterPassing_eq {k : EntryId} {t : State} {g : Grant} (held : (t.lane k).grant = some g)
    (seen : g.seen = true → (t.lane k).clear.occupied = true)
    (unseen : g.seen = false → (t.lane k).arrive.occupied = true) :
    t.enterPassing k = t.moveLane k EntryLane.passing := by
  unfold State.enterPassing
  have lane : (t.moveLane k EntryLane.passing).lane k = (t.lane k).passing := State.moveLane_lane ..
  extract_lets s1 l mark
  have lane' : l = (t.lane k).passing := lane
  have mark' : mark = g.seen := by
    simp only [mark, lane', EntryLane.passing, held]
  have same : s1 = t.moveLane k EntryLane.passing := rfl
  rw [mark', lane', same]
  clear_value s1
  cases e : g.seen
  · rw [if_neg fun both => nomatch both.1]
    exact if_neg fun both => both.2 (unseen e)
  · rw [if_neg fun both => both.2 (seen e), if_neg fun both => both.1 rfl]

theorem EntryLane.drive_armTimer {l : EntryLane} (state : l.state ≠ .lowering) : l.drive.armTimer = l.armTimer := by
  have kept (b : Bool) : (l.setRaise b).armTimer = l.armTimer := by rw [l.setRaise_eq b]
  unfold EntryLane.drive
  split
  · exact kept true
  · split
    · rfl
    · dsimp only
      rw [if_neg fun both => state both.2]
      exact kept false

/-- A lane that has taken a grant and raises its arm (R101, R102). -/
def EntryLane.granted (g : Grant) (l : EntryLane) : EntryLane :=
  EntryLane.drive
    { l with
      state := .raising, refused := false, grant := some g, demand := true
      armTimer := some (l.settings.armTimeout * 1000) }

theorem EntryLane.granted_eq (g : Grant) (l : EntryLane) : l.granted g = { l with
    state := .raising, refused := false, grant := some g, demand := true
    armTimer := some (l.settings.armTimeout * 1000)
    raise := (l.granted g).raise, sim := (l.granted g).sim } := by
  conv => lhs; unfold EntryLane.granted
  rw [EntryLane.drive_demanded rfl, EntryLane.setRaise_eq]
  rfl

theorem EntryLane.granted_raised (g : Grant) (l : EntryLane) : (l.granted g).raised = true := by
  unfold EntryLane.granted
  rw [EntryLane.drive_demanded rfl]
  exact EntryLane.setRaise_raised ..

theorem EntryLane.granted_upSense (g : Grant) (l : EntryLane) : (l.granted g).upSense = l.upSense := by
  unfold EntryLane.granted
  rw [EntryLane.drive_demanded rfl, EntryLane.setRaise_upSense]
  rfl

/-- The grant that a lane takes (R97, R101). -/
def State.newGrant (s : State) (n : Screen) (p : Nat × Nat) (party : Nat) : Grant :=
  { screen := n, row := p.1, position := p.2, party := party, time := s.house.clock, seen := false }

/-- The grant taken, before ARMUP is looked at (R101). -/
def State.granting (k : EntryId) (n : Screen) (p : Nat × Nat) (party : Nat) (s : State) : State :=
  State.moveLane k (EntryLane.granted (s.newGrant n p party))
    ((s.onHouse (House.assignStall n p party k)).count k fun c => { c with grants := bumpTo 65535 c.grants })

theorem State.takeGrant_eq (k : EntryId) (n : Screen) (p : Nat × Nat) (party : Nat) (s : State) :
    s.takeGrant k n p party = (s.granting k n p party).lookUp k := rfl

theorem State.granting_change (k : EntryId) (n : Screen) (p : Nat × Nat) (party : Nat) (s : State) :
    LaneChange k (EntryLane.granted (s.newGrant n p party)
      { s.lane k with counters := { (s.lane k).counters with grants := bumpTo 65535 (s.lane k).counters.grants } })
      s.present s (s.granting k n p party) :=
  (((LaneChange.refl k s).onHouse _ (State.assignStall_act ..)).count fun c =>
    { c with grants := bumpTo 65535 c.grants }).moveLane _

theorem State.granting_house (k : EntryId) (n : Screen) (p : Nat × Nat) (party : Nat) (s : State) :
    House.Stage (s.house.assignStall n p party k) (s.granting k n p party).house :=
  State.moveLane_stage k _ ((s.onHouse (House.assignStall n p party k)).count k fun c =>
    { c with grants := bumpTo 65535 c.grants })

/-! ### A jam (R110) -/

/-- A lane whose arm has jammed (R110). -/
def EntryLane.jammed (l : EntryLane) : EntryLane :=
  EntryLane.drive
    { l with
      state := .jammed, grant := none, refused := false, demand := false, armTimer := none, passTimer := none
      counters := { l.counters with
        armFaults := bumpTo 65535 l.counters.armFaults
        lapses := if l.grant.isSome then bumpTo 65535 l.counters.lapses else l.counters.lapses } }

theorem EntryLane.jammed_eq (l : EntryLane) : l.jammed = { l with
    state := .jammed, grant := none, refused := false, demand := false, armTimer := none, passTimer := none
    counters := { l.counters with
      armFaults := bumpTo 65535 l.counters.armFaults
      lapses := if l.grant.isSome then bumpTo 65535 l.counters.lapses else l.counters.lapses }
    raise := l.jammed.raise, sim := l.jammed.sim } := by
  conv => lhs; unfold EntryLane.jammed
  rw [EntryLane.drive_eq, EntryLane.drive_armTimer (show LaneState.jammed ≠ .lowering by decide)]
  rfl

theorem State.LaneChange.jam {k : EntryId} {x : EntryLane} {p : Nat} {s t : State} (c : LaneChange k x p s t) :
    LaneChange k x.jammed p s (t.jam k) := by
  unfold State.jam
  have lane := c.lane
  extract_lets l s1 s2 s3 stall
  have grant : l.grant = x.grant := congrArg EntryLane.grant lane
  have first : LaneChange k { x with counters := { x.counters with
      lapses := if x.grant.isSome then bumpTo 65535 x.counters.lapses else x.counters.lapses } } p s s1 := by
    obtain e | ⟨g, e⟩ := Option.eq_none_or_eq_some x.grant
    · have same : s1 = t := by simp only [s1, grant, e]
      have lapses : (if x.grant.isSome then bumpTo 65535 x.counters.lapses else x.counters.lapses) =
          x.counters.lapses := by rw [e]; rfl
      rw [same, lapses]
      exact c
    · have same : s1 = (t.onHouse (House.freeStall g)).count k fun c => { c with lapses := bumpTo 65535 c.lapses } := by
        simp only [s1, grant, e]
        rfl
      have lapses : (if x.grant.isSome then bumpTo 65535 x.counters.lapses else x.counters.lapses) =
          bumpTo 65535 x.counters.lapses := by rw [e]; rfl
      rw [same, lapses]
      exact (c.onHouse _ (State.freeStall_act g t)).count fun c => { c with lapses := bumpTo 65535 c.lapses }
  clear_value s1
  exact ((first.count fun c => { c with armFaults := rise c.armFaults }).moveLane fun l =>
    EntryLane.drive
      { l with
        state := .jammed, grant := none, refused := false, demand := false, armTimer := none
        passTimer := none }).notify ..

/-! ### An occupied clear loop (R108, R109) -/

theorem State.LaneChange.unpaidCrossing {k : EntryId} {x : EntryLane} {p : Nat} {s t : State} (c : LaneChange k x p s t) :
    LaneChange k { x with counters := { x.counters with unpaid := bumpTo 65535 x.counters.unpaid } }
      (if x.rehearsal then p else bumpTo 65535 p) s (t.unpaidCrossing k) :=
  ((c.count fun c => { c with unpaid := rise c.unpaid }).enterVehicle).notify ..

theorem State.unpaidCrossing_house (k : EntryId) (s : State) : (s.unpaidCrossing k).house =
    s.house.notify .unpaidCrossing [u8 (entryCode k), u8 (s.lane k).state.code] := by
  unfold State.unpaidCrossing
  exact congrArg (House.notify _ _) (State.enterVehicle_house ..)

/-- A lane with a tailgater on its clear loop (R108). -/
def EntryLane.tailgated (l : EntryLane) : EntryLane := EntryLane.drive { l with demand := true, armTimer := none }

theorem EntryLane.tailgated_eq (l : EntryLane) : l.tailgated =
    { l with demand := true, armTimer := none, raise := l.tailgated.raise, sim := l.tailgated.sim } := by
  conv => lhs; unfold EntryLane.tailgated
  rw [EntryLane.drive_demanded rfl, EntryLane.setRaise_eq]
  rfl

theorem EntryLane.tailgated_raised (l : EntryLane) : l.tailgated.raised = true := by
  unfold EntryLane.tailgated
  rw [EntryLane.drive_demanded rfl]
  exact EntryLane.setRaise_raised ..

theorem State.LaneChange.tailgate {k : EntryId} {x : EntryLane} {p : Nat} {s t : State} (c : LaneChange k x p s t) :
    LaneChange k
      (EntryLane.tailgated { x with counters := { x.counters with tailgates := bumpTo 65535 x.counters.tailgates } })
      (if x.rehearsal then p else bumpTo 65535 p) s (t.tailgate k) :=
  (((c.count fun c => { c with tailgates := rise c.tailgates }).enterVehicle).onLane EntryLane.tailgated).notify ..

theorem State.tailgate_house (k : EntryId) (s : State) :
    (s.tailgate k).house = s.house.notify .tailgate [u8 (entryCode k)] := by
  unfold State.tailgate
  exact congrArg (House.notify _ _) (State.enterVehicle_house ..)

end Machine
end Sys2Proof
end


-- ==== Sys2Proof/Proofs/LaneRequests.lean ====
section
/-! LANE SET, LANE OPEN and LANE CLOSE (R95, R98, R111), ADMIT (R101, R120), REFUSE and ATTENDANT PASS (R100, R106). -/

set_option autoImplicit false

namespace Sys2Proof
namespace Machine

open State (LaneChange Act)

/-! ### Requests that name an entry lane (R93) -/

section OneLane
variable {kind tag lane : Nat} {k : EntryId} {rule : EntryId → State → State × Answer} {s : State} (a : s.accepting)
  (named : entryOfCode lane = some k)
include a named

theorem entryRequest_accepted {t : State} {fields : List Field} (e : rule k s.taken = (t, ok fields)) :
    entryRequest kind tag lane rule s = .next (t.answered kind tag .ok (fields ++ (t.lane k).block)) := by
  refine request_accepted a ?_
  rw [onEntry_of named, e]
  rfl

theorem entryRequest_refused {st : Status} {detail : List Field} (e : rule k s.taken = (s.taken, refuse st detail)) :
    entryRequest kind tag lane rule s = .next (s.turnedDown kind tag st (detail ++ (s.lane k).block)) := by
  refine request_refused a ?_
  rw [onEntry_of named, e]
  rfl

end OneLane

theorem State.taken_lane (s : State) (k : EntryId) : s.taken.lane k = s.lane k := rfl

theorem State.onLane_lane_self (k : EntryId) (f : EntryLane → EntryLane) (s : State) :
    (s.onLane k f).lane k = f (s.lane k) := State.onLane_lane ..

/-! ### Notices of a lane -/

theorem State.closeLane_told (k : EntryId) {s t : State} (house : t.house = s.house) :
    State.told (closeOut k (t.lane k).counters s.house.clock) s (t.closeLane k) := by
  obtain ⟨u, handed, told⟩ := State.closeLane_house k t
  rw [house] at handed told
  exact handed.told told

theorem State.closedOut_of {k : EntryId} {x : EntryLane} {p : Nat} {s t : State} (c : LaneChange k x.closed p s t)
    (told : State.told (closeOut k x.counters s.house.clock) s t) : State.closedOut k s t := by
  unfold State.closedOut
  rw [c.lane]
  exact ⟨rfl, rfl, rfl, told⟩

theorem State.arrival_arrivedAt (k : EntryId) {s t : State} (house : t.house = s.house)
    (counters : (t.lane k).counters = (s.lane k).counters) : State.arrivedAt k s (t.arrival k) := by
  have lane : (t.arrival k).lane k = (t.lane k).arrived := ((LaneChange.refl k t).arrival).lane
  obtain ⟨u, handed, told⟩ := State.arrival_house k t
  rw [house] at handed
  refine ⟨congrArg EntryLane.state lane, ?_, handed.told told⟩
  rw [lane, ← counters]
  rfl

/-! ### LANE SET, LANE OPEN, LANE CLOSE -/

theorem exec_laneSet (tag lane map debounce arm pass : Nat) (s : State) :
    exec (.laneSet tag lane map debounce arm pass) s = execLaneSet tag lane map debounce arm pass s := rfl

/-- LANE OPEN of a CLOSED or JAMMED lane with RAISE released (R98). -/
theorem State.laneOpen_shut {k : EntryId} {s : State} (shut : (s.lane k).state = .closed ∨ (s.lane k).state = .jammed)
    (released : (s.lane k).raised = false) {s2 : State}
    (e : s2 = if (s.lane k).arrive.occupied then (s.onLane k fun l => { l with closePending := false }).arrival k
      else (s.onLane k fun l => { l with closePending := false }).reachIdle k) :
    s.laneOpen k = (s2, ok [u8 (s2.lane k).state.code]) := by
  unfold State.laneOpen
  rw [e]
  obtain state | state := shut <;> simp [state, released]

theorem State.laneOpen_raised {k : EntryId} {s : State} (shut : (s.lane k).state = .closed ∨ (s.lane k).state = .jammed)
    (raised : (s.lane k).raised = true) : s.laneOpen k = (s, refuse .busy []) := by
  unfold State.laneOpen
  obtain state | state := shut <;> simp [state, raised]

theorem State.laneOpen_open {k : EntryId} {s : State} (closed : (s.lane k).state ≠ .closed)
    (jammed : (s.lane k).state ≠ .jammed) : s.laneOpen k =
      (s.onLane k fun l => { l with closePending := false }, ok [u8 (s.lane k).state.code]) := by
  unfold State.laneOpen
  dsimp only
  split
  · next e => exact absurd e closed
  · next e => exact absurd e jammed
  · rfl

section
variable {tag lane : Nat} {s : State} {k : EntryId} (a : s.accepting) (named : entryOfCode lane = some k)
include a named

variable {map debounce arm pass : Nat}

theorem laneSet_wrong (wrong : entrySettings map debounce arm pass = none) :
    exec (.laneSet tag lane map debounce arm pass) s = .next (s.turnedDown 0x40 tag .badValue (s.lane k).block) := by
  rw [exec_laneSet, execLaneSet, exitOfCode_of_entry named]
  exact entryRequest_refused (detail := []) a named (by rw [wrong])

variable {t : LaneSettings} (fine : entrySettings map debounce arm pass = some t)
include fine

theorem laneSet_busy (busy : (s.lane k).state ≠ .closed) :
    exec (.laneSet tag lane map debounce arm pass) s = .next (s.turnedDown 0x40 tag .badState (s.lane k).block) := by
  rw [exec_laneSet, execLaneSet, exitOfCode_of_entry named]
  exact entryRequest_refused (detail := []) a named (by rw [fine]; exact if_neg busy)

theorem laneSet_closed (closed : (s.lane k).state = .closed) :
    exec (.laneSet tag lane map debounce arm pass) s =
      .next (State.answered 0x40 tag .ok ({ s.lane k with settings := t } : EntryLane).block
        (s.taken.onLane k fun l => { l with settings := t })) := by
  rw [exec_laneSet, execLaneSet, exitOfCode_of_entry named]
  refine (entryRequest_accepted (fields := []) a named (by rw [fine]; exact if_pos closed)).trans ?_
  rw [State.onLane_lane_self]
  rfl

end

/-- A LANE CLOSE that takes effect at once (R111). -/
theorem laneClose_shut {tag lane : Nat} {s : State} {k : EntryId} (a : s.accepting) (named : entryOfCode lane = some k)
    (shut : (s.lane k).state = .idle ∨ (s.lane k).state = .jammed) :
    exec (.laneClose tag lane) s = .next ((s.taken.closeLane k).answered 0x42 tag .ok
      (u8 1 :: ((s.taken.closeLane k).lane k).block)) := by
  refine entryRequest_accepted (fields := [uBool true]) a named ?_
  rw [State.taken_lane]
  obtain state | state := shut <;> rw [state]

theorem laneClose_busy {tag lane : Nat} {s : State} {k : EntryId} (a : s.accepting) (named : entryOfCode lane = some k)
    (closed : (s.lane k).state ≠ .closed) (idle : (s.lane k).state ≠ .idle) (jammed : (s.lane k).state ≠ .jammed) :
    exec (.laneClose tag lane) s = .next (State.answered 0x42 tag .ok
      (u8 0 :: ({ s.lane k with closePending := true } : EntryLane).block)
      (s.taken.onLane k fun l => { l with closePending := true })) := by
  refine (entryRequest_accepted (fields := [uBool false]) (t := s.taken.onLane k fun l => { l with closePending := true })
    a named ?_).trans ?_
  · rw [State.taken_lane]
    split
    · next e => exact absurd e closed
    · next e => exact absurd e idle
    · next e => exact absurd e jammed
    · rfl
  · rw [State.onLane_lane_self]
    rfl

/-- Settles O46. -/
theorem lanesOpenAndClose : Obligations.LanesOpenAndClose := by
  intro tag lane s a
  refine ⟨fun j map debounce arm pass named low high => ?_, fun k named => ⟨fun map debounce arm pass t fine =>
      ⟨laneSet_busy a named fine, laneSet_closed a named fine⟩, fun map debounce arm pass => laneSet_wrong a named,
    fun shut => ⟨fun raised => entryRequest_refused (detail := []) a named (State.laneOpen_raised shut raised),
      fun released => ?opens⟩,
    fun closed jammed => ?marked, fun closed => entryRequest_refused (detail := []) a named ?_, fun shut => ?closes,
    fun closed idle jammed => laneClose_busy a named closed idle jammed⟩⟩
  · rw [exec_laneSet, execLaneSet, named]
    exact request_accepted a (if_pos ⟨low, high⟩)
  case opens =>
    generalize e : (if (s.taken.lane k).arrive.occupied then
      (s.taken.onLane k fun l => { l with closePending := false }).arrival k
      else (s.taken.onLane k fun l => { l with closePending := false }).reachIdle k) = t
    have opened := entryRequest_accepted (kind := 0x41) (tag := tag) a named
      (State.laneOpen_shut (s := s.taken) shut released e.symm)
    have marked := (LaneChange.refl k s.taken).onLane fun l => { l with closePending := false }
    refine ⟨t, opened, ?_⟩
    cases car : (s.taken.lane k).arrive.occupied
    · rw [if_neg (by rw [car]; decide)] at e
      subst e
      have change := marked.reachIdle
      rw [EntryLane.idledOrClosed, if_neg (show ¬ false = true by decide)] at change
      refine ⟨change.laneKept, change.present, ?_, fun occupied => ?_, fun _ => ⟨?_, ?_⟩⟩
      · rw [change.lane]; rfl
      · rw [State.taken_lane] at car
        rw [car] at occupied
        cases occupied
      · rw [change.lane]; rfl
      · rw [change.lane]; rfl
    · rw [if_pos car] at e
      subst e
      have change := marked.arrival
      refine ⟨change.laneKept, change.present, ?_, fun _ => ?_, fun vacant => ?_⟩
      · rw [change.lane]; rfl
      · exact State.arrival_arrivedAt k rfl (by rw [State.onLane_lane_self])
      · rw [State.taken_lane] at car
        rw [vacant] at car
        cases car
  case marked =>
    refine (entryRequest_accepted a named (State.laneOpen_open (s := s.taken) closed jammed)).trans ?_
    rw [State.onLane_lane_self]
    rfl
  · rw [State.taken_lane, closed]
  case closes =>
    have change := (LaneChange.refl k s.taken).closeLane
    exact ⟨_, laneClose_shut a named shut, change.laneKept, change.present,
      State.closedOut_of change (State.closeLane_told k rfl), (congrArg EntryLane.counters change.lane).trans rfl⟩

/-! ### ADMIT (R101, R120) -/

section Judge
variable {h : House} {n : Screen} {stall : Option (Nat × Nat)}

theorem House.judgeStall_closed (closed : (h.lot n).admission = false) : h.judgeStall n stall = .error .closed :=
  if_pos (by rw [closed]; decide)

variable (admission : (h.lot n).admission = true)
include admission

theorem House.judgeStall_full (full : (h.lot n).capacity ≤ (h.lot n).occupancy) : h.judgeStall n stall = .error .full :=
  (if_neg (not_not_intro admission)).trans (if_pos full)

variable (room : (h.lot n).occupancy < (h.lot n).capacity)
include room

theorem House.judgeStall_noneFree (nothing : (h.lot n).anyStall = none) : h.judgeStall n none = .error .full := by
  refine (if_neg (not_not_intro admission)).trans ((if_neg (Nat.not_le.2 room)).trans ?_)
  dsimp only
  rw [nothing]

theorem House.judgeStall_any {p : Nat × Nat} (first : (h.lot n).anyStall = some p) : h.judgeStall n none = .ok p := by
  refine (if_neg (not_not_intro admission)).trans ((if_neg (Nat.not_le.2 room)).trans ?_)
  dsimp only
  rw [first]

theorem House.judgeStall_given {p : Nat × Nat} (free : h.stallState n p.1 p.2 = some .free) :
    h.judgeStall n (some p) = .ok p := by
  refine (if_neg (not_not_intro admission)).trans ((if_neg (Nat.not_le.2 room)).trans ?_)
  obtain ⟨x, found, state⟩ := Option.map_eq_some_iff.1 free
  dsimp only
  rw [found]
  exact if_pos state

theorem House.judgeStall_taken {p : Nat × Nat} (taken : h.stallState n p.1 p.2 ≠ some .free) :
    h.judgeStall n (some p) = .error .taken := by
  refine (if_neg (not_not_intro admission)).trans ((if_neg (Nat.not_le.2 room)).trans ?_)
  unfold House.stallState at taken
  dsimp only
  cases found : h.stall? n p.1 p.2 with
  | none => rfl
  | some x =>
    refine if_neg fun free => taken ?_
    rw [found, Option.map_some, free]

end Judge

/-- What ADMIT answers to the judgement of the lot (R101, R120). -/
def State.answerJudged (k : EntryId) (n : Screen) (party : Nat) (s : State) : Except Status (Nat × Nat) → State × Answer
  | .error st => (s, refuse st [])
  | .ok p => (s.takeGrant k n p party, ok [u8 (screenCode n), u8 p.1, u8 p.2])

section Grant
variable {k : EntryId} {screen party : Nat} {n : Screen} {stall : Option (Nat × Nat)} {s : State}
  (known : screenOfCode screen = some n) (range : ∀ p, stall = some p → stallInRange p.1 p.2 = true)
include known range

/-- The checks of ADMIT in their order, once screen and stall are in range (R101). -/
theorem State.grantStall_checks : s.grantStall k screen stall party =
    if (s.lane k).state = .idle then (s, refuse .noVehicle [])
    else if (s.lane k).state ≠ .waiting then (s, refuse .badState [])
    else if (s.lane k).settings.map ≠ none ∧ (s.lane k).settings.map ≠ some n then (s, refuse .badValue [])
    else s.answerJudged k n party (s.house.judgeStall n stall) := by
  unfold State.grantStall
  rw [known]
  cases stall with
  | none =>
    dsimp only
    cases s.house.judgeStall n none <;> rfl
  | some p =>
    dsimp only
    rw [range p rfl]
    dsimp only
    cases s.house.judgeStall n (some p) <;> rfl

theorem State.grantStall_idle (state : (s.lane k).state = .idle) :
    s.grantStall k screen stall party = (s, refuse .noVehicle []) :=
  (State.grantStall_checks known range).trans (if_pos state)

theorem State.grantStall_badState (idle : (s.lane k).state ≠ .idle) (waiting : (s.lane k).state ≠ .waiting) :
    s.grantStall k screen stall party = (s, refuse .badState []) :=
  (State.grantStall_checks known range).trans ((if_neg idle).trans (if_pos waiting))

variable (waiting : (s.lane k).state = .waiting)
include waiting

theorem State.grantStall_otherScreen {m : Screen} (map : (s.lane k).settings.map = some m) (ne : m ≠ n) :
    s.grantStall k screen stall party = (s, refuse .badValue []) := by
  refine (State.grantStall_checks known range).trans
    ((if_neg (by rw [waiting]; decide)).trans ((if_neg (not_not_intro waiting)).trans (if_pos ?_)))
  rw [map]
  exact ⟨nofun, fun same => ne (Option.some.inj same)⟩

variable (mapped : (s.lane k).settings.map = none ∨ (s.lane k).settings.map = some n)
include mapped

theorem State.grantStall_error {st : Status} (judged : s.house.judgeStall n stall = .error st) :
    s.grantStall k screen stall party = (s, refuse st []) := by
  refine (State.grantStall_checks known range).trans
    ((if_neg (by rw [waiting]; decide)).trans ((if_neg (not_not_intro waiting)).trans ((if_neg ?_).trans ?_)))
  · exact fun neither => mapped.elim neither.1 neither.2
  · rw [judged, State.answerJudged]

theorem State.grantStall_ok {p : Nat × Nat} (judged : s.house.judgeStall n stall = .ok p) :
    s.grantStall k screen stall party = (s.takeGrant k n p party, ok [u8 (screenCode n), u8 p.1, u8 p.2]) := by
  refine (State.grantStall_checks known range).trans
    ((if_neg (by rw [waiting]; decide)).trans ((if_neg (not_not_intro waiting)).trans ((if_neg ?_).trans ?_)))
  · exact fun neither => mapped.elim neither.1 neither.2
  · rw [judged, State.answerJudged]

end Grant

/-- A grant taken while ARMUP is not asserted leaves the lane in RAISING (R102). -/
theorem State.takeGrant_raising {k : EntryId} {s : State} (n : Screen) (p : Nat × Nat) (party : Nat)
    (down : (s.lane k).upSense = false) : s.takeGrant k n p party = s.granting k n p party := by
  rw [State.takeGrant_eq]
  refine State.lookUp_down ?_
  rw [(State.granting_change k n p party s).lane, EntryLane.granted_upSense]
  exact down

/-- One found up takes the lane on to PASSING (R102). -/
theorem State.takeGrant_passing {k : EntryId} {s : State} (n : Screen) (p : Nat × Nat) (party : Nat)
    (up : (s.lane k).upSense = true) (car : (s.lane k).arrive.occupied = true) :
    s.takeGrant k n p party = (s.granting k n p party).moveLane k EntryLane.passing := by
  have lane := (State.granting_change k n p party s).lane
  rw [State.takeGrant_eq]
  refine (if_pos ?_).trans (State.enterPassing_eq (g := s.newGrant n p party) ?_ nofun fun _ => ?_)
  · rw [lane, EntryLane.granted_upSense, EntryLane.granted_eq]
    exact ⟨rfl, up⟩
  · rw [lane, EntryLane.granted_eq]
  · rw [lane, EntryLane.granted_eq]
    exact car

theorem House.Stage.assigned {n : Screen} {p : Nat × Nat} {party : Nat} {k : EntryId} {h u : House}
    (x : House.Stage (h.assignStall n p party k) u) (free : h.stallState n p.1 p.2 = some .free) :
    ∃ y, u.stall? n p.1 p.2 = some y ∧ y.state = .assigned ∧ y.party = party ∧ y.lane = some k ∧ y.admitTime = none := by
  obtain ⟨z, found, _⟩ := Option.map_eq_some_iff.1 free
  exact x.stalls.found ((House.assignStall_stall n p party k h).trans (by rw [found]; rfl))

/-- What a granted ADMIT leaves (R101, R102, R120). -/
theorem State.takeGrant_leaves {k : EntryId} {s : State} (n : Screen) (p : Nat × Nat) (party : Nat)
    (free : s.house.stallState n p.1 p.2 = some .free)
    (car : (s.lane k).upSense = true → (s.lane k).arrive.occupied = true) : ∃ t x, s.takeGrant k n p party = t
      ∧ State.laneKept k t s ∧ t.present = s.present
      ∧ (t.lane k).refused = false ∧ (t.lane k).demand = true ∧ (t.lane k).raised = true
      ∧ ((s.lane k).upSense = false → (t.lane k).state = .raising
          ∧ (t.lane k).armTimer = some ((s.lane k).settings.armTimeout * 1000))
      ∧ ((s.lane k).upSense = true → (t.lane k).state = .passing ∧ (t.lane k).armTimer = none
          ∧ (t.lane k).passTimer = some ((s.lane k).settings.passTimeout * 1000))
      ∧ (t.lane k).grant = some (s.newGrant n p party)
      ∧ (t.lane k).counters = { (s.lane k).counters with grants := bumpTo 65535 (s.lane k).counters.grants }
      ∧ t.house.stall? n p.1 p.2 = some x ∧ x.state = .assigned ∧ x.party = party ∧ x.lane = some k
      ∧ x.admitTime = none := by
  have change := State.granting_change k n p party s
  have stage := State.granting_house k n p party s
  generalize e : ({ s.lane k with
    counters := { (s.lane k).counters with grants := bumpTo 65535 (s.lane k).counters.grants } } : EntryLane) = l at change
  have settings : l.settings = (s.lane k).settings := by rw [← e]
  have counters : l.counters =
      { (s.lane k).counters with grants := bumpTo 65535 (s.lane k).counters.grants } := by rw [← e]
  have raised := EntryLane.granted_raised (s.newGrant n p party) l
  have granted := EntryLane.granted_eq (s.newGrant n p party) l
  cases sense : (s.lane k).upSense
  · obtain ⟨x, found, state, party', lane, time⟩ := stage.assigned free
    refine ⟨_, x, State.takeGrant_raising n p party sense, change.laneKept, change.present, ?_⟩
    rw [change.lane]
    refine ⟨?_, ?_, raised, fun _ => ⟨?_, ?_⟩, nofun, ?_, ?_, found, state, party', lane, time⟩
    · rw [granted]
    · rw [granted]
    · rw [granted]
    · rw [granted, ← settings]
    · rw [granted]
    · rw [granted, counters]
  · have change := change.moveLane EntryLane.passing
    obtain ⟨x, found, state, party', lane, time⟩ := (stage.trans (State.moveLane_stage ..)).assigned free
    refine ⟨_, x, State.takeGrant_passing n p party sense (car sense), change.laneKept, change.present, ?_⟩
    rw [change.lane]
    refine ⟨?_, ?_, raised, nofun, fun _ => ⟨rfl, rfl, ?_⟩, ?_, ?_, found, state, party', lane, time⟩
    · rw [granted]; rfl
    · rw [granted]; rfl
    · rw [granted, ← settings]; rfl
    · rw [granted]; rfl
    · rw [granted, ← counters]; rfl

/-- Settles O47. -/
theorem admitGrantsAStall : Obligations.AdmitGrantsAStall := by
  intro tag lane screen party stall s k n a named known range
  have refused {st : Status} (e : s.taken.grantStall k screen stall party = (s.taken, refuse st [])) :
      exec (.admitCar tag lane screen stall party) s = .next (s.turnedDown 0x43 tag st (s.lane k).block) :=
    entryRequest_refused (detail := []) a named e
  refine ⟨fun idle => refused (State.grantStall_idle (s := s.taken) known range idle), fun idle waiting =>
      refused (State.grantStall_badState (s := s.taken) known range idle waiting), fun waiting =>
    ⟨fun m map ne => refused (State.grantStall_otherScreen (s := s.taken) known range waiting map ne), fun mapped => ?_⟩⟩
  have judged {st : Status} (e : s.taken.house.judgeStall n stall = .error st) :=
    refused (State.grantStall_error (s := s.taken) known range waiting mapped e)
  refine ⟨fun closed => judged (House.judgeStall_closed closed),
    fun admission full => judged (House.judgeStall_full admission full), fun admission room =>
    ⟨fun p given taken => judged (by rw [given]; exact House.judgeStall_taken admission room taken),
      fun none nothing => judged (by rw [none]; exact House.judgeStall_noneFree admission room nothing),
      fun p chosen free car => ?_⟩⟩
  have found : s.taken.house.judgeStall n stall = .ok p := by
    obtain given | ⟨none, first⟩ := chosen
    · rw [given]; exact House.judgeStall_given admission room free
    · rw [none]; exact House.judgeStall_any admission room first
  obtain ⟨t, x, taken, leaves⟩ := State.takeGrant_leaves (s := s.taken) n p party free car
  refine ⟨t, x, ?_, leaves⟩
  rw [← taken]
  exact entryRequest_accepted a named (State.grantStall_ok (s := s.taken) known range waiting mapped found)

/-! ### REFUSE and ATTENDANT PASS (R100, R106) -/

/-- Settles O48. -/
theorem refuseAndAttendantPass : Obligations.RefuseAndAttendantPass := by
  intro tag lane s k a named
  refine ⟨fun waiting => ?_, fun idle => ⟨entryRequest_refused (detail := []) a named (by rw [State.taken_lane, idle]),
      entryRequest_refused (detail := []) a named (by rw [State.taken_lane, idle])⟩,
    fun waiting idle => entryRequest_refused (detail := []) a named ?_,
    fun passing idle => entryRequest_refused (detail := []) a named ?_, fun g passing held up => ?_⟩
  · refine (entryRequest_accepted (fields := []) (t := s.taken.onLane k fun l => { l with refused := true }) a named
      (by rw [State.taken_lane, waiting])).trans ?_
    rw [State.onLane_lane_self]
    rfl
  · rw [State.taken_lane]
    split
    · next e => exact absurd e waiting
    · next e => exact absurd e idle
    · rfl
  · rw [State.taken_lane]
    split
    · next e => exact absurd e passing
    · next e => exact absurd e idle
    · rfl
  · obtain ⟨t, passed, kept, present, state, grant, demand, _, _, counters, stall⟩ :=
      (LaneChange.refl k s.taken).passGrant_leaves held up rfl .attendant
    refine ⟨t, ?_, kept, present, state, grant, demand, counters, stall⟩
    rw [← passed]
    exact entryRequest_accepted (fields := []) a named (by rw [State.taken_lane, passing])

end Machine
end Sys2Proof
end


-- ==== Sys2Proof/Proofs/LaneEvents.lean ====
section
/-! What the loops, the arm senses and the timers of a lane bring (R94, R96, R99, R102 to R112, R181). -/

set_option autoImplicit false

namespace Sys2Proof
namespace Machine

open State (LaneChange Act)

/-! ### One lane changed -/

theorem State.onLane_congr {k : EntryId} {f g : EntryLane → EntryLane} {s : State} (same : f (s.lane k) = g (s.lane k)) :
    s.onLane k f = s.onLane k g := by
  unfold State.onLane
  rw [tmod, show f (tget s.lanes k) = g (tget s.lanes k) from same]
  rfl

theorem State.onLane_tset (k : EntryId) (f : EntryLane → EntryLane) (s : State) :
    s.onLane k f = { s with lanes := tset s.lanes k ((s.onLane k f).lane k) } := by
  rw [State.onLane_lane]
  rfl

theorem State.onLane_onLane (k : EntryId) (f g : EntryLane → EntryLane) (s : State) :
    (s.onLane k f).onLane k g = s.onLane k fun l => g (f l) := by
  unfold State.onLane
  have twice (v : Vector EntryLane 6) : tmod (tmod v k f) k g = tmod v k fun l => g (f l) := by
    refine table_ext _ _ fun i => ?_
    simp only [tget_tmod]
    split <;> rfl
  rw [twice]

/-! ### Settling (R94) -/

theorem Loop.settle_vacant {l : Loop} (occupied : l.occupied = true) :
    l.settle = { l with occupied := false, timer := none } := by rw [Loop.settle, occupied]; rfl

theorem Loop.settle_occupied {l : Loop} (vacant : l.occupied = false) :
    l.settle = { l with occupied := true, timer := none } := by rw [Loop.settle, vacant]; rfl

section Settle
variable {k : EntryId} {s : State}

theorem State.arriveSettles_vacant (running : (s.lane k).arrive.timer.isSome = true)
    (occupied : (s.lane k).arrive.occupied = true) : s.arriveSettles k = State.arriveEvent k
      (s.onLane k fun l => { l with arrive := { l.arrive with occupied := false, timer := none } }) := by
  refine (if_neg (Option.isSome_iff_ne_none.1 running)).trans (congrArg (State.arriveEvent k) (State.onLane_congr ?_))
  rw [Loop.settle_vacant occupied]

theorem State.arriveSettles_occupied (running : (s.lane k).arrive.timer.isSome = true)
    (vacant : (s.lane k).arrive.occupied = false) : s.arriveSettles k = State.arriveEvent k
      (s.onLane k fun l => { l with arrive := { l.arrive with occupied := true, timer := none } }) := by
  refine (if_neg (Option.isSome_iff_ne_none.1 running)).trans (congrArg (State.arriveEvent k) (State.onLane_congr ?_))
  rw [Loop.settle_occupied vacant]

theorem State.clearSettles_vacant (running : (s.lane k).clear.timer.isSome = true)
    (occupied : (s.lane k).clear.occupied = true) : s.clearSettles k = State.clearEvent k
      (s.onLane k fun l => { l with clear := { l.clear with occupied := false, timer := none } }) := by
  refine (if_neg (Option.isSome_iff_ne_none.1 running)).trans (congrArg (State.clearEvent k) (State.onLane_congr ?_))
  rw [Loop.settle_vacant occupied]

theorem State.clearSettles_occupied (running : (s.lane k).clear.timer.isSome = true)
    (vacant : (s.lane k).clear.occupied = false) : s.clearSettles k = State.clearEvent k
      (s.onLane k fun l => { l with clear := { l.clear with occupied := true, timer := none } }) := by
  refine (if_neg (Option.isSome_iff_ne_none.1 running)).trans (congrArg (State.clearEvent k) (State.onLane_congr ?_))
  rw [Loop.settle_occupied vacant]

end Settle

/-! ### What a settled loop brings, case by case (R99, R103, R104, R108, R109) -/

section Events
variable {k : EntryId} {s : State}

theorem State.arriveEvent_idle (state : (s.lane k).state = .idle) (car : (s.lane k).arrive.occupied = true) :
    s.arriveEvent k = s.arrival k := by
  unfold State.arriveEvent
  dsimp only
  rw [state, car]

theorem State.arriveEvent_waiting (state : (s.lane k).state = .waiting) (left : (s.lane k).arrive.occupied = false) :
    s.arriveEvent k = s.visitEnd k := by
  unfold State.arriveEvent
  dsimp only
  rw [state, left]

theorem State.arriveEvent_passing {g : Grant} (state : (s.lane k).state = .passing)
    (left : (s.lane k).arrive.occupied = false) (held : (s.lane k).grant = some g) :
    s.arriveEvent k = if g.seen then s else s.backout k := by
  unfold State.arriveEvent
  dsimp only
  rw [state, left, held]

theorem State.clearEvent_seen (state : (s.lane k).state = .raising ∨ (s.lane k).state = .passing)
    (car : (s.lane k).clear.occupied = true) : s.clearEvent k =
      s.onLane k fun l => { l with grant := l.grant.map fun g => { g with seen := true } } := by
  unfold State.clearEvent
  dsimp only
  rw [car]
  obtain state | state := state <;> rw [state]

theorem State.clearEvent_tailgate (state : (s.lane k).state = .lowering) (car : (s.lane k).clear.occupied = true) :
    s.clearEvent k = s.tailgate k := by
  unfold State.clearEvent
  dsimp only
  rw [state, car]

theorem State.clearEvent_unpaid (state : (s.lane k).state = .closed ∨ (s.lane k).state = .idle
      ∨ (s.lane k).state = .waiting ∨ (s.lane k).state = .jammed) (car : (s.lane k).clear.occupied = true) :
    s.clearEvent k = s.unpaidCrossing k := by
  unfold State.clearEvent
  dsimp only
  rw [car]
  obtain state | state | state | state := state <;> rw [state]

theorem State.clearEvent_passing {g : Grant} (state : (s.lane k).state = .passing)
    (left : (s.lane k).clear.occupied = false) (held : (s.lane k).grant = some g) :
    s.clearEvent k = if g.seen then s.passGrant k .loop else s := by
  unfold State.clearEvent
  dsimp only
  rw [state, left, held]

theorem State.clearEvent_lowering (state : (s.lane k).state = .lowering) (left : (s.lane k).clear.occupied = false) :
    s.clearEvent k = (s.onLane k fun l => EntryLane.drive { l with demand := false }).lookDown k := by
  unfold State.clearEvent
  dsimp only
  rw [state, left]

theorem State.clearEvent_vacated (passing : (s.lane k).state ≠ .passing) (lowering : (s.lane k).state ≠ .lowering)
    (left : (s.lane k).clear.occupied = false) : s.clearEvent k = s.onLane k EntryLane.drive := by
  unfold State.clearEvent
  dsimp only
  rw [left]
  cases state : (s.lane k).state <;> first | rfl | exact absurd state passing | exact absurd state lowering

end Events

/-! ### Exit loops (R112) -/

theorem State.onExit_congr {j : ExitId} {f g : ExitLane → ExitLane} {s : State}
    (same : f (s.exitLane j) = g (s.exitLane j)) : s.onExit j f = s.onExit j g := by
  unfold State.onExit
  rw [tmod, show f (tget s.exits j) = g (tget s.exits j) from same]
  rfl

theorem State.exitSettles_noted {j : ExitId} {s : State} (running : (s.exitLane j).loop.timer.isSome = true)
    (vacant : (s.exitLane j).loop.occupied = false) : s.exitSettles j = s.onExit j fun x =>
      { x with loop := { x.loop with occupied := true, timer := none }, noted := true } := by
  unfold State.exitSettles
  have settled := Loop.settle_occupied vacant
  refine (if_neg (Option.isSome_iff_ne_none.1 running)).trans ((if_pos (by rw [settled])).trans ?_)
  refine State.onExit_congr ?_
  rw [settled]

theorem State.exitSettles_left {j : ExitId} {s : State} (running : (s.exitLane j).loop.timer.isSome = true)
    (occupied : (s.exitLane j).loop.occupied = true) (noted : (s.exitLane j).noted = true) :
    s.exitSettles j = { s with present := s.present - 1 }.onExit j fun x =>
      { x with
        loop := { x.loop with occupied := false, timer := none }, noted := false, exits := bumpTo 65535 x.exits } := by
  unfold State.exitSettles
  have settled := Loop.settle_vacant occupied
  refine (if_neg (Option.isSome_iff_ne_none.1 running)).trans
    ((if_neg (by rw [settled]; exact Bool.false_ne_true)).trans ((if_pos noted).trans ?_))
  refine State.onExit_congr ?_
  rw [settled]
  rfl

/-! ### LOOP_RAW_CHANGE and the settling rows -/

theorem State.visitEnd_closes {k : EntryId} {s t : State} (house : t.house = s.house)
    (closing : (t.lane k).closePending = true) :
    State.told (closeOut k ((t.lane k).counters.visitEnded (t.lane k).refused) s.house.clock) s (t.visitEnd k) := by
  have same : t.visitEnd k = (t.count k (Counters.visitEnded (t.lane k).refused)).reachIdle k := rfl
  rw [same]
  generalize e : t.count k (Counters.visitEnded (t.lane k).refused) = u
  have lane : u.lane k = { t.lane k with counters := (t.lane k).counters.visitEnded (t.lane k).refused } := by
    rw [← e]
    exact State.onLane_lane ..
  have house' : u.house = s.house := by rw [← e]; exact house
  obtain ⟨v, handed, told⟩ := State.reachIdle_house (k := k) (s := u) (by rw [lane]; exact closing)
  rw [house', lane] at told
  rw [house'] at handed
  exact handed.told told

/-- The car that waited has left (R99). -/
theorem State.arriveSettles_leaves {k : EntryId} {s : State} (running : (s.lane k).arrive.timer.isSome = true)
    (state : (s.lane k).state = .waiting) (occupied : (s.lane k).arrive.occupied = true) : ∃ t,
      s.arriveSettles k = t ∧ State.laneKept k t s ∧ t.present = s.present
        ∧ (t.lane k).state = (if (s.lane k).closePending then .closed else .idle) ∧ (t.lane k).refused = false
        ∧ ((s.lane k).closePending = true → State.closedOut k s t)
        ∧ (t.lane k).counters = (s.lane k).counters.visitEnded (s.lane k).refused := by
  have settled := (LaneChange.refl k s).onLane fun l => { l with arrive := { l.arrive with occupied := false, timer := none } }
  rw [State.arriveSettles_vacant running occupied]
  generalize e : (s.onLane k fun l => { l with arrive := { l.arrive with occupied := false, timer := none } }) = u at settled
  have house : u.house = s.house := by rw [← e]; rfl
  clear e
  have lane := settled.lane
  have change := settled.visitEnd
  refine ⟨_, State.arriveEvent_waiting (by rw [lane]; exact state) (by rw [lane]), change.laneKept, change.present, ?_⟩
  cases pending : (s.lane k).closePending
  · rw [EntryLane.idledOrClosed, if_neg (by rw [pending]; decide)] at change
    rw [change.lane]
    exact ⟨rfl, rfl, nofun, rfl⟩
  · rw [EntryLane.idledOrClosed, if_pos pending] at change
    have told := State.visitEnd_closes (k := k) house (by rw [lane]; exact pending)
    rw [lane] at told
    refine ⟨?_, ?_, fun _ => State.closedOut_of change told, ?_⟩ <;> (rw [change.lane]; rfl)

/-- A car comes to an IDLE lane (R99). -/
theorem State.arriveSettles_comes {k : EntryId} {s : State} (running : (s.lane k).arrive.timer.isSome = true)
    (state : (s.lane k).state = .idle) (vacant : (s.lane k).arrive.occupied = false) : ∃ t,
      s.arriveSettles k = t ∧ State.laneKept k t s ∧ t.present = s.present
        ∧ State.arrivedAt k s t ∧ (t.lane k).arrive.occupied = true ∧ (t.lane k).arrive.timer = none := by
  have settled := (LaneChange.refl k s).onLane fun l => { l with arrive := { l.arrive with occupied := true, timer := none } }
  rw [State.arriveSettles_occupied running vacant]
  generalize e : (s.onLane k fun l => { l with arrive := { l.arrive with occupied := true, timer := none } }) = u at settled
  have house : u.house = s.house := by rw [← e]; rfl
  clear e
  have lane := settled.lane
  have change := settled.arrival
  refine ⟨_, State.arriveEvent_idle (by rw [lane]; exact state) (by rw [lane]), change.laneKept, change.present,
    State.arrival_arrivedAt k house (by rw [lane]), ?_⟩
  rw [change.lane]
  exact ⟨rfl, rfl⟩

/-- In PASSING a car that leaves the arrival loop is a backout, unless it has been seen on the clear loop (R103, R104). -/
theorem State.arriveSettles_passing {k : EntryId} {s : State} {g : Grant} (running : (s.lane k).arrive.timer.isSome = true)
    (state : (s.lane k).state = .passing) (held : (s.lane k).grant = some g)
    (occupied : (s.lane k).arrive.occupied = true) {u : State}
    (e : (s.onLane k fun l => { l with arrive := { l.arrive with occupied := false, timer := none } }) = u) :
    s.arriveSettles k = if g.seen then u else u.backout k := by
  have lane : u.lane k = _ := (congrArg (State.lane · k) e.symm).trans (State.onLane_lane ..)
  rw [State.arriveSettles_vacant running occupied, e]
  exact State.arriveEvent_passing (by rw [lane]; exact state) (by rw [lane]) (by rw [lane]; exact held)

theorem State.clearSettles_passing {k : EntryId} {s : State} {g : Grant} (running : (s.lane k).clear.timer.isSome = true)
    (state : (s.lane k).state = .passing) (held : (s.lane k).grant = some g)
    (occupied : (s.lane k).clear.occupied = true) {u : State}
    (e : (s.onLane k fun l => { l with clear := { l.clear with occupied := false, timer := none } }) = u) :
    s.clearSettles k = if g.seen then u.passGrant k .loop else u := by
  have lane : u.lane k = _ := (congrArg (State.lane · k) e.symm).trans (State.onLane_lane ..)
  rw [State.clearSettles_vacant running occupied, e]
  exact State.clearEvent_passing (by rw [lane]; exact state) (by rw [lane]) (by rw [lane]; exact held)

/-- An occupied clear loop with no grant and no arm raised (R109). -/
theorem State.clearSettles_unpaid {k : EntryId} {s : State} (running : (s.lane k).clear.timer.isSome = true)
    (vacant : (s.lane k).clear.occupied = false) (state : (s.lane k).state = .closed ∨ (s.lane k).state = .idle
      ∨ (s.lane k).state = .waiting ∨ (s.lane k).state = .jammed) : ∃ t,
      s.clearSettles k = t ∧ State.laneKept k t s
        ∧ t.present = (if (s.lane k).rehearsal then s.present else bumpTo 65535 s.present)
        ∧ t.house.out = s.house.out.push { kind := .unpaidCrossing, time := s.house.clock,
                                           fields := [u8 (entryCode k), u8 (s.lane k).state.code] }
        ∧ t.lane k = { s.lane k with
            clear := { (s.lane k).clear with occupied := true, timer := none }
            counters := { (s.lane k).counters with unpaid := bumpTo 65535 (s.lane k).counters.unpaid } } := by
  have settled := (LaneChange.refl k s).onLane fun l => { l with clear := { l.clear with occupied := true, timer := none } }
  rw [State.clearSettles_occupied running vacant]
  generalize e : (s.onLane k fun l => { l with clear := { l.clear with occupied := true, timer := none } }) = u at settled
  have house : u.house = s.house := by rw [← e]; rfl
  clear e
  have lane := settled.lane
  have change := settled.unpaidCrossing
  refine ⟨_, State.clearEvent_unpaid (by rw [lane]; exact state) (by rw [lane]), change.laneKept, change.present, ?_,
    change.lane⟩
  rw [State.unpaidCrossing_house, lane, House.notify_out, house]

/-- An occupied clear loop in LOWERING (R108). -/
theorem State.clearSettles_tailgate {k : EntryId} {s : State} (running : (s.lane k).clear.timer.isSome = true)
    (vacant : (s.lane k).clear.occupied = false) (state : (s.lane k).state = .lowering) : ∃ t,
      s.clearSettles k = t ∧ State.laneKept k t s
        ∧ t.present = (if (s.lane k).rehearsal then s.present else bumpTo 65535 s.present)
        ∧ t.house = s.house.notify .tailgate [u8 (entryCode k)]
        ∧ (t.lane k).state = .lowering ∧ (t.lane k).demand = true ∧ (t.lane k).raised = true
        ∧ (t.lane k).armTimer = none
        ∧ (t.lane k).counters =
            { (s.lane k).counters with tailgates := bumpTo 65535 (s.lane k).counters.tailgates } := by
  have settled := (LaneChange.refl k s).onLane fun l => { l with clear := { l.clear with occupied := true, timer := none } }
  rw [State.clearSettles_occupied running vacant]
  generalize e : (s.onLane k fun l => { l with clear := { l.clear with occupied := true, timer := none } }) = u at settled
  have house : u.house = s.house := by rw [← e]; rfl
  clear e
  have lane := settled.lane
  have change := settled.tailgate
  refine ⟨_, State.clearEvent_tailgate (by rw [lane]; exact state) (by rw [lane]), change.laneKept, change.present, ?_, ?_⟩
  · rw [State.tailgate_house, house]
  · rw [change.lane]
    refine ⟨?_, ?_, EntryLane.tailgated_raised _, ?_, ?_⟩ <;> rw [EntryLane.tailgated_eq]
    exact state

/-- A vacated clear loop in LOWERING releases RAISE (R96, R107). -/
theorem State.clearSettles_lowering {k : EntryId} {s : State} (running : (s.lane k).clear.timer.isSome = true)
    (occupied : (s.lane k).clear.occupied = true) (state : (s.lane k).state = .lowering)
    (raised : (s.lane k).raised = true) (up : (s.lane k).downSense = false) : ∃ t,
      s.clearSettles k = t ∧ t = { s with lanes := tset s.lanes k (t.lane k) }
        ∧ (t.lane k).state = .lowering ∧ (t.lane k).demand = false ∧ (t.lane k).raised = false
        ∧ (t.lane k).armTimer = some ((s.lane k).settings.armTimeout * 1000)
        ∧ (t.lane k).counters = (s.lane k).counters := by
  have settled := (LaneChange.refl k s).onLane fun l => { l with clear := { l.clear with occupied := false, timer := none } }
  have driven := settled.onLane fun l => EntryLane.drive { l with demand := false }
  have stays := State.lookDown_up (k := k) (by
    rw [driven.lane]
    exact EntryLane.drive_downSense (l := { s.lane k with
      clear := { (s.lane k).clear with occupied := false, timer := none }, demand := false }) up)
  have event := (State.clearSettles_vacant running occupied).trans
    ((State.clearEvent_lowering (by rw [settled.lane]; exact state) (by rw [settled.lane])).trans stays)
  have lane := driven.lane
  rw [State.onLane_onLane] at event lane
  refine ⟨_, event, State.onLane_tset .., ?_⟩
  rw [lane]
  refine ⟨(EntryLane.drive_state _).trans state, ?_, EntryLane.drive_raised rfl, EntryLane.drive_lowering rfl rfl raised state,
    EntryLane.drive_counters _⟩
  rw [EntryLane.drive_eq]

/-- Elsewhere a vacated clear loop releases a RAISE whose demand is off (R96). -/
theorem State.clearSettles_elsewhere {k : EntryId} {s : State} (running : (s.lane k).clear.timer.isSome = true)
    (occupied : (s.lane k).clear.occupied = true) (passing : (s.lane k).state ≠ .passing)
    (lowering : (s.lane k).state ≠ .lowering) : ∃ t,
      s.clearSettles k = t ∧ t = { s with lanes := tset s.lanes k (t.lane k) }
        ∧ (t.lane k).raised = (s.lane k).demand ∧ (t.lane k).state = (s.lane k).state
        ∧ (t.lane k).grant = (s.lane k).grant ∧ (t.lane k).counters = (s.lane k).counters := by
  have settled := (LaneChange.refl k s).onLane fun l => { l with clear := { l.clear with occupied := false, timer := none } }
  have lane := (settled.onLane EntryLane.drive).lane
  have event := (State.clearSettles_vacant running occupied).trans
    (State.clearEvent_vacated (by rw [settled.lane]; exact passing) (by rw [settled.lane]; exact lowering)
      (by rw [settled.lane]))
  rw [State.onLane_onLane] at event lane
  refine ⟨_, event, State.onLane_tset .., ?_⟩
  rw [lane]
  exact ⟨EntryLane.drive_raised rfl, EntryLane.drive_state _, EntryLane.drive_grant _, EntryLane.drive_counters _⟩

theorem State.loopRaw_arrive {k : EntryId} {s : State} (level : Bool) (live : (s.lane k).rehearsal = false) :
    s.loopRaw (.arrive k) level = s.onLane k fun l =>
      { l with arrive := { l.arrive with
          raw := level
          timer := if level = l.arrive.occupied then none else l.arrive.timer.or (some l.settings.debounce) } } :=
  State.onLane_congr (by rw [live]; rfl)

theorem State.loopRaw_clear {k : EntryId} {s : State} (level : Bool) (live : (s.lane k).rehearsal = false) :
    s.loopRaw (.clear k) level = s.onLane k fun l =>
      { l with clear := { l.clear with
          raw := level
          timer := if level = l.clear.occupied then none else l.clear.timer.or (some l.settings.debounce) } } :=
  State.onLane_congr (by rw [live]; rfl)

theorem exec_loopRawChange (loop : LoopId) (level : Bool) (s : State) :
    exec (.loopRawChange loop level) s = .next (s.loopRaw loop level) := rfl

theorem exec_arriveSettles (k : EntryId) (s : State) : exec (.arriveSettles k) s = .next (s.arriveSettles k) := rfl

theorem exec_clearSettles (k : EntryId) (s : State) : exec (.clearSettles k) s = .next (s.clearSettles k) := rfl

theorem exec_exitSettles (j : ExitId) (s : State) : exec (.exitSettles j) s = .next (s.exitSettles j) := rfl

/-- Settles O49. -/
theorem loopsSettle : Obligations.LoopsSettle := by
  intro s
  simp only [exec_loopRawChange, exec_arriveSettles, exec_clearSettles, exec_exitSettles, Host.Outcome.next.injEq]
  refine ⟨fun k level live => ⟨State.loopRaw_arrive level live, State.loopRaw_clear level live⟩, fun j level => rfl,
    fun k running => ⟨State.arriveSettles_comes running, State.arriveSettles_leaves running⟩,
    fun k running vacant state => State.clearSettles_unpaid running vacant state, fun k g state held =>
    ⟨fun running occupied => ⟨fun seen => ?_, fun unseen up => ?_⟩, fun running occupied => ⟨fun unseen => ?_,
      fun seen up => ?_⟩⟩,
    fun k running => ⟨fun vacant state => ?_, State.clearSettles_tailgate running, State.clearSettles_lowering running,
      State.clearSettles_elsewhere running⟩,
    fun j running => ⟨State.exitSettles_noted running, State.exitSettles_left running⟩⟩
  · exact (State.arriveSettles_passing running state held occupied rfl).trans (if_pos seen)
  · generalize e : (s.onLane k fun l => { l with arrive := { l.arrive with occupied := false, timer := none } }) = u
    have settled := (LaneChange.refl k s).onLane fun l =>
      { l with arrive := { l.arrive with occupied := false, timer := none } }
    have event := (State.arriveSettles_passing running state held occupied e).trans
      (if_neg (by rw [unseen]; exact Bool.false_ne_true))
    rw [e] at settled
    obtain ⟨t, back, leaves⟩ := settled.backout_leaves held up (by rw [← e]; rfl)
    exact ⟨t, event.trans back, leaves⟩
  · exact (State.clearSettles_passing running state held occupied rfl).trans
      (if_neg (by rw [unseen]; exact Bool.false_ne_true))
  · generalize e : (s.onLane k fun l => { l with clear := { l.clear with occupied := false, timer := none } }) = u
    have settled := (LaneChange.refl k s).onLane fun l =>
      { l with clear := { l.clear with occupied := false, timer := none } }
    have event := (State.clearSettles_passing running state held occupied e).trans (if_pos seen)
    rw [e] at settled
    obtain ⟨t, passed, kept, present, state', grant, demand, raised, timer, counters, stall⟩ :=
      settled.passGrant_leaves held up (by rw [← e]; rfl) .loop
    exact ⟨t, event.trans passed, kept, present, state', grant, demand, raised rfl, timer, counters, stall⟩
  · have settled := (LaneChange.refl k s).onLane fun l =>
      { l with clear := { l.clear with occupied := true, timer := none } }
    refine (State.clearSettles_occupied running vacant).trans
      ((State.clearEvent_seen (by rw [settled.lane]; exact state) (by rw [settled.lane])).trans ?_)
    exact State.onLane_onLane ..

/-! ### Arm senses and timers (R96, R102 to R107, R110, R181) -/

theorem exec_armupAsserted (k : EntryId) (level : Bool) (s : State) :
    exec (.armupAsserted k level) s = .next (s.armUpLevel k level) := rfl

theorem exec_armdnAsserted (k : EntryId) (level : Bool) (s : State) :
    exec (.armdnAsserted k level) s = .next (s.armDownLevel k level) := rfl

theorem exec_armTimeout (k : EntryId) (s : State) : exec (.armTimeout k) s = .next (s.armTimeout k) := rfl

theorem exec_passTimeout (k : EntryId) (s : State) : exec (.passTimeout k) s = .next (s.passTimeout k) := rfl

theorem exec_simulatedArmTravelEnd (k : EntryId) (s : State) :
    exec (.simulatedArmTravelEnd k) s = .next (s.armTravelEnd k) := rfl

/-- A low level of a sense is only noted (log entry 7). -/
theorem State.armUpLevel_low (k : EntryId) (s : State) :
    s.armUpLevel k false = s.onLane k fun l => { l with armUp := false } := by
  unfold State.armUpLevel
  exact if_neg fun both => Bool.false_ne_true both.1

theorem State.armDownLevel_low (k : EntryId) (s : State) :
    s.armDownLevel k false = s.onLane k fun l => { l with armDn := false } := by
  unfold State.armDownLevel
  exact if_neg fun both => Bool.false_ne_true both.1

section Senses
variable {k : EntryId} {s : State} (live : (s.lane k).rehearsal = false)
include live

/-- ARMUP in RAISING brings PASSING, while the loops bring neither a pass nor a backout (R102). -/
theorem State.armUpLevel_raising {g : Grant} (state : (s.lane k).state = .raising) (held : (s.lane k).grant = some g)
    (seen : g.seen = true → (s.lane k).clear.occupied = true)
    (unseen : g.seen = false → (s.lane k).arrive.occupied = true) :
    s.armUpLevel k true = (s.onLane k fun l => { l with armUp := true }).moveLane k EntryLane.passing := by
  have lane := ((LaneChange.refl k s).onLane fun l => { l with armUp := true }).lane
  refine (if_pos ⟨rfl, by rw [live]; exact Bool.false_ne_true⟩).trans ((if_pos ?_).trans (State.enterPassing_eq (g := g) ?_ ?_ ?_))
  · rw [lane]
    refine ⟨state, ?_⟩
    rw [EntryLane.upSense, if_neg (by rw [live]; exact Bool.false_ne_true)]
  · rw [lane]; exact held
  · rw [lane]; exact seen
  · rw [lane]; exact unseen

/-- ARMDN in LOWERING, RAISE released, ends the lowering (R107). -/
theorem State.armDownLevel_lowering (state : (s.lane k).state = .lowering) (released : (s.lane k).raise = false) :
    s.armDownLevel k true = (s.onLane k fun l => { l with armDn := true }).lowered k := by
  have lane := ((LaneChange.refl k s).onLane fun l => { l with armDn := true }).lane
  have quiet : ¬ (s.lane k).rehearsal = true := by rw [live]; exact Bool.false_ne_true
  refine (if_pos ⟨rfl, quiet⟩).trans (if_pos ?_)
  rw [lane, EntryLane.raised, if_neg quiet, EntryLane.downSense, if_neg quiet]
  exact ⟨state, by rw [released]; exact Bool.false_ne_true, rfl⟩

end Senses

theorem State.lowered_closing {k : EntryId} {t : State} (pending : (t.lane k).closePending = true) :
    t.lowered k = t.closeLane k := if_pos pending

theorem State.lowered_car {k : EntryId} {t : State} (pending : (t.lane k).closePending = false)
    (car : (t.lane k).arrive.occupied = true) : t.lowered k = t.arrival k :=
  (if_neg (by rw [pending]; exact Bool.false_ne_true)).trans (if_pos car)

theorem State.armTimeout_jam {k : EntryId} {s : State} (running : (s.lane k).armTimer.isSome = true)
    (state : (s.lane k).state = .raising ∨ (s.lane k).state = .lowering) : s.armTimeout k = s.jam k := by
  unfold State.armTimeout
  rw [if_neg (Option.isSome_iff_ne_none.1 running)]
  obtain e | e := state <;> rw [e]

/-- The end of a simulated arm's travel (R181). -/
theorem SimArm.arrive_moving {a : SimArm} (moving : a.travel.isSome = true)
    (position : a.position = .rising ∨ a.position = .falling) :
    a.arrive = { a with position := if a.position = .rising then .up else .down, travel := none } := by
  obtain ⟨left, travel⟩ := Option.isSome_iff_exists.1 moving
  unfold SimArm.arrive
  rw [travel]
  obtain e | e := position <;> rw [e] <;> rfl

theorem State.armTravelEnd_resting {k : EntryId} {s : State} (rehearsing : (s.lane k).rehearsal = true)
    (raising : (s.lane k).state ≠ .raising) (lowering : (s.lane k).state ≠ .lowering) :
    s.armTravelEnd k = s.onLane k fun l => { l with sim := l.sim.arrive } := by
  have lane := ((LaneChange.refl k s).onLane fun l => { l with sim := l.sim.arrive }).lane
  refine (if_pos rehearsing).trans ?_
  unfold State.lookArm
  rw [State.lookUp, if_neg (by rw [lane]; exact fun both => raising both.1), State.lookDown,
    if_neg (by rw [lane]; exact fun both => lowering both.1)]

/-- Settles O50. -/
theorem armsAndTimers : Obligations.ArmsAndTimers := by
  intro s k
  simp only [exec_armupAsserted, exec_armdnAsserted, exec_armTimeout, exec_passTimeout, exec_simulatedArmTravelEnd,
    Host.Outcome.next.injEq]
  refine ⟨State.armUpLevel_low k s, State.armDownLevel_low k s, fun g live state held seen unseen => ?_,
    fun live state released pending vacant => ?_, fun live state released pending => ?_,
    fun live state released pending car => ?_, fun running state => ?_, fun g running state held up => ?_,
    fun rehearsing moving raising lowering position => ?_, fun live => if_neg (by rw [live]; exact Bool.false_ne_true)⟩
  · have change := ((LaneChange.refl k s).onLane fun l => { l with armUp := true }).moveLane EntryLane.passing
    exact ⟨_, State.armUpLevel_raising live state held seen unseen, change.laneKept, change.present, change.lane⟩
  · have change := ((LaneChange.refl k s).onLane fun l => { l with armDn := true }).lowered
    rw [if_neg (by rw [pending]; exact Bool.false_ne_true), if_neg (by rw [vacant]; exact Bool.false_ne_true)] at change
    exact ⟨_, State.armDownLevel_lowering live state released, change.laneKept, change.present, change.lane⟩
  · have sensed := (LaneChange.refl k s).onLane fun l => { l with armDn := true }
    have change := sensed.lowered
    rw [if_pos pending] at change
    have closes := State.lowered_closing (k := k) (by rw [sensed.lane]; exact pending)
    have told := State.closeLane_told k (s := s) (t := s.onLane k fun l => { l with armDn := true }) rfl
    rw [← closes, sensed.lane] at told
    exact ⟨_, State.armDownLevel_lowering live state released, change.laneKept, change.present,
      State.closedOut_of change told, change.lane⟩
  · have sensed := (LaneChange.refl k s).onLane fun l => { l with armDn := true }
    have change := sensed.arrival
    have event := (State.armDownLevel_lowering live state released).trans
      (State.lowered_car (k := k) (by rw [sensed.lane]; exact pending) (by rw [sensed.lane]; exact car))
    refine ⟨_, event, change.laneKept, change.present, State.arrival_arrivedAt k rfl (by rw [sensed.lane]), ?_⟩
    rw [change.lane]
    exact ⟨rfl, rfl, rfl, rfl⟩
  · have change := (LaneChange.refl k s).jam
    refine ⟨_, State.armTimeout_jam running state, change.laneKept, change.present, ?_⟩
    rw [change.lane, EntryLane.jammed_eq]
    exact ⟨rfl, rfl, rfl, rfl, rfl⟩
  · obtain ⟨t, lapsed, kept, present, state', grant, demand, counters, stall⟩ :=
      (LaneChange.refl k s).lapse_leaves held up rfl
    refine ⟨t, (if_neg ?_).trans lapsed, kept, present, state', grant, demand, counters, fun x found =>
      ⟨.vacant, stall x found, rfl⟩⟩
    exact fun either => either.elim (Option.isSome_iff_ne_none.1 running) fun other => other state
  · refine (State.armTravelEnd_resting rehearsing raising lowering).trans (State.onLane_congr ?_)
    rw [SimArm.arrive_moving moving position]

end Machine
end Sys2Proof
end


-- ==== Sys2Proof/Proofs/Queues.lean ====
section
/-! SUPPORT. Placing, displacing and departing announcements (R76, R80 to R83), said once for announcements, calls and
start clips. -/

set_option autoImplicit false

namespace Sys2Proof
namespace Machine

/-! ### Free ids (R76) -/

theorem firstFree_or (next : Nat → Nat) (used : List Nat) (fuel i : Nat) :
    firstFree next used fuel i ∉ used ∨ ∀ k ≤ fuel, next^[k] i ∈ used := by
  induction fuel generalizing i with
  | zero =>
    by_cases taken : i ∈ used
    · refine .inr fun k le => ?_
      obtain rfl := Nat.le_zero.1 le
      exact taken
    · exact .inl taken
  | succ fuel ih =>
    unfold firstFree
    split
    case isTrue taken =>
      refine (ih (next i)).imp id fun all k le => ?_
      cases k with
      | zero => exact List.contains_iff_mem.1 taken
      | succ k =>
        rw [Function.iterate_succ_apply]
        exact all k (Nat.le_of_succ_le_succ le)
    case isFalse free => exact .inl fun m => free (List.contains_iff_mem.2 m)

/-- Counting on while a number is used finds a free one, when the numbers counted through are different. -/
theorem firstFree_fresh {next : Nat → Nat} {used : List Nat} {i : Nat}
    (distinct : ∀ j k, j < k → k ≤ used.length → next^[j] i ≠ next^[k] i) :
    firstFree next used used.length i ∉ used := by
  refine (firstFree_or next used used.length i).resolve_right fun all => ?_
  have nodup : ((List.range (used.length + 1)).map fun k => next^[k] i).Nodup := by
    refine List.Nodup.map_on (fun j jm k km same => ?_) List.nodup_range
    have jle := List.mem_range.1 jm
    have kle := List.mem_range.1 km
    obtain lt | rfl | gt := Nat.lt_trichotomy j k
    · exact absurd same (distinct j k lt (by omega))
    · rfl
    · exact absurd same.symm (distinct k j gt (by omega))
  have sub : ((List.range (used.length + 1)).map fun k => next^[k] i) ⊆ used := fun x m => by
    obtain ⟨k, km, rfl⟩ := List.mem_map.1 m
    exact all k (Nat.le_of_lt_succ (List.mem_range.1 km))
  have le := (nodup.subperm sub).length_le
  rw [List.length_map, List.length_range] at le
  omega

theorem nextAnnId_iterate (i k : Nat) (small : k ≤ 65535) : nextAnnId^[k] i =
    if k = 0 then i else if min i 65535 + k ≤ 65535 then min i 65535 + k else min i 65535 + k - 65535 := by
  induction k with
  | zero => rfl
  | succ k ih =>
    have before := ih (Nat.le_of_succ_le small)
    have step : nextAnnId^[k + 1] i = if nextAnnId^[k] i < 65535 then nextAnnId^[k] i + 1 else 1 := by
      rw [Function.iterate_succ_apply']
      rfl
    rw [step]
    generalize nextAnnId^[k] i = j at before ⊢
    clear ih step
    rw [if_neg (Nat.succ_ne_zero k)]
    split_ifs at before ⊢ <;> omega

theorem House.mem_queuedIds {h : House} {id : Nat} : id ∈ h.queuedIds ↔ ∃ n, ∃ a ∈ h.queue n, a.id = id := by
  unfold House.queuedIds
  rw [List.mem_flatMap]
  constructor
  · rintro ⟨q, inside, named⟩
    obtain ⟨i, lt, rfl⟩ := Vector.mem_iff_getElem.1 (Vector.mem_toList_iff.1 inside)
    obtain ⟨a, m, e⟩ := List.mem_map.1 named
    exact ⟨⟨i, lt⟩, a, m, e⟩
  · rintro ⟨n, a, m, e⟩
    exact ⟨h.queue n, Vector.mem_toList_iff.2 (Vector.getElem_mem n.isLt), List.mem_map.2 ⟨a, m, e⟩⟩

theorem House.queuedIds_length {h : House} (short : ∀ n, (h.queue n).length ≤ 12) : h.queuedIds.length ≤ 48 := by
  unfold House.queuedIds
  rw [List.length_flatMap]
  have le := List.sum_le_card_nsmul (h.queues.toList.map fun q => (q.map Ann.id).length) 12 fun x m => by
    obtain ⟨q, inside, rfl⟩ := List.mem_map.1 m
    obtain ⟨i, lt, rfl⟩ := Vector.mem_iff_getElem.1 (Vector.mem_toList_iff.1 inside)
    rw [List.length_map]
    exact short ⟨i, lt⟩
  rw [List.length_map, Vector.length_toList] at le
  exact le

/-- The next id is no id queued on the site (R76). -/
theorem House.freeAnnId_fresh {h : House} (short : ∀ n, (h.queue n).length ≤ 12) (n : Screen) {a : Ann}
    (m : a ∈ h.queue n) : a.id ≠ h.freeAnnId := by
  have few := House.queuedIds_length short
  have fresh : h.freeAnnId ∉ h.queuedIds := firstFree_fresh fun j k lt le => by
    rw [nextAnnId_iterate _ j (by omega), nextAnnId_iterate _ k (by omega)]
    split_ifs <;> omega
  exact fun same => fresh (House.mem_queuedIds.2 ⟨n, a, m, same⟩)

/-! ### The place in queue order (R80) -/

theorem mem_insertAnn {a b : Ann} {q : List Ann} : b ∈ insertAnn a q ↔ b = a ∨ b ∈ q := by
  induction q with
  | nil => exact List.mem_cons
  | cons c rest ih =>
    unfold insertAnn
    split
    · rw [List.mem_cons, ih, List.mem_cons]
      exact or_left_comm
    · exact List.mem_cons

theorem insertAnn_split (a : Ann) (q : List Ann) : ∃ before after, q = before ++ after
    ∧ insertAnn a q = before ++ a :: after ∧ (∀ b ∈ before, b.priority ≤ a.priority)
    ∧ ∀ b, after.head? = some b → a.priority < b.priority := by
  induction q with
  | nil => exact ⟨[], [], rfl, rfl, fun _ m => (List.not_mem_nil m).elim, fun _ e => nomatch e⟩
  | cons c rest ih =>
    by_cases urgent : c.priority ≤ a.priority
    · obtain ⟨before, after, split, joined, low, high⟩ := ih
      refine ⟨c :: before, after, by rw [split, List.cons_append], ?_, fun b m => ?_, high⟩
      · rw [insertAnn, if_pos urgent, joined, List.cons_append]
      · obtain rfl | m := List.mem_cons.1 m
        · exact urgent
        · exact low b m
    · refine ⟨[], c :: rest, rfl, if_neg urgent, fun _ m => (List.not_mem_nil m).elim, fun b e => ?_⟩
      obtain rfl := Option.some.inj e
      exact Nat.lt_of_not_le urgent

/-- A queue in order of priority stays so. -/
theorem insertAnn_pairwise {a : Ann} {q : List Ann} (sorted : q.Pairwise fun a b => a.priority ≤ b.priority) :
    (insertAnn a q).Pairwise fun a b => a.priority ≤ b.priority := by
  induction q with
  | nil => exact List.pairwise_singleton _ a
  | cons c rest ih =>
    obtain ⟨first, later⟩ := List.pairwise_cons.1 sorted
    unfold insertAnn
    split
    case isTrue urgent =>
      refine List.pairwise_cons.2 ⟨fun b m => ?_, ih later⟩
      obtain rfl | m := mem_insertAnn.1 m
      · exact urgent
      · exact first b m
    case isFalse late =>
      have above : a.priority ≤ c.priority := Nat.le_of_lt (Nat.lt_of_not_le late)
      refine List.pairwise_cons.2 ⟨fun b m => ?_, sorted⟩
      obtain rfl | m := List.mem_cons.1 m
      · exact above
      · exact Nat.le_trans above (first b m)

/-! ### References -/

theorem House.setClip_clips_congr {a b : House} (same : b.clips = a.clips) (id : Nat) (r : ClipRec) :
    (b.setClip id r).clips = (a.setClip id r).clips := by
  unfold House.setClip
  split <;> simp only [same]

theorem House.clip_congr {a b : House} (same : b.clips = a.clips) (id : Nat) : b.clip id = a.clip id := by
  unfold House.clip
  rw [same]

theorem House.takeRefs_clips_congr {a b : House} (same : b.clips = a.clips) (ids : List Nat) :
    (b.takeRefs ids).clips = (a.takeRefs ids).clips := by
  unfold House.takeRefs
  induction ids generalizing a b with
  | nil => exact same
  | cons id rest ih =>
    refine ih ?_
    unfold House.takeRef
    rw [House.clip_congr same]
    exact House.setClip_clips_congr same id _

theorem House.dropRefs_clips_congr {a b : House} (same : b.clips = a.clips) (ids : List Nat) :
    (b.dropRefs ids).clips = (a.dropRefs ids).clips := by
  unfold House.dropRefs
  induction ids generalizing a b with
  | nil => exact same
  | cons id rest ih =>
    refine ih ?_
    unfold House.dropRef
    rw [House.clip_congr same]
    exact House.setClip_clips_congr same id _

/-! ### Placing -/

/-- The announcement that an offer becomes when it is placed (R76, R80). -/
def House.newAnn (h : House) (o : Offer) : Ann :=
  { id := h.freeAnnId, cls := o.cls, priority := (h.classRow o.cls).priority, clips := o.clips, origin := o.origin,
    enqueued := h.clock, wait := 0, position := 1, removed := false }

theorem House.placeAnn_queue_any (n m : Screen) (o : Offer) (h : House) :
    (h.placeAnn n o).queue m = if m = n then insertAnn (h.newAnn o) (h.queue m) else h.queue m := by
  unfold House.placeAnn
  dsimp only
  rw [House.onQueue_queue_any, House.takeRefs_eq]
  rfl

@[simp] theorem House.placeAnn_queue (n : Screen) (o : Offer) (h : House) :
    (h.placeAnn n o).queue n = insertAnn (h.newAnn o) (h.queue n) := by
  rw [House.placeAnn_queue_any, if_pos rfl]

theorem House.placeAnn_queue_ne {n m : Screen} (o : Offer) (h : House) (ne : m ≠ n) :
    (h.placeAnn n o).queue m = h.queue m := by
  rw [House.placeAnn_queue_any, if_neg ne]

@[simp] theorem House.placeAnn_clips (n : Screen) (o : Offer) (h : House) :
    (h.placeAnn n o).clips = (h.takeRefs o.clips).clips := by
  unfold House.placeAnn
  exact House.takeRefs_clips_congr (a := h) (b := { h with nextAnn := nextAnnId h.freeAnnId }) rfl o.clips

@[simp] theorem House.placeAnn_players (n : Screen) (o : Offer) (h : House) : (h.placeAnn n o).players = h.players := by
  rw [House.placeAnn_eq]

@[simp] theorem House.placeAnn_orders (n : Screen) (o : Offer) (h : House) : (h.placeAnn n o).orders = h.orders := by
  rw [House.placeAnn_eq]

@[simp] theorem House.placeAnn_out (n : Screen) (o : Offer) (h : House) : (h.placeAnn n o).out = h.out := by
  rw [House.placeAnn_eq]

@[simp] theorem House.placeAnn_classes (n : Screen) (o : Offer) (h : House) : (h.placeAnn n o).classes = h.classes := by
  rw [House.placeAnn_eq]

@[simp] theorem House.placeAnn_stations (n : Screen) (o : Offer) (h : House) :
    (h.placeAnn n o).stations = h.stations := by
  rw [House.placeAnn_eq]

@[simp] theorem House.selectPlayer_queue (n m : Screen) (h : House) : (h.selectPlayer n).queue m = h.queue m := by
  rw [House.selectPlayer_rest]; rfl

@[simp] theorem House.selectPlayer_queues (n : Screen) (h : House) : (h.selectPlayer n).queues = h.queues := by
  rw [House.selectPlayer_rest]

@[simp] theorem House.selectPlayer_orders (n : Screen) (h : House) : (h.selectPlayer n).orders = h.orders := by
  rw [House.selectPlayer_rest]

@[simp] theorem House.selectPlayer_clips (n : Screen) (h : House) : (h.selectPlayer n).clips = h.clips := by
  rw [House.selectPlayer_rest]

@[simp] theorem House.selectPlayer_out (n : Screen) (h : House) : (h.selectPlayer n).out = h.out := by
  rw [House.selectPlayer_rest]

@[simp] theorem House.selectPlayer_classes (n : Screen) (h : House) : (h.selectPlayer n).classes = h.classes := by
  rw [House.selectPlayer_rest]

@[simp] theorem House.selectPlayer_stations (n : Screen) (h : House) : (h.selectPlayer n).stations = h.stations := by
  rw [House.selectPlayer_rest]

theorem House.selectPlayer_player_ne {n m : Screen} (h : House) (ne : m ≠ n) :
    (h.selectPlayer n).player m = h.player m := by
  unfold House.selectPlayer
  split <;> first | rfl | exact House.onPlayer_player_ne _ _ _ _ ne

theorem House.nobodyExpires_congr {a b : House} {n : Screen} (queue : b.queue n = a.queue n)
    (classes : b.classes = a.classes) (nobody : a.nobodyExpires n) : b.nobodyExpires n := fun x m => by
  rw [House.classRow_congr classes]
  exact nobody x (queue ▸ m)

/-- A fresh announcement does not expire. -/
theorem House.nobodyExpires_placed {h : House} {n : Screen} {o : Offer} (nobody : h.nobodyExpires n)
    (waits : 0 < (h.classRow o.cls).maxWait) : ((h.placeAnn n o).selectPlayer n).nobodyExpires n := by
  refine House.nobodyExpires_congr (a := h.placeAnn n o) (House.selectPlayer_queue ..) (House.selectPlayer_classes ..)
    fun x m => ?_
  rw [House.classRow_congr (House.placeAnn_classes n o h)]
  rw [House.placeAnn_queue] at m
  obtain rfl | m := mem_insertAnn.1 m
  · exact Nat.mul_pos waits (by decide)
  · exact nobody x m

/-- An offer is no second call of an order that has one in the queue (R149). -/
def House.noSecondCall (h : House) (n : Screen) (o : Offer) : Prop :=
  ∀ k, o.origin = .order k → ∀ a ∈ h.queue n, a.origin ≠ .order k

theorem House.noSecondCall_manual (h : House) (n : Screen) (cls : AnnClass) (clips : List Nat) :
    h.noSecondCall n { cls := cls, clips := clips, origin := .manual } := fun _ e => nomatch e

/-- The house after a displacement, before the new announcement is placed (R81, R83). -/
def House.displaced (n : Screen) (v : Ann) (h : House) : House :=
  ((h.takeOut n v).notify .announceDropped (annFields n v ++ [u8 2])).callDisplaced v.id

section Offer
variable {h : House} {n : Screen} {o : Offer} (first : h.noSecondCall n o)
include first

theorem House.offer_first : h.offer n o =
    if (h.queue n).length < Config.queueRoom then ((h.placeAnn n o).selectPlayer n, .placed h.freeAnnId false)
    else match h.victim n (h.classRow o.cls).priority with
      | none => (h, .refused)
      | some v => (((h.displaced n v).placeAnn n o).selectPlayer n, .placed (h.displaced n v).freeAnnId true) := by
  unfold House.offer
  extract_lets sameOrder
  have none : sameOrder = false := by
    unfold sameOrder
    split
    case h_1 k e => exact List.any_eq_false.2 fun a m same => first k e a m (of_decide_eq_true same)
    case h_2 => rfl
  rw [if_neg (by rw [none]; exact Bool.false_ne_true)]
  rfl

theorem House.offer_room (room : (h.queue n).length < 12) :
    h.offer n o = ((h.placeAnn n o).selectPlayer n, .placed h.freeAnnId false) :=
  (House.offer_first first).trans (if_pos room)

theorem House.offer_refused (full : 12 ≤ (h.queue n).length) (none : h.victim n (h.classRow o.cls).priority = none) :
    h.offer n o = (h, .refused) := by
  rw [House.offer_first first, if_neg (Nat.not_lt.2 full), none]

theorem House.offer_displaces {v : Ann} (full : 12 ≤ (h.queue n).length)
    (some : h.victim n (h.classRow o.cls).priority = some v) : h.offer n o =
      (((h.displaced n v).placeAnn n o).selectPlayer n, .placed (h.displaced n v).freeAnnId true) := by
  rw [House.offer_first first, if_neg (Nat.not_lt.2 full), some]

end Offer

/-! ### Who is displaced (R81) -/

theorem le_foldl_max (l : List Nat) (x : Nat) : x ≤ l.foldl max x ∧ ∀ y ∈ l, y ≤ l.foldl max x := by
  induction l generalizing x with
  | nil => exact ⟨Nat.le_refl x, fun _ m => (List.not_mem_nil m).elim⟩
  | cons z rest ih =>
    obtain ⟨start, all⟩ := ih (max x z)
    refine ⟨Nat.le_trans (Nat.le_max_left x z) start, fun y m => ?_⟩
    obtain rfl | m := List.mem_cons.1 m
    · exact Nat.le_trans (Nat.le_max_right x y) start
    · exact all y m

/-- The displaced one is a less urgent announcement of the least urgent priority, and not the held one. -/
theorem House.victim_least {h : House} {n : Screen} {priority : Nat} {v : Ann} (e : h.victim n priority = some v) :
    (h.player n).held ≠ some v.id ∧ priority < v.priority
      ∧ ∀ b ∈ h.queue n, (h.player n).held ≠ some b.id → b.priority ≤ v.priority := by
  unfold House.victim at e
  extract_lets worst at e
  split at e
  case isTrue less =>
    have is : v.priority = worst := of_decide_eq_true (List.find?_some (p := fun a : Ann => decide (a.priority = worst)) e)
    have candidate := List.mem_filter.1 (List.mem_reverse.1 (List.mem_of_find?_eq_some e))
    refine ⟨of_decide_eq_true candidate.2, is ▸ less, fun b m free => ?_⟩
    rw [is]
    exact (le_foldl_max ((h.candidates n).map Ann.priority) 0).2 _
      (List.mem_map_of_mem (List.mem_filter.2 ⟨m, decide_eq_true free⟩))
  case isFalse => cases e

theorem House.victim_congr {a b : House} {n : Screen} (queue : b.queue n = a.queue n)
    (player : b.player n = a.player n) (priority : Nat) : b.victim n priority = a.victim n priority := by
  unfold House.victim House.candidates
  rw [queue, player]

/-! ### Departures (R83) -/

/-- No order of a screen waits to be called (R152). -/
def House.nobodyWaits (h : House) (n : Screen) : Prop := ∀ o ∈ h.orders, o.screen = n → o.callWaiting = false

theorem House.reportDeparture_of_nobody {h : House} {n : Screen} (nobody : h.nobodyWaits n) :
    h.reportDeparture n = h := by
  have empty : h.oldestWaiting n = none := by
    unfold House.oldestWaiting
    rw [List.filter_eq_nil_iff.2 fun o m waits => ?_]
    · rfl
    · rw [decide_eq_true_eq] at waits
      rw [nobody o m waits.1] at waits
      cases waits.2
  unfold House.reportDeparture House.departureReport
  rw [empty]

/-- The house at the departure report of an announcement that departs (R83). -/
def House.departed (n : Screen) (a : Ann) (d : Departure) (h : House) : House :=
  (((h.takeOut n a).onPlayer n fun p => if p.held = some a.id then { p with held := none } else p).departureNotice
    n a d).departureCount a d

theorem House.depart_eq (n : Screen) (a : Ann) (d : Departure) (h : House) :
    h.depart n a d = ((h.departed n a d).reportDeparture n).selectPlayer n := rfl

theorem House.departureNotice_rest (n : Screen) (a : Ann) (d : Departure) (h : House) :
    h.departureNotice n a d = { h with out := (h.departureNotice n a d).out } := by
  cases d <;> rfl

theorem House.departureCount_rest (a : Ann) (d : Departure) (h : House) :
    h.departureCount a d = { h with orders := (h.departureCount a d).orders } := by
  cases d with
  | removed byCancel => cases byCancel <;> rfl
  | _ => rfl

/-- What the report of a call that counts makes of an order (R150). -/
def Order.counted (id interval : Nat) (o : Order) : Order :=
  if o.call = some id then
    { o with call := none, made := o.made + 1, remaining := o.remaining - 1,
             due := if o.remaining - 1 = 0 then none else some (interval * 1000) }
  else o

theorem House.departureCount_orders (a : Ann) (d : Departure) (h : House) :
    (h.departureCount a d).orders =
      if d = .removed false then h.orders else h.orders.map (Order.counted a.id h.orderPolicy.interval) := by
  cases d with
  | removed byCancel => cases byCancel <;> rfl
  | _ => rfl

/-- Departures leave everything but clips, queues, players, notices and orders alone. -/
theorem House.departed_rest (n : Screen) (a : Ann) (d : Departure) (h : House) : h.departed n a d =
    { h with clips := (h.dropRefs a.clips).clips, queues := tmod h.queues n fun q => q.filter fun b => b.id ≠ a.id,
             players := (h.departed n a d).players, out := (h.departed n a d).out,
             orders := (h.departed n a d).orders } := by
  unfold House.departed
  rw [House.departureCount_rest, House.departureNotice_rest, House.takeOut_eq]
  have clips : (h.takeOut n a).clips = (h.dropRefs a.clips).clips :=
    House.dropRefs_clips_congr (a := h) (b := h.onQueue n fun q => q.filter fun b => b.id ≠ a.id) rfl _
  rw [← clips]
  rfl

theorem House.departed_queue (n m : Screen) (a : Ann) (d : Departure) (h : House) : (h.departed n a d).queue m =
    if m = n then (h.queue m).filter fun b => b.id ≠ a.id else h.queue m := by
  rw [House.departed_rest]
  exact tget_tmod _ _ _ _

theorem House.departed_orders (n : Screen) (a : Ann) (d : Departure) (h : House) : (h.departed n a d).orders =
    if d = .removed false then h.orders else h.orders.map (Order.counted a.id h.orderPolicy.interval) := by
  unfold House.departed
  rw [House.departureCount_orders, House.departureNotice_rest, House.takeOut_eq]
  rfl

theorem Order.counted_waits (id interval : Nat) (o : Order) :
    (o.counted id interval).screen = o.screen ∧ (o.counted id interval).callWaiting = o.callWaiting
      ∧ (o.counted id interval).ready = o.ready ∧ (o.counted id interval).number = o.number := by
  unfold Order.counted
  split <;> exact ⟨rfl, rfl, rfl, rfl⟩

theorem House.nobodyWaits_departed {h : House} {n : Screen} (a : Ann) (d : Departure) (nobody : h.nobodyWaits n) :
    (h.departed n a d).nobodyWaits n := by
  intro o m
  rw [House.departed_orders] at m
  split at m
  · exact nobody o m
  · obtain ⟨p, pm, rfl⟩ := List.mem_map.1 m
    obtain ⟨screen, waiting, _, _⟩ := p.counted_waits a.id h.orderPolicy.interval
    rw [screen, waiting]
    exact nobody p pm

/-- With no order waiting for a call, a departure only takes the announcement out. -/
theorem House.depart_of_nobody {h : House} {n : Screen} (a : Ann) (d : Departure) (nobody : h.nobodyWaits n) :
    h.depart n a d = (h.departed n a d).selectPlayer n := by
  rw [House.depart_eq, House.reportDeparture_of_nobody (House.nobodyWaits_departed a d nobody)]

/-- Whatever expires then, nothing joins the queue while no order waits. -/
theorem House.expireWaits_less {n : Screen} (fuel : Nat) {h : House} (nobody : h.nobodyWaits n) :
    ((h.expireWaits n fuel).queue n).Sublist (h.queue n) := by
  induction fuel generalizing h with
  | zero => exact .refl _
  | succ fuel ih =>
    unfold House.expireWaits
    split
    case h_1 => exact .refl _
    case h_2 a _ =>
      have gone := House.depart_of_nobody a .expired nobody
      have still : (h.depart n a .expired).nobodyWaits n := by
        rw [gone, House.nobodyWaits, House.selectPlayer_orders]
        exact House.nobodyWaits_departed a .expired nobody
      refine (ih still).trans ?_
      rw [gone, House.selectPlayer_queue, House.departed_queue, if_pos rfl]
      exact List.filter_sublist

/-- An announcement that departs while no order waits is no longer queued. -/
theorem House.depart_settled_gone {h : House} {n : Screen} (a : Ann) (d : Departure) (nobody : h.nobodyWaits n)
    {b : Ann} (m : b ∈ ((h.depart n a d).settleQueue n).queue n) : b.id ≠ a.id := by
  have gone := House.depart_of_nobody a d nobody
  have still : (h.depart n a d).nobodyWaits n := by
    rw [gone, House.nobodyWaits, House.selectPlayer_orders]
    exact House.nobodyWaits_departed a d nobody
  have inside := (House.expireWaits_less Config.queueRoom still).subset m
  rw [gone, House.selectPlayer_queue, House.departed_queue, if_pos rfl] at inside
  exact of_decide_eq_true (List.mem_filter.1 inside).2

/-! ### A player that does not look (R87) -/

/-- In PLAYING and GAP the player does not look at its queue. -/
def Player.busy (p : Player) : Prop := p.state = .playing ∨ p.state = .gap

theorem House.selectPlayer_busy {h : House} {n : Screen} (busy : (h.player n).busy) : h.selectPlayer n = h := by
  unfold House.selectPlayer
  obtain e | e := busy <;> rw [e]

theorem House.selectPlayer_player_busy {h : House} {n : Screen} (busy : (h.player n).busy) (m : Screen) :
    (h.selectPlayer m).player n = h.player n := by
  by_cases same : n = m
  · rw [← same, House.selectPlayer_busy busy]
  · exact House.selectPlayer_player_ne h same

theorem House.placeAnn_player (n m : Screen) (o : Offer) (h : House) : (h.placeAnn n o).player m = h.player m := by
  unfold House.player
  rw [House.placeAnn_players]

theorem House.displaced_player (n m : Screen) (v : Ann) (h : House) : (h.displaced n v).player m = h.player m := by
  unfold House.displaced
  rw [House.takeOut_eq]
  rfl

theorem House.departed_player_free {h : House} {n : Screen} {a : Ann} (free : (h.player n).held ≠ some a.id) (d : Departure) :
    (h.departed n a d).player n = h.player n := by
  unfold House.departed
  rw [House.departureCount_rest, House.departureNotice_rest, House.takeOut_eq]
  exact (House.onPlayer_player n _ _).trans (if_neg free)

section Busy
variable {h : House} {n : Screen} (busy : (h.player n).busy)
include busy

theorem House.offer_player_busy (m : Screen) (o : Offer) : (h.offer m o).1.player n = h.player n := by
  have placed : ((h.placeAnn m o).selectPlayer m).player n = h.player n := by
    have same := House.placeAnn_player m n o h
    rw [House.selectPlayer_player_busy (by rw [same]; exact busy), same]
  have moved (v : Ann) : (((h.displaced m v).placeAnn m o).selectPlayer m).player n = h.player n := by
    have same : ((h.displaced m v).placeAnn m o).player n = h.player n :=
      (House.placeAnn_player m n o _).trans (House.displaced_player m n v h)
    rw [House.selectPlayer_player_busy (by rw [same]; exact busy), same]
  unfold House.offer
  extract_lets sameOrder
  split
  · rfl
  · split
    · exact placed
    · split
      · rfl
      · exact moved _

theorem House.offerCall_player_busy (number : Nat) : (h.offerCall number).1.player n = h.player n := by
  unfold House.offerCall
  split
  · rfl
  · next o cc _ _ =>
    have same := House.offer_player_busy busy o.screen ⟨.orderCall, cc.compose number, .order number⟩
    split
    · next e => rw [e] at same; exact same
    · next e => rw [e] at same; exact same
  · rfl

theorem House.departureReport_player_busy (m : Screen) (fuel : Nat) :
    (h.departureReport m fuel).player n = h.player n := by
  induction fuel generalizing h with
  | zero => rfl
  | succ fuel ih =>
    unfold House.departureReport
    split
    · rfl
    · next o _ =>
      have same := House.offerCall_player_busy busy o.number
      dsimp only
      split
      · exact (ih (by rw [same]; exact busy)).trans same
      · exact same

theorem House.depart_player_busy {a : Ann} (free : (h.player n).held ≠ some a.id) (d : Departure) :
    (h.depart n a d).player n = h.player n := by
  have gone := House.departed_player_free free d
  have still : ((h.departed n a d).player n).busy := by rw [gone]; exact busy
  have told := (House.departureReport_player_busy still n ((h.departed n a d).orders.length + 13)).trans gone
  rw [House.depart_eq, House.selectPlayer_player_busy (by rw [House.reportDeparture, told]; exact busy)]
  exact told

/-- What expires is not held, so that a playing player goes on. -/
theorem House.expireWaits_player_busy (fuel : Nat) : (h.expireWaits n fuel).player n = h.player n := by
  induction fuel generalizing h with
  | zero => rfl
  | succ fuel ih =>
    unfold House.expireWaits
    split
    · rfl
    · next a found =>
      have due := List.find?_some found
      rw [House.waitOver, Bool.and_eq_true] at due
      have same := House.depart_player_busy busy (of_decide_eq_true due.1) .expired
      exact (ih (by rw [same]; exact busy)).trans same

end Busy

end Machine
end Sys2Proof
end


-- ==== Sys2Proof/Proofs/Announcements.lean ====
section
/-! ANNOUNCE (R76, R79 to R81). -/

set_option autoImplicit false

namespace Sys2Proof
namespace Machine

/-! ### The checks of ANNOUNCE (R79) -/

theorem House.announce_badValue {h : House} {screen cls : Nat} {clips : List Nat}
    (wrong : AnnClass.ofCode cls = none ∨ (screen ≠ 0x0F ∧ screenOfCode screen = none) ∨ clips = [] ∨ 6 < clips.length
      ∨ (∃ x ∈ clips, x = 0 ∨ 127 < x)) : h.announce screen cls clips = (h, refuse .badValue []) := by
  unfold House.announce
  split
  case h_1 => rfl
  case h_2 c known =>
    refine if_pos ?_
    obtain unknown | unnamed | empty | long | ⟨x, m, out⟩ := wrong
    · rw [unknown] at known
      cases known
    · exact .inl unnamed
    · exact .inr (.inl (List.length_eq_zero_iff.2 empty))
    · exact .inr (.inr (.inl long))
    · refine .inr (.inr (.inr fun all => ?_))
      have fine := (clipId_iff x).1 (List.all_eq_true.1 all x m)
      omega

/-- The checks of ANNOUNCE that do not look at the house (R79). -/
structure Announceable (screen cls : Nat) (clips : List Nat) (c : AnnClass) : Prop where
  known : AnnClass.ofCode cls = some c
  named : screen = 0x0F ∨ (screenOfCode screen).isSome = true
  some : clips ≠ []
  few : clips.length ≤ 6
  ids : ∀ x ∈ clips, 1 ≤ x ∧ x ≤ 127

theorem Announceable.checks {screen cls : Nat} {clips : List Nat} {c : AnnClass} (fine : Announceable screen cls clips c) :
    ¬ ((screen ≠ allScreensCode ∧ screenOfCode screen = none) ∨ clips.length = 0 ∨ 6 < clips.length
      ∨ ¬ clips.all clipId) := by
  rintro (⟨ne, none⟩ | empty | long | wrong)
  · obtain all | one := fine.named
    · exact ne all
    · rw [none] at one
      cases one
  · exact fine.some (List.length_eq_zero_iff.1 empty)
  · exact absurd fine.few (Nat.not_le.2 long)
  · exact wrong (List.all_eq_true.2 fun x m => (clipId_iff x).2 (fine.ids x m))

theorem House.clipsReady_none {h : House} {clips : List Nat} (ready : ∀ x ∈ clips, (h.clip x).state = .ready) :
    clips.find? (fun x => !h.clipReady x) = none := by
  refine List.find?_eq_none.2 fun x m wrong => ?_
  rw [(h.clipReady_iff x).2 (ready x m)] at wrong
  cases wrong

theorem House.clipsReady_first {h : House} {before after : List Nat} {x : Nat}
    (ready : ∀ y ∈ before, (h.clip y).state = .ready) (wrong : (h.clip x).state ≠ .ready) :
    (before ++ x :: after).find? (fun x => !h.clipReady x) = some x := by
  rw [List.find?_append, House.clipsReady_none ready, Option.none_or, List.find?_cons_of_pos]
  rw [Bool.not_eq_true', ← Bool.not_eq_true, House.clipReady_iff]
  exact wrong

section Checked
variable {h : House} {screen cls : Nat} {clips : List Nat} {c : AnnClass} (fine : Announceable screen cls clips c)
include fine

theorem House.announce_notReady {x : Nat} (first : clips.find? (fun x => !h.clipReady x) = some x) :
    h.announce screen cls clips = (h, refuse .notReady [u8 x]) := by
  unfold House.announce
  rw [fine.known]
  exact (if_neg fine.checks).trans (by rw [first])

variable (ready : ∀ x ∈ clips, (h.clip x).state = .ready)
include ready

theorem House.announce_placed {n : Screen} (one : screenOfCode screen = some n) {h' : House} {id : Nat}
    (offered : h.offerManual n c clips = (h', some id)) : h.announce screen cls clips = (h', ok [u16 id]) := by
  unfold House.announce
  rw [fine.known]
  refine (if_neg fine.checks).trans ?_
  rw [House.clipsReady_none ready, one]
  dsimp only
  rw [offered]

theorem House.announce_full {n : Screen} (one : screenOfCode screen = some n) {h' : House}
    (offered : h.offerManual n c clips = (h', none)) : h.announce screen cls clips = (h', refuse .full []) := by
  unfold House.announce
  rw [fine.known]
  refine (if_neg fine.checks).trans ?_
  rw [House.clipsReady_none ready, one]
  dsimp only
  rw [offered]

theorem House.announce_noRoute (all : screen = 0x0F) (empty : tget h.routes c.index = []) :
    h.announce screen cls clips = (h, refuse .notFound []) := by
  have none : screenOfCode screen = none := all ▸ rfl
  unfold House.announce
  rw [fine.known]
  refine (if_neg fine.checks).trans ?_
  rw [House.clipsReady_none ready, none]
  exact if_pos empty

theorem House.announce_route (all : screen = 0x0F) (route : tget h.routes c.index ≠ []) {h' : House}
    {outcomes : List (Screen × Option Nat)} (copied : h.announceAll c clips (tget h.routes c.index) = (h', outcomes)) :
    h.announce screen cls clips = (h', if outcomes.any (fun o => o.2.isSome)
      then ok (u8 outcomes.length :: outcomes.flatMap outcomeFields)
      else refuse .full (u8 outcomes.length :: outcomes.flatMap outcomeFields)) := by
  have none : screenOfCode screen = none := all ▸ rfl
  unfold House.announce
  rw [fine.known]
  refine (if_neg fine.checks).trans ?_
  rw [House.clipsReady_none ready, none]
  refine (if_neg route).trans ?_
  rw [copied]

end Checked

/-! ### An announcement on one screen (R76, R80, R81) -/

/-- What ANNOUNCE offers. -/
def manualOffer (c : AnnClass) (clips : List Nat) : Offer := { cls := c, clips := clips, origin := .manual }

section OfferManual
variable {h : House} {n : Screen} {c : AnnClass} {clips : List Nat}

theorem House.offerManual_refused (full : 12 ≤ (h.queue n).length)
    (none : h.victim n (h.classRow c).priority = none) : h.offerManual n c clips = (h, Option.none) := by
  unfold House.offerManual
  rw [House.offer_refused (h.noSecondCall_manual n c clips) full none]

variable (nobody : h.nobodyExpires n) (waits : 0 < (h.classRow c).maxWait)
include nobody waits

theorem House.offerManual_room (room : (h.queue n).length < 12) :
    h.offerManual n c clips = ((h.placeAnn n (manualOffer c clips)).selectPlayer n, some h.freeAnnId) := by
  unfold House.offerManual
  rw [House.offer_room (h.noSecondCall_manual n c clips) room]
  exact congrArg (·, some h.freeAnnId)
    (House.settleQueue_of_nobody (House.nobodyExpires_placed (o := manualOffer c clips) nobody waits))

end OfferManual

/-- Orders that have no call of an id are not told that it was displaced (R150). -/
theorem House.displaced_rest {h : House} {v : Ann} (n : Screen) (uncalled : ∀ o ∈ h.orders, o.call ≠ some v.id) :
    h.displaced n v = (h.takeOut n v).notify .announceDropped (annFields n v ++ [u8 2]) := by
  unfold House.displaced House.callDisplaced
  have same : ((h.takeOut n v).notify .announceDropped (annFields n v ++ [u8 2])).orders.map (fun o =>
      if o.call = some v.id then { o with call := none, callWaiting := true } else o) = h.orders := by
    rw [House.notify_orders, House.takeOut_eq]
    exact (List.map_congr_left fun o m => if_neg (uncalled o m)).trans (List.map_id' _)
  rw [same, House.takeOut_eq]
  rfl

theorem House.offerManual_displaces {h : House} {n : Screen} {c : AnnClass} {clips : List Nat} {v : Ann}
    (nobody : h.nobodyExpires n) (waits : 0 < (h.classRow c).maxWait) (full : 12 ≤ (h.queue n).length)
    (victim : h.victim n (h.classRow c).priority = some v)
    (calm : ∀ o ∈ h.orders, o.call ≠ some v.id ∧ (o.screen = n → o.callWaiting = false)) :
    h.offerManual n c clips = (((h.displaced n v).placeAnn n (manualOffer c clips)).selectPlayer n,
      some (h.displaced n v).freeAnnId) := by
  have rest := House.displaced_rest n fun o m => (calm o m).1
  have quiet : (((h.displaced n v).placeAnn n (manualOffer c clips)).selectPlayer n).nobodyWaits n := fun o m => by
    rw [House.selectPlayer_orders, House.placeAnn_orders, rest, House.notify_orders, House.takeOut_eq] at m
    exact (calm o m).2
  have still : (h.displaced n v).nobodyExpires n := fun a m => by
    rw [rest, House.notify_queue, House.takeOut_eq] at m
    have inside : a ∈ tget (tmod h.queues n fun q => q.filter fun b => b.id ≠ v.id) n := m
    rw [tget_tmod_self] at inside
    rw [House.classRow_congr (a := h) (by rw [rest, House.notify_classes, House.takeOut_eq])]
    exact nobody a (List.mem_filter.1 inside).1
  have later : 0 < ((h.displaced n v).classRow c).maxWait := by
    rw [House.classRow_congr (a := h) (by rw [rest, House.notify_classes, House.takeOut_eq])]
    exact waits
  unfold House.offerManual
  rw [House.offer_displaces (h.noSecondCall_manual n c clips) full victim]
  dsimp only
  rw [if_pos rfl]
  refine congrArg (·, some (h.displaced n v).freeAnnId) ?_
  exact (congrArg (House.settleQueue n) (House.reportDeparture_of_nobody quiet)).trans
    (House.settleQueue_of_nobody (House.nobodyExpires_placed (o := manualOffer c clips) still later))

/-! ### Copies on the screens of a route (R79) -/

theorem House.foldl_takeRefs_congr {a b : House} (same : b.clips = a.clips) (clips : List Nat) (l : List Screen) :
    (l.foldl (fun g _ => g.takeRefs clips) b).clips = (l.foldl (fun g _ => g.takeRefs clips) a).clips := by
  induction l generalizing a b with
  | nil => exact same
  | cons n rest ih => exact ih (House.takeRefs_clips_congr same clips)

/-- The screens of a route that have room for a copy. -/
def House.hasPlace (h : House) (n : Screen) : Bool := (h.queue n).length < 12

/-- With room on no screen of the route, nothing happens. -/
theorem House.announceAll_full {h : House} {c : AnnClass} (clips : List Nat) {route : List Screen}
    (full : ∀ n ∈ route, h.hasPlace n = false ∧ h.victim n (h.classRow c).priority = none) :
    h.announceAll c clips route = (h, route.map fun n => (n, none)) := by
  induction route with
  | nil => rfl
  | cons n rest ih =>
    obtain ⟨none, victim⟩ := full n List.mem_cons_self
    have refused := House.offerManual_refused (clips := clips) (Nat.not_lt.1 (of_decide_eq_false none)) victim
    unfold House.announceAll
    rw [refused]
    dsimp only
    rw [ih fun m inside => full m (List.mem_cons_of_mem _ inside)]
    rfl

/-- What ANNOUNCE to ALL does: a copy with an id of its own on each screen of the route that has room. -/
structure House.Copied (c : AnnClass) (clips : List Nat) (route : List Screen) (ids : Screen → Nat) (h h' : House) :
    Prop where
  placed : ∀ n ∈ route, h.hasPlace n = true →
    h'.queue n = insertAnn { h.newAnn (manualOffer c clips) with id := ids n } (h.queue n)
  fresh : ∀ n ∈ route, h.hasPlace n = true → ∀ m, ∀ a ∈ h.queue m, a.id ≠ ids n
  distinct : ∀ n ∈ route, h.hasPlace n = true → ∀ m ∈ route, h.hasPlace m = true → m ≠ n → ids m ≠ ids n
  kept : ∀ n, ¬ (n ∈ route ∧ h.hasPlace n = true) → h'.queue n = h.queue n
  clips : h'.clips = ((route.filter h.hasPlace).foldl (fun g _ => g.takeRefs clips) h).clips
  orders : h'.orders = h.orders

theorem House.announceAll_copied {c : AnnClass} {clips : List Nat} {route : List Screen} (nodup : route.Nodup)
    {h : House} (short : ∀ m, (h.queue m).length ≤ 12) (waits : 0 < (h.classRow c).maxWait)
    (calm : ∀ n ∈ route, h.nobodyExpires n
      ∧ (h.hasPlace n = true ∨ h.victim n (h.classRow c).priority = none)) :
    ∃ ids, House.Copied c clips route ids h (h.announceAll c clips route).1
      ∧ (h.announceAll c clips route).2 = route.map fun n => (n, if h.hasPlace n then some (ids n) else none) := by
  induction route generalizing h with
  | nil =>
    exact ⟨fun _ => 0, ⟨fun _ m => (List.not_mem_nil m).elim, fun _ m => (List.not_mem_nil m).elim,
      fun _ m => (List.not_mem_nil m).elim, fun _ _ => rfl, rfl, rfl⟩, rfl⟩
  | cons n rest ih =>
    obtain ⟨notIn, nodupRest⟩ := List.nodup_cons.1 nodup
    obtain ⟨nobody, place⟩ := calm n List.mem_cons_self
    have apart {m : Screen} (inside : m ∈ rest) : m ≠ n := fun e => notIn (e ▸ inside)
    cases room : h.hasPlace n with
    | false =>
      have victim := place.resolve_left (by rw [room]; exact Bool.false_ne_true)
      have refused := House.offerManual_refused (clips := clips) (Nat.not_lt.1 (of_decide_eq_false room)) victim
      obtain ⟨ids, copied, outcomes⟩ := ih nodupRest short waits fun m inside => calm m (List.mem_cons_of_mem _ inside)
      have proper {m : Screen} (inside : m ∈ n :: rest) (has : h.hasPlace m = true) : m ∈ rest :=
        (List.mem_cons.1 inside).resolve_left fun e => by
          rw [e, room] at has
          cases has
      unfold House.announceAll
      rw [refused]
      refine ⟨ids, ⟨fun m inside has => copied.placed m (proper inside has) has,
        fun m inside has => copied.fresh m (proper inside has) has,
        fun m inside has k inside' has' => copied.distinct m (proper inside has) has k (proper inside' has') has',
        fun m out => copied.kept m fun both => out ⟨List.mem_cons_of_mem _ both.1, both.2⟩, ?_, copied.orders⟩, ?_⟩
      · rw [List.filter_cons_of_neg (by rw [room]; exact Bool.false_ne_true)]
        exact copied.clips
      · rw [List.map_cons, if_neg (by rw [room]; exact Bool.false_ne_true), ← outcomes]
    | true =>
      have less : (h.queue n).length < 12 := of_decide_eq_true room
      have offered := House.offerManual_room (clips := clips) nobody waits less
      generalize new : (h.placeAnn n (manualOffer c clips)).selectPlayer n = h1 at offered
      have queueSelf : h1.queue n = insertAnn (h.newAnn (manualOffer c clips)) (h.queue n) := by
        rw [← new, House.selectPlayer_queue, House.placeAnn_queue]
      have queueNe {m : Screen} (ne : m ≠ n) : h1.queue m = h.queue m := by
        rw [← new, House.selectPlayer_queue, House.placeAnn_queue_ne _ _ ne]
      have player {m : Screen} (ne : m ≠ n) : h1.player m = h.player m := by
        rw [← new, House.selectPlayer_player_ne _ ne, House.placeAnn_player]
      have classes : h1.classes = h.classes := by rw [← new, House.selectPlayer_classes, House.placeAnn_classes]
      have clock : h1.clock = h.clock := by
        rw [← new]
        exact ((House.selectPlayer_sound n _).kept.clock).trans (congrArg House.clock (House.placeAnn_eq n _ h) :)
      have refs : h1.clips = (h.takeRefs clips).clips := by
        rw [← new, House.selectPlayer_clips, House.placeAnn_clips]
        rfl
      have orders : h1.orders = h.orders := by rw [← new, House.selectPlayer_orders, House.placeAnn_orders]
      have row : h1.classRow c = h.classRow c := House.classRow_congr classes c
      have place1 {m : Screen} (ne : m ≠ n) : h1.hasPlace m = h.hasPlace m := by
        unfold House.hasPlace
        rw [queueNe ne]
      have joins {m : Screen} {a : Ann} (inside : a ∈ h.queue m) : a ∈ h1.queue m := by
        by_cases e : m = n
        · rw [e, queueSelf]
          exact mem_insertAnn.2 (.inr (e ▸ inside))
        · rw [queueNe e]
          exact inside
      clear new
      obtain ⟨ids, copied, outcomes⟩ := ih nodupRest (h := h1)
        (fun m => by
          by_cases e : m = n
          · rw [e, queueSelf, insertAnn_length]
            exact less
          · rw [queueNe e]
            exact short m)
        (by rw [row]; exact waits)
        (fun m inside => by
          obtain ⟨nobody', place'⟩ := calm m (List.mem_cons_of_mem _ inside)
          rw [place1 (apart inside), row, House.victim_congr (queueNe (apart inside)) (player (apart inside))]
          exact ⟨House.nobodyExpires_congr (queueNe (apart inside)) classes nobody', place'⟩)
      have newest (m : Screen) (inside : m ∈ rest) (has : h.hasPlace m = true) : ids m ≠ h.freeAnnId := fun e =>
        copied.fresh m inside ((place1 (apart inside)).trans has) n (h.newAnn (manualOffer c clips))
          (by rw [queueSelf]; exact mem_insertAnn.2 (.inl rfl)) e.symm
      unfold House.announceAll
      rw [offered]
      refine ⟨fun m => if m = n then h.freeAnnId else ids m, ⟨fun m inside has => ?placed, fun m inside has k a am => ?fresh,
        fun m inside has k inside' has' ne => ?distinct, fun m out => ?kept, ?clips, copied.orders.trans orders⟩, ?outcomes⟩
      case placed =>
        obtain rfl | inside := List.mem_cons.1 inside
        · dsimp only
          rw [copied.kept m fun both => notIn both.1, queueSelf, if_pos rfl]
          rfl
        · dsimp only
          rw [copied.placed m inside ((place1 (apart inside)).trans has), queueNe (apart inside), if_neg (apart inside)]
          unfold House.newAnn manualOffer
          rw [row, clock]
      case fresh =>
        obtain rfl | inside := List.mem_cons.1 inside
        · rw [if_pos rfl]
          exact House.freeAnnId_fresh short k am
        · rw [if_neg (apart inside)]
          exact copied.fresh m inside ((place1 (apart inside)).trans has) k a (joins am)
      case distinct =>
        obtain rfl | inside := List.mem_cons.1 inside
        · have inRest := (List.mem_cons.1 inside').resolve_left ne
          rw [if_pos rfl, if_neg ne]
          exact newest k inRest has'
        · rw [if_neg (apart inside)]
          split
          case isTrue => exact (newest m inside has).symm
          case isFalse other =>
            have inRest := (List.mem_cons.1 inside').resolve_left other
            exact copied.distinct m inside ((place1 (apart inside)).trans has) k inRest ((place1 other).trans has') ne
      case kept =>
        have ne : m ≠ n := fun e => out ⟨e ▸ List.mem_cons_self, e ▸ room⟩
        rw [← queueNe ne]
        exact copied.kept m fun both => out ⟨List.mem_cons_of_mem _ both.1, (place1 ne).symm.trans both.2⟩
      case clips =>
        have same : rest.filter h1.hasPlace = rest.filter h.hasPlace :=
          List.filter_congr fun m inside => place1 (apart inside)
        rw [copied.clips, same, List.filter_cons_of_pos room]
        exact House.foldl_takeRefs_congr refs clips _
      case outcomes =>
        dsimp only
        rw [outcomes, List.map_cons, if_pos room, if_pos rfl]
        refine congrArg _ (List.map_congr_left fun m inside => ?_)
        rw [place1 (apart inside), if_neg (apart inside)]

/-! ### The house an announcement leaves -/

theorem House.takeOut_queues (n : Screen) (a : Ann) (h : House) :
    (h.takeOut n a).queues = tmod h.queues n fun q => q.filter fun b => b.id ≠ a.id := by
  rw [House.takeOut_eq]

theorem House.takeOut_nextAnn (n : Screen) (a : Ann) (h : House) : (h.takeOut n a).nextAnn = h.nextAnn := by
  rw [House.takeOut_eq]

theorem House.freeAnnId_congr {a b : House} (queues : b.queues = a.queues) (next : b.nextAnn = a.nextAnn) :
    b.freeAnnId = a.freeAnnId := by
  unfold House.freeAnnId House.queuedIds
  rw [queues, next]

theorem House.placed_sound {h : House} {n : Screen} (o : Offer) (room : (h.queue n).length < 12) :
    House.Sound h ((h.placeAnn n o).selectPlayer n) :=
  (House.Sound.place n o h room).trans (House.selectPlayer_sound n _)

theorem House.Sound.sales {h h' : House} (x : House.Sound h h') : h'.salesKept h := x.kept.sales

section Announce
variable {tag screen cls : Nat} {clips : List Nat} {s : State} (a : s.accepting)
include a

theorem announce_accepted {h : House} {fields : List Field}
    (rule : s.taken.house.announce screen cls clips = (h, ok fields)) :
    exec (.announce tag screen cls clips) s = .next (s.replied h 0x3C tag fields) := houseRequest_accepted a rule

theorem announce_refused {st : Status} {detail : List Field}
    (rule : s.taken.house.announce screen cls clips = (s.taken.house, refuse st detail)) :
    exec (.announce tag screen cls clips) s = .next (s.turnedDown 0x3C tag st detail) := houseRequest_refused a rule

end Announce

/-- The copies of an ANNOUNCE to ALL, as its reply lists them. -/
theorem outcomeFields_copied (h : House) (route : List Screen) (ids : Screen → Nat) :
    (route.map fun n => (n, if h.hasPlace n then some (ids n) else none)).flatMap outcomeFields =
      route.flatMap fun n => if h.hasPlace n then [u8 (screenCode n), u8 Status.ok.code, u16 (ids n)]
        else [u8 (screenCode n), u8 Status.full.code, u16 0] := by
  rw [List.flatMap_map]
  refine List.flatMap_congr fun n _ => ?_
  unfold outcomeFields
  cases h.hasPlace n <;> rfl

theorem outcomes_any (h : House) (route : List Screen) (ids : Screen → Nat) :
    ((route.map fun n => (n, if h.hasPlace n then some (ids n) else none)).any fun o => o.2.isSome) =
      route.any h.hasPlace := by
  rw [List.any_map]
  refine congrArg (List.any route) (funext fun n => ?_)
  show (if h.hasPlace n then some (ids n) else none).isSome = h.hasPlace n
  cases h.hasPlace n <;> rfl

/-- Settles O44. -/
theorem announceQueues : Obligations.AnnounceQueues := by
  intro tag screen cls clips s a
  refine ⟨fun wrong => announce_refused a (House.announce_badValue wrong),
    fun c known named some few ids => ?_⟩
  have fine : Announceable screen cls clips c := ⟨known, named, some, few, ids⟩
  refine ⟨fun before x after split readyBefore wrong => ?_, fun ready => ⟨fun all empty => ?_, fun all => ?_, fun n one => ?_⟩⟩
  · exact announce_refused a (House.announce_notReady fine (by rw [split]; exact House.clipsReady_first readyBefore wrong))
  · exact announce_refused a (House.announce_noRoute fine ready all empty)
  · intro route placed some nodup queuesFine waits calm
    obtain ⟨ids, copied, outcomes⟩ := House.announceAll_copied (clips := clips) (h := s.taken.house) nodup queuesFine.1 waits calm
    have sound := House.announceAll_sound c clips route s.taken.house
    have pair : s.taken.house.announceAll c clips route = ((s.taken.house.announceAll c clips route).1,
        route.map fun n => (n, if s.taken.house.hasPlace n then Option.some (ids n) else none)) := Prod.ext rfl outcomes
    have whole := House.announce_route fine ready (h := s.taken.house) all some pair
    rw [outcomes_any, outcomeFields_copied, List.length_map] at whole
    refine ⟨(s.taken.house.announceAll c clips route).1, ids, fun one => ?_, fun none => ?_, fun n inside has =>
      ⟨copied.placed n inside has, copied.fresh n inside has, copied.distinct n inside has⟩, copied.kept, ?_,
      copied.orders, s.taken_sales.trans sound.sales⟩
    · rw [show route.any s.taken.house.hasPlace = true from one, if_pos rfl] at whole
      exact announce_accepted a whole
    · have full (n : Screen) (inside : n ∈ route) : s.taken.house.hasPlace n = false :=
        Bool.eq_false_iff.2 (List.any_eq_false.1 none n inside)
      have same : s.taken.house.announceAll c clips route = (s.taken.house, route.map fun n => (n, Option.none)) :=
        House.announceAll_full clips fun n inside =>
          ⟨full n inside, (calm n inside).2.resolve_left (by rw [show placed n = false from full n inside]; exact Bool.false_ne_true)⟩
      rw [show route.any s.taken.house.hasPlace = false from none, if_neg Bool.false_ne_true,
        show (s.taken.house.announceAll c clips route).1 = s.taken.house from congrArg Prod.fst same] at whole
      exact announce_refused a whole
    · rw [copied.clips]
      exact House.foldl_takeRefs_congr (a := s.house) (b := s.taken.house) rfl clips _
  · refine ⟨fun full none => ?_, fun queuesFine room nobody waits => ?_, fun v full victim nobody waits calm => ?_⟩
    · exact announce_refused a (House.announce_full (h := s.taken.house) fine ready one
        (House.offerManual_refused full none))
    · have offered := House.offerManual_room (h := s.taken.house) (clips := clips) nobody waits room
      obtain ⟨before, after, split, joined, low, high⟩ :=
        insertAnn_split (s.taken.house.newAnn (manualOffer c clips)) (s.house.queue n)
      have queue : ((s.taken.house.placeAnn n (manualOffer c clips)).selectPlayer n).queue n =
          insertAnn (s.taken.house.newAnn (manualOffer c clips)) (s.house.queue n) := by
        rw [House.selectPlayer_queue, House.placeAnn_queue]
        rfl
      refine ⟨_, s.house.freeAnnId, before, after,
        announce_accepted a (House.announce_placed (h := s.taken.house) fine ready one offered), rfl,
        fun m b inside => House.freeAnnId_fresh queuesFine.1 m inside, ?_, split, queue.trans joined, low, high,
        fun sorted => ?_, fun m ne => ?_, ?_, s.taken_sales.trans (House.placed_sound (h := s.taken.house) _ room).sales⟩
      · rw [House.selectPlayer_clips, House.placeAnn_clips]
        exact House.takeRefs_clips_congr (a := s.house) (b := s.taken.house) rfl clips
      · rw [queue]
        exact insertAnn_pairwise sorted
      · rw [House.selectPlayer_queue, House.placeAnn_queue_ne _ _ ne]
        rfl
      · rw [House.selectPlayer_orders, House.placeAnn_orders]
        rfl
    · have offered := House.offerManual_displaces (h := s.taken.house) (clips := clips) nobody waits full victim calm
      have rest := House.displaced_rest (h := s.taken.house) (v := v) n fun o m => (calm o m).1
      obtain ⟨free, less, worst⟩ := House.victim_least victim
      have queue (m : Screen) : (s.taken.house.displaced n v).queue m =
          if m = n then (s.house.queue m).filter fun b => b.id ≠ v.id else s.house.queue m := by
        rw [rest, House.notify_queue, House.takeOut_eq]
        exact tget_tmod _ _ _ _
      have new : (s.taken.house.displaced n v).newAnn (manualOffer c clips) =
          { s.house.newAnn (manualOffer c clips) with id := (s.taken.house.displaced n v).freeAnnId } := by
        unfold House.newAnn manualOffer
        rw [rest, House.takeOut_eq]
        rfl
      have sound : House.Sound s.taken.house
          (((s.taken.house.displaced n v).placeAnn n (manualOffer c clips)).selectPlayer n) :=
        (House.Sound.displace n v _ _ s.taken.house (House.victim_mem _ n _ v victim)).trans (House.selectPlayer_sound n _)
      refine ⟨_, _, announce_accepted a (House.announce_placed (h := s.taken.house) fine ready one offered), House.victim_mem _ n _ v victim,
        free, less, worst, ?_, ?_, ?_, ?_, fun m ne => ?_, ?_, s.taken_sales.trans sound.sales⟩
      · rw [rest]
        refine House.freeAnnId_congr ?_ ?_
        · rw [House.notify_queues, House.takeOut_queues, House.takeOut_queues]
          rfl
        · rw [House.notify_nextAnn, House.takeOut_nextAnn, House.takeOut_nextAnn]
          rfl
      · rw [House.selectPlayer_queue, House.placeAnn_queue, new, queue, if_pos rfl]
        rfl
      · rw [House.selectPlayer_clips, House.placeAnn_clips]
        refine House.takeRefs_clips_congr ?_ clips
        rw [rest]
        exact House.dropRefs_clips_congr (a := s.house) (b := s.taken.house.onQueue n fun q => q.filter fun b => b.id ≠ v.id) rfl
          v.clips
      · rw [House.selectPlayer_out, House.placeAnn_out, rest, House.notify_out, House.takeOut_eq]
        rfl
      · rw [House.selectPlayer_queue, House.placeAnn_queue_ne _ _ ne, queue, if_neg ne]
      · rw [House.selectPlayer_orders, House.placeAnn_orders, rest, House.notify_orders, House.takeOut_eq]
        rfl

end Machine
end Sys2Proof
end


-- ==== Sys2Proof/Proofs/OrderCalls.lean ====
section
/-! Calls of orders (R149, R150, R152), and how an announcement leaves its queue (R82 to R85, R89). -/

set_option autoImplicit false

namespace Sys2Proof
namespace Machine

/-! ### Orders by number -/

theorem House.order?_map {a b : House} {f : Order → Order} (orders : b.orders = a.orders.map f)
    (same : ∀ o, (f o).number = o.number) (k : Nat) : b.order? k = (a.order? k).map f := by
  unfold House.order?
  rw [orders, List.find?_map]
  congr 2
  funext o
  exact congrArg (fun i => decide (i = k)) (same o)

theorem House.order?_congr {a b : House} (orders : b.orders = a.orders) (k : Nat) : b.order? k = a.order? k := by
  unfold House.order?
  rw [orders]

theorem House.order?_onOrder (k : Nat) {f : Order → Order} (same : ∀ o, (f o).number = o.number) (h : House) :
    (h.onOrder k f).order? k = (h.order? k).map f := by
  have changed := House.order?_map (a := h) (b := h.onOrder k f) rfl (fun o => by
    split
    · exact same o
    · rfl) k
  rw [changed]
  cases found : h.order? k with
  | none => rfl
  | some o => exact congrArg some (if_pos (House.order?_some found).2)

/-! ### A call is offered (R149) -/

/-- What a call offers. -/
def callOffer (cc : CallClips) (number : Nat) : Offer :=
  { cls := .orderCall, clips := cc.compose number, origin := .order number }

/-- The house after the call of an order has been placed in a queue with room. -/
def House.calledWith (cc : CallClips) (o : Order) (h : House) : House :=
  ((h.placeAnn o.screen (callOffer cc o.number)).selectPlayer o.screen).onOrder o.number fun p =>
    { p with call := some h.freeAnnId, callWaiting := false }

section OfferCall
variable {h : House} {o : Order} (found : h.order? o.number = some o)
include found

theorem House.offerCall_unconfigured (none : h.callClips = Option.none) : h.offerCall o.number =
    (h.onOrder o.number fun p => { p with notCalled := true, callWaiting := false }, false) := by
  unfold House.offerCall
  rw [found, none]

variable {cc : CallClips} (configured : h.callClips = some cc)
include configured

theorem House.offerCall_room (single : ∀ b ∈ h.queue o.screen, b.origin ≠ .order o.number)
    (room : (h.queue o.screen).length < 12) : h.offerCall o.number = (h.calledWith cc o, false) := by
  have first : h.noSecondCall o.screen (callOffer cc o.number) := fun k e b m same => by
    obtain rfl : o.number = k := Origin.order.inj e
    exact single b m same
  have offered : h.offer o.screen ⟨.orderCall, cc.compose o.number, .order o.number⟩ = _ := House.offer_room first room
  unfold House.offerCall
  rw [found, configured]
  dsimp only
  rw [offered]
  rfl

theorem House.offerCall_refused (refused : (∃ b ∈ h.queue o.screen, b.origin = .order o.number)
      ∨ 12 ≤ (h.queue o.screen).length ∧ h.victim o.screen (h.classRow .orderCall).priority = none) :
    h.offerCall o.number = (h.onOrder o.number fun p => { p with callWaiting := true }, false) := by
  have turned : h.offer o.screen ⟨.orderCall, cc.compose o.number, .order o.number⟩ = (h, .refused) := by
    by_cases second : ∃ b ∈ h.queue o.screen, b.origin = .order o.number
    · refine if_pos (List.any_eq_true.2 ?_)
      obtain ⟨b, m, e⟩ := second
      exact ⟨b, m, decide_eq_true e⟩
    · obtain ⟨full, none⟩ := refused.resolve_left second
      refine House.offer_refused (fun k e b m same => ?_) full none
      obtain rfl : o.number = k := Origin.order.inj e
      exact second ⟨b, m, same⟩
  unfold House.offerCall
  rw [found, configured]
  dsimp only
  rw [turned]

end OfferCall

theorem House.calledWith_queue (cc : CallClips) (o : Order) (h : House) : (h.calledWith cc o).queue o.screen =
    insertAnn (h.newAnn (callOffer cc o.number)) (h.queue o.screen) :=
  (House.selectPlayer_queue ..).trans (House.placeAnn_queue ..)

theorem House.calledWith_queue_ne (cc : CallClips) {o : Order} {m : Screen} (ne : m ≠ o.screen) (h : House) :
    (h.calledWith cc o).queue m = h.queue m :=
  (House.selectPlayer_queue ..).trans (House.placeAnn_queue_ne _ _ ne)

theorem House.calledWith_orders (cc : CallClips) (o : Order) (h : House) : (h.calledWith cc o).orders =
    h.orders.map fun p => if p.number = o.number then { p with call := some h.freeAnnId, callWaiting := false } else p := by
  unfold House.calledWith
  rw [House.onOrder_orders, House.selectPlayer_orders, House.placeAnn_orders]

theorem House.calledWith_order? (cc : CallClips) {o : Order} {h : House} (found : h.order? o.number = some o) :
    (h.calledWith cc o).order? o.number = some { o with call := some h.freeAnnId, callWaiting := false } := by
  have before : ((h.placeAnn o.screen (callOffer cc o.number)).selectPlayer o.screen).order? o.number = some o := by
    rw [← found]
    exact House.order?_congr ((House.selectPlayer_orders ..).trans (House.placeAnn_orders ..)) o.number
  unfold House.calledWith
  rw [House.order?_onOrder _ (fun _ => by rfl), before]
  rfl

theorem House.calledWith_nobody (cc : CallClips) {o : Order} {h : House} (nobody : h.nobodyExpires o.screen)
    (waits : 0 < (h.classRow .orderCall).maxWait) : (h.calledWith cc o).nobodyExpires o.screen :=
  House.nobodyExpires_placed (o := callOffer cc o.number) nobody waits

theorem House.calledWith_sound (cc : CallClips) {o : Order} {h : House} (room : (h.queue o.screen).length < 12) :
    House.Sound h (h.calledWith cc o) :=
  (House.placed_sound _ room).trans (House.onOrder_sound _ _ _)

section CallOrder
variable {h : House} {o : Order} (found : h.order? o.number = some o) (nobody : h.nobodyExpires o.screen)
include found nobody

theorem House.callOrder_unconfigured (none : h.callClips = Option.none) : h.callOrder o.number =
    h.onOrder o.number fun p => { p with notCalled := true, callWaiting := false } := by
  unfold House.callOrder
  rw [found]
  dsimp only
  rw [House.offerCall_unconfigured found none]
  exact House.settleQueue_of_nobody (House.nobodyExpires_congr rfl rfl nobody)

variable {cc : CallClips} (configured : h.callClips = some cc)
include configured

theorem House.callOrder_room (single : ∀ b ∈ h.queue o.screen, b.origin ≠ .order o.number)
    (room : (h.queue o.screen).length < 12) (waits : 0 < (h.classRow .orderCall).maxWait) :
    h.callOrder o.number = h.calledWith cc o := by
  unfold House.callOrder
  rw [found]
  dsimp only
  rw [House.offerCall_room found configured single room]
  exact House.settleQueue_of_nobody (House.calledWith_nobody cc nobody waits)

theorem House.callOrder_refused (refused : (∃ b ∈ h.queue o.screen, b.origin = .order o.number)
      ∨ 12 ≤ (h.queue o.screen).length ∧ h.victim o.screen (h.classRow .orderCall).priority = none) :
    h.callOrder o.number = h.onOrder o.number fun p => { p with callWaiting := true } := by
  unfold House.callOrder
  rw [found]
  dsimp only
  rw [House.offerCall_refused found configured refused]
  exact House.settleQueue_of_nobody (House.nobodyExpires_congr rfl rfl nobody)

end CallOrder

/-! ### The call that a departure brings (R152) -/

theorem earlierReady_map {f : Order → Order} (ready : ∀ o, (f o).ready = o.ready) (best : Option Order) (o : Order) :
    earlierReady (best.map f) (f o) = (earlierReady best o).map f := by
  cases best with
  | none => rfl
  | some b =>
    show (if ((f o).ready.getD _).total < ((f b).ready.getD _).total then _ else _) = Option.map f (if _ then _ else _)
    rw [ready, ready]
    split <;> rfl

theorem foldl_earlierReady_map {f : Order → Order} (ready : ∀ o, (f o).ready = o.ready) (l : List Order)
    (best : Option Order) :
    (l.map f).foldl earlierReady (best.map f) = (l.foldl earlierReady best).map f := by
  induction l generalizing best with
  | nil => rfl
  | cons o rest ih => rw [List.map_cons, List.foldl_cons, earlierReady_map ready, ih, List.foldl_cons]

/-- Changes of orders that leave screen, ready time and waiting alone leave the next call alone. -/
theorem House.oldestWaiting_map {a b : House} {f : Order → Order} (orders : b.orders = a.orders.map f)
    (same : ∀ o, (f o).screen = o.screen ∧ (f o).callWaiting = o.callWaiting ∧ (f o).ready = o.ready) (n : Screen) :
    b.oldestWaiting n = (a.oldestWaiting n).map f := by
  unfold House.oldestWaiting
  rw [orders, List.filter_map, ← foldl_earlierReady_map fun o => (same o).2.2]
  have kept : ((fun o : Order => decide (o.screen = n ∧ o.callWaiting)) ∘ f) =
      fun o => decide (o.screen = n ∧ o.callWaiting) := by
    funext o
    obtain ⟨screen, waiting, _⟩ := same o
    show decide ((f o).screen = n ∧ (f o).callWaiting = true) = _
    rw [screen, waiting]
  rw [kept]
  rfl

theorem foldl_earlierReady_mem {l : List Order} {best : Option Order} {o : Order}
    (e : l.foldl earlierReady best = some o) : o ∈ l ∨ best = some o := by
  induction l generalizing best with
  | nil => exact .inr e
  | cons p rest ih =>
    obtain m | e := ih e
    · exact .inl (List.mem_cons_of_mem _ m)
    · cases best with
      | none => exact .inl (by rw [Option.some.inj e]; exact List.mem_cons_self)
      | some b =>
        unfold earlierReady at e
        dsimp only at e
        split at e
        · exact .inl (by rw [Option.some.inj e]; exact List.mem_cons_self)
        · exact .inr e

theorem House.oldestWaiting_mem {h : House} {n : Screen} {o : Order} (e : h.oldestWaiting n = some o) :
    o ∈ h.orders ∧ o.screen = n ∧ o.callWaiting = true := by
  have m := (foldl_earlierReady_mem e).resolve_right fun none => nomatch none
  obtain ⟨inside, waits⟩ := List.mem_filter.1 m
  exact ⟨inside, of_decide_eq_true waits⟩

/-- The order that has waited longest is called, where its call has room (R152). -/
theorem House.reportDeparture_calls {h : House} {n : Screen} {o : Order} {cc : CallClips}
    (oldest : h.oldestWaiting n = some o) (found : h.order? o.number = some o) (configured : h.callClips = some cc)
    (single : ∀ b ∈ h.queue n, b.origin ≠ .order o.number) (room : (h.queue n).length < 12) :
    h.reportDeparture n = h.calledWith cc o := by
  obtain rfl : o.screen = n := (House.oldestWaiting_mem oldest).2.1
  unfold House.reportDeparture House.departureReport
  rw [oldest]
  dsimp only
  rw [House.offerCall_room found configured single room]
  refine if_neg fun wrong => ?_
  obtain wrong | wrong := wrong
  · exact Bool.false_ne_true wrong
  · rw [configured] at wrong
    cases wrong

/-! ### ANNOUNCE CANCEL and the end of the wait (R82, R84) -/

theorem House.findAnn_some {h : House} {id : Nat} {n : Screen} {a : Ann} (e : h.findAnn id = some (n, a)) :
    a ∈ h.queue n ∧ a.id = id := by
  unfold House.findAnn at e
  obtain ⟨m, _, found⟩ := List.exists_of_findSome?_eq_some e
  obtain ⟨b, at_m, pair⟩ := Option.map_eq_some_iff.1 found
  cases pair
  exact ⟨List.mem_of_find?_eq_some at_m, of_decide_eq_true (List.find?_some at_m :)⟩

theorem houseEvent_of {f : House → House} {s : State} {h : House} (e : f s.house = h) :
    houseEvent f s = .next (s.withHouse h) := congrArg (fun h => Host.Outcome.next (s.withHouse h)) e

theorem announceCancel_found {tag : Nat} {s : State} {n : Screen} {a : Ann} (acc : s.accepting)
    (found : s.house.findAnn a.id = some (n, a)) (kept : a.removed = false) :
    exec (.announceCancel tag a.id) s = .next (s.replied (s.taken.house.removeAnn n a true) 0x3D tag
      [uBool (s.taken.house.removedAtOnce n a)]) := by
  refine houseRequest_accepted acc ?_
  rw [show s.taken.house.findAnn a.id = some (n, a) from found]
  exact if_neg (by rw [kept]; exact Bool.false_ne_true)

theorem House.removeAnn_marks {h : House} {n : Screen} {a : Ann} (playing : (h.player n).state = .playing)
    (held : (h.player n).held = some a.id) (byCancel : Bool) :
    h.removeAnn n a byCancel = h.onAnn n a.id fun b => { b with removed := true } :=
  if_pos ⟨playing, held⟩

theorem House.removeAnn_departs {h : House} {n : Screen} {a : Ann}
    (free : (h.player n).state ≠ .playing ∨ (h.player n).held ≠ some a.id) (byCancel : Bool) :
    h.removeAnn n a byCancel = (h.depart n a (.removed byCancel)).settleQueue n :=
  if_neg fun both => free.elim (· both.1) (· both.2)

theorem House.removedAtOnce_marks {h : House} {n : Screen} {a : Ann} (playing : (h.player n).state = .playing)
    (held : (h.player n).held = some a.id) : h.removedAtOnce n a = false :=
  congrArg not (decide_eq_true ⟨playing, held⟩)

theorem House.removedAtOnce_departs {h : House} {n : Screen} {a : Ann}
    (free : (h.player n).state ≠ .playing ∨ (h.player n).held ≠ some a.id) : h.removedAtOnce n a = true :=
  congrArg not (decide_eq_false fun both => free.elim (· both.1) (· both.2))

theorem announcementExpiry_found {s : State} {n : Screen} {a : Ann} (found : s.house.findAnn a.id = some (n, a))
    (free : (s.house.player n).held ≠ some a.id) : exec (.announcementExpiry a.id) s =
      .next (s.withHouse ((s.house.depart n a .expired).settleQueue n)) := by
  refine houseEvent_of ?_
  rw [found]
  exact if_neg free

theorem House.departs_sound (n : Screen) (a : Ann) (d : Departure) (h : House) :
    House.Sound h ((h.depart n a d).settleQueue n) :=
  (House.depart_sound n a d h).trans (House.settleQueue_sound n _)

/-- With the departure the order that has waited longest is called (R152). -/
theorem House.expired_calls {h : House} {n : Screen} {a : Ann} {o : Order} {cc : CallClips} (inside : a ∈ h.queue n)
    (patient : ∀ b ∈ h.queue n, b.id ≠ a.id → b.wait < (h.classRow b.cls).maxWait * 1000)
    (short : (h.queue n).length ≤ 12) (waits : 0 < (h.classRow .orderCall).maxWait)
    (oldest : h.oldestWaiting n = some o) (found : h.order? o.number = some o) (uncalled : o.call = none)
    (configured : h.callClips = some cc) (single : ∀ b ∈ h.queue n, b.origin ≠ .order o.number) :
    ∃ h1 : House, h1.order? o.number = some o ∧ h1.queue n = (h.queue n).filter (fun b => b.id ≠ a.id)
      ∧ (h.depart n a .expired).settleQueue n = (h1.calledWith cc o).selectPlayer n := by
  obtain rfl : o.screen = n := (House.oldestWaiting_mem oldest).2.1
  have orders := House.departed_orders o.screen a .expired h
  rw [if_neg (by decide)] at orders
  have queue : (h.departed o.screen a .expired).queue o.screen = (h.queue o.screen).filter fun b => b.id ≠ a.id := by
    rw [House.departed_queue, if_pos rfl]
  have same : o.counted a.id h.orderPolicy.interval = o := by
    unfold Order.counted
    rw [uncalled]
    exact if_neg fun e => nomatch e
  have still : (h.departed o.screen a .expired).order? o.number = some o := by
    rw [House.order?_map orders fun p => (p.counted_waits _ _).2.2.2, found]
    exact congrArg some same
  have oldest' : (h.departed o.screen a .expired).oldestWaiting o.screen = some o := by
    rw [House.oldestWaiting_map orders (fun p => by
      obtain ⟨screen, waiting, ready, _⟩ := p.counted_waits a.id h.orderPolicy.interval
      exact ⟨screen, waiting, ready⟩), oldest]
    exact congrArg some same
  have classes : (h.departed o.screen a .expired).classes = h.classes := by rw [House.departed_rest]
  have nobody : (h.departed o.screen a .expired).nobodyExpires o.screen := fun b m => by
    rw [queue] at m
    obtain ⟨inside, other⟩ := List.mem_filter.1 m
    rw [House.classRow_congr classes]
    exact patient b inside (of_decide_eq_true other)
  have waits' : 0 < ((h.departed o.screen a .expired).classRow .orderCall).maxWait := by
    rw [House.classRow_congr classes]
    exact waits
  have room : ((h.departed o.screen a .expired).queue o.screen).length < 12 := by
    rw [queue]
    refine Nat.lt_of_lt_of_le (List.length_filter_lt_length_iff_exists.2 ⟨a, inside, ?_⟩) short
    rw [decide_eq_true_eq]
    exact fun ne => ne rfl
  have single' : ∀ b ∈ (h.departed o.screen a .expired).queue o.screen, b.origin ≠ .order o.number := fun b m => by
    rw [queue] at m
    exact single b (List.mem_filter.1 m).1
  have configured' : (h.departed o.screen a .expired).callClips = some cc := by
    rw [House.departed_rest]
    exact configured
  refine ⟨h.departed o.screen a .expired, still, queue, ?_⟩
  rw [House.depart_eq, House.reportDeparture_calls oldest' still configured' single' room]
  refine House.settleQueue_of_nobody (House.nobodyExpires_congr ?_ ?_ (House.calledWith_nobody cc nobody waits'))
  · exact House.selectPlayer_queue ..
  · exact House.selectPlayer_classes ..

/-! ### The end of a gap (R89) -/

theorem House.decideNext_goesOn {h : House} {n : Screen} {a : Ann} (held : h.heldAnn n = some a)
    (goesOn : h.suspends n a = false) : h.decideNext n = h := by
  have holds : ∃ id, (h.player n).held = some id := by
    unfold House.heldAnn at held
    split at held
    · next id e => exact ⟨id, e⟩
    · cases held
  obtain ⟨id, e⟩ := holds
  unfold House.decideNext
  rw [held]
  dsimp only
  rw [if_neg (by rw [goesOn]; exact Bool.false_ne_true), e]

theorem House.heldAnn_id {h : House} {n : Screen} {a : Ann} (held : h.heldAnn n = some a) :
    (h.player n).held = some a.id := by
  unfold House.heldAnn at held
  split at held
  · next id e =>
    have same := of_decide_eq_true (List.find?_some held :)
    rw [e, same]
  · cases held

theorem House.beginAnn_player (n m : Screen) (a : Ann) (h : House) : (h.beginAnn n a).player m = h.player m := by
  unfold House.beginAnn House.callStarted House.orderStateNotice
  repeat' split
  all_goals rfl

theorem House.startClip_player (n : Screen) (h : House) :
    (h.startClip n).player n = { h.player n with state := .playing, sample := 0, gapLeft := 0 } := by
  unfold House.startClip
  dsimp only
  split
  · split
    · rw [House.beginAnn_player, House.onPlayer_player]
    · exact House.onPlayer_player ..
  · exact House.onPlayer_player ..

theorem House.endGap_starts {h : House} {n : Screen} {a : Ann} (gap : (h.player n).state = .gap)
    (held : h.heldAnn n = some a) (goesOn : h.suspends n a = false) :
    (h.endGap n).player n = { state := .playing, held := some a.id, sample := 0, gapLeft := 0 } := by
  unfold House.endGap
  rw [House.decideNext_goesOn held goesOn]
  dsimp only
  rw [if_neg (by rw [gap]; decide)]
  have started := House.startClip_player n h
  refine (House.expireWaits_player_busy (.inl (by rw [started])) Config.queueRoom).trans (started.trans ?_)
  dsimp only
  rw [House.heldAnn_id held]

/-- Settles O45. -/
theorem announcementsEnd : Obligations.AnnouncementsEnd := by
  intro s n a
  refine ⟨fun found kept => ⟨fun tag acc playing held => ?_, fun calm => ⟨fun tag acc free => ?_, fun free => ?_⟩⟩,
    fun o cc found free patient short waits oldest order uncalled configured single => ?_,
    fun found removed tag acc => ?_, fun tag id acc missing => ?_, fun gap held goesOn => ?_, fun other => ?_⟩
  · rw [announceCancel_found acc found kept, House.removeAnn_marks (h := s.taken.house) playing held,
      House.removedAtOnce_marks (h := s.taken.house) playing held]
    rfl
  · have away : (s.taken.house.player n).state ≠ .playing ∨ (s.taken.house.player n).held ≠ some a.id := free
    have calm' : s.taken.house.nobodyWaits n := calm
    refine ⟨_, ?_, fun b m => House.depart_settled_gone a (.removed true) calm' m, s.taken_sales.trans (House.departs_sound ..).sales⟩
    · rw [announceCancel_found acc found kept, House.removeAnn_departs away, House.removedAtOnce_departs away]
      rfl
  · exact ⟨_, announcementExpiry_found found free, fun b m => House.depart_settled_gone a .expired calm m,
      (House.departs_sound ..).sales⟩
  · obtain ⟨h1, still, queue, done⟩ := House.expired_calls (House.findAnn_some found).1 patient short waits oldest order
      uncalled configured single
    obtain rfl : o.screen = n := (House.oldestWaiting_mem oldest).2.1
    refine ⟨_, h1.freeAnnId, announcementExpiry_found found free,
      ⟨h1.newAnn (callOffer cc o.number), ?_, rfl, rfl, rfl, rfl⟩, ?_, (House.departs_sound ..).sales⟩
    · rw [done, House.selectPlayer_queue, House.calledWith_queue]
      exact mem_insertAnn.2 (.inl rfl)
    · rw [done, ← House.calledWith_order? cc still]
      exact House.order?_congr (House.selectPlayer_orders ..) _
  · refine houseRequest_refused acc ?_
    rw [show s.taken.house.findAnn a.id = some (n, a) from found]
    exact if_pos removed
  · refine houseRequest_refused acc ?_
    rw [show s.taken.house.findAnn id = none from missing]
  · exact ⟨_, houseEvent_of (if_pos gap), House.endGap_starts gap held goesOn,
      (House.endGap_sound n s.house).sales⟩
  · exact houseEvent_of (if_neg other)

end Machine
end Sys2Proof
end


-- ==== Sys2Proof/Proofs/OrderEnds.lean ====
section
/-! What calls leave of an order (R150), what cook slots leave alone (R165), and how an order ends (R154 to R157). -/

set_option autoImplicit false

namespace Sys2Proof
namespace Machine

/-! ### What calls change -/

/-- Announcements and calls change nothing of an order but its call and what counts its calls, and never say of an order
not called that it was. -/
structure Order.CallOnly (o p : Order) : Prop where
  rest : p = { o with call := p.call, callWaiting := p.callWaiting, notCalled := p.notCalled, made := p.made,
                      remaining := p.remaining, due := p.due }
  stays : o.notCalled = true → p.notCalled = true

theorem Order.CallOnly.refl (o : Order) : Order.CallOnly o o := ⟨rfl, id⟩

theorem Order.CallOnly.trans {o p q : Order} (first : Order.CallOnly o p) (second : Order.CallOnly p q) :
    Order.CallOnly o q := ⟨second.rest.trans (by rw [first.rest]), second.stays ∘ first.stays⟩

theorem Order.CallOnly.number {o p : Order} (x : Order.CallOnly o p) : p.number = o.number := by rw [x.rest]

/-- Announcements and calls leave the stations alone, and change orders so. -/
structure House.CallsOnly (h h' : House) : Prop where
  stations : h'.stations = h.stations
  orders : ∃ f, h'.orders = h.orders.map f ∧ ∀ o, Order.CallOnly o (f o)

namespace House.CallsOnly

theorem of_eq {h h' : House} (stations : h'.stations = h.stations) (orders : h'.orders = h.orders) :
    House.CallsOnly h h' :=
  ⟨stations, id, by rw [orders, List.map_id], .refl⟩

theorem refl (h : House) : House.CallsOnly h h := .of_eq rfl rfl

theorem trans {a b c : House} (first : House.CallsOnly a b) (second : House.CallsOnly b c) : House.CallsOnly a c := by
  obtain ⟨s1, f, o1, x1⟩ := first
  obtain ⟨s2, g, o2, x2⟩ := second
  exact ⟨s2.trans s1, g ∘ f, by rw [o2, o1, List.map_map], fun o => (x1 o).trans (x2 (f o))⟩

theorem order? {h h' : House} (x : House.CallsOnly h h') {k : Nat} {o : Order} (found : h.order? k = some o) :
    ∃ p, h'.order? k = some p ∧ Order.CallOnly o p := by
  obtain ⟨-, f, orders, same⟩ := x
  refine ⟨f o, ?_, same o⟩
  rw [House.order?_map orders fun o => (same o).number, found]
  rfl

theorem onOrder (k : Nat) (f : Order → Order) (h : House)
    (same : ∀ o, Order.CallOnly o (f o) := by exact fun _ => ⟨rfl, id⟩) : House.CallsOnly h (h.onOrder k f) :=
  ⟨rfl, _, rfl, fun o => by
    split
    · exact same o
    · exact .refl o⟩

theorem selectPlayer (n : Screen) (h : House) : House.CallsOnly h (h.selectPlayer n) :=
  .of_eq (House.selectPlayer_stations ..) (House.selectPlayer_orders ..)

theorem placeAnn (n : Screen) (o : Offer) (h : House) : House.CallsOnly h (h.placeAnn n o) :=
  .of_eq (House.placeAnn_stations ..) (House.placeAnn_orders ..)

theorem displaced (n : Screen) (v : Ann) (h : House) : House.CallsOnly h (h.displaced n v) := by
  refine ⟨?_, fun o => if o.call = some v.id then { o with call := none, callWaiting := true } else o, ?_, fun o => ?_⟩
  · unfold House.displaced
    rw [House.takeOut_eq]
    rfl
  · unfold House.displaced
    rw [House.takeOut_eq]
    rfl
  · dsimp only
    split
    · exact ⟨rfl, id⟩
    · exact .refl o

theorem offer (n : Screen) (o : Offer) (h : House) : House.CallsOnly h (h.offer n o).1 := by
  unfold House.offer
  extract_lets sameOrder
  split
  · exact .refl h
  · split
    · exact (CallsOnly.placeAnn n o h).trans (.selectPlayer n _)
    · split
      · exact .refl h
      · exact ((CallsOnly.displaced n _ h).trans (.placeAnn n o _)).trans (.selectPlayer n _)

theorem offerCall (k : Nat) (h : House) : House.CallsOnly h (h.offerCall k).1 := by
  unfold House.offerCall
  split
  · exact .onOrder k _ h fun _ => ⟨rfl, fun _ => rfl⟩
  · next o cc _ _ =>
    have offered := CallsOnly.offer o.screen ⟨.orderCall, cc.compose k, .order k⟩ h
    split
    · next e => rw [e] at offered; exact offered.trans (.onOrder k _ _)
    · next e => rw [e] at offered; exact offered.trans (.onOrder k _ _)
  · exact .refl h

theorem departureReport (n : Screen) (fuel : Nat) (h : House) : House.CallsOnly h (h.departureReport n fuel) := by
  induction fuel generalizing h with
  | zero => exact .refl h
  | succ fuel ih =>
    unfold House.departureReport
    split
    · exact .refl h
    · dsimp only
      split
      · exact (CallsOnly.offerCall _ h).trans (ih _)
      · exact .offerCall _ h

theorem departed (n : Screen) (a : Ann) (d : Departure) (h : House) : House.CallsOnly h (h.departed n a d) := by
  have stations : (h.departed n a d).stations = h.stations := by rw [House.departed_rest]
  have orders := House.departed_orders n a d h
  split at orders
  · exact .of_eq stations orders
  · refine ⟨stations, _, orders, fun o => ?_⟩
    unfold Order.counted
    split
    · exact ⟨rfl, id⟩
    · exact .refl o

theorem depart (n : Screen) (a : Ann) (d : Departure) (h : House) : House.CallsOnly h (h.depart n a d) :=
  ((CallsOnly.departed n a d h).trans (.departureReport n _ _)).trans (.selectPlayer n _)

theorem expireWaits (n : Screen) (fuel : Nat) (h : House) : House.CallsOnly h (h.expireWaits n fuel) := by
  induction fuel generalizing h with
  | zero => exact .refl h
  | succ fuel ih =>
    unfold House.expireWaits
    split
    · exact .refl h
    · exact (CallsOnly.depart n _ .expired h).trans (ih _)

theorem settleQueue (n : Screen) (h : House) : House.CallsOnly h (h.settleQueue n) := .expireWaits n _ h

theorem callOrder (k : Nat) (h : House) : House.CallsOnly h (h.callOrder k) := by
  unfold House.callOrder
  split
  · exact .refl h
  · dsimp only
    refine (CallsOnly.offerCall k h).trans (.trans ?_ (.settleQueue ..))
    split
    · exact .departureReport ..
    · exact .refl _

theorem removeAnn (n : Screen) (a : Ann) (byCancel : Bool) (h : House) :
    House.CallsOnly h (h.removeAnn n a byCancel) := by
  unfold House.removeAnn
  split
  · exact .of_eq rfl rfl
  · exact (CallsOnly.depart ..).trans (.settleQueue ..)

theorem removeCalls (k : Nat) (h : House) : House.CallsOnly h (h.removeCalls k) := by
  unfold House.removeCalls
  generalize allScreens = screens
  induction screens generalizing h with
  | nil => exact .refl h
  | cons n rest ih =>
    refine CallsOnly.trans ?_ (ih _)
    dsimp only
    split
    · exact .removeAnn ..
    · exact .refl h

end House.CallsOnly

/-! ### What cook slots leave alone (R165) -/

theorem House.orderStateNotice_rest (k : Nat) (h : House) :
    h.orderStateNotice k = { h with out := (h.orderStateNotice k).out } := by
  unfold House.orderStateNotice
  split <;> rfl

theorem House.orderCooking_rest (k : Nat) (h : House) :
    h.orderCooking k = { h with out := (h.orderCooking k).out, orders := (h.orderCooking k).orders } := by
  unfold House.orderCooking
  split
  · split
    · rw [House.orderStateNotice_rest]
      rfl
    · rfl
  · rfl

/-- Starting tickets touches tickets, orders and notices only. -/
theorem House.startTickets_rest (st : StationId) (fuel : Nat) (h : House) : h.startTickets st fuel = { h with
    out := (h.startTickets st fuel).out, orders := (h.startTickets st fuel).orders,
    stations := (h.startTickets st fuel).stations, nextCook := (h.startTickets st fuel).nextCook } := by
  induction fuel generalizing h with
  | zero => rfl
  | succ fuel ih =>
    unfold House.startTickets
    split
    · next t _ =>
      split
      · rw [ih]
        unfold House.startTicket
        rw [House.orderCooking_rest]
        rfl
      · rfl
    · rfl

theorem House.fillSlots_rest (h : House) (st : StationId) : h.fillSlots st = { h with
    out := (h.fillSlots st).out, orders := (h.fillSlots st).orders,
    stations := (h.fillSlots st).stations, nextCook := (h.fillSlots st).nextCook } :=
  House.startTickets_rest ..

theorem House.foldl_fillSlots_rest (sts : List StationId) (h : House) : sts.foldl House.fillSlots h = { h with
    out := (sts.foldl House.fillSlots h).out, orders := (sts.foldl House.fillSlots h).orders,
    stations := (sts.foldl House.fillSlots h).stations, nextCook := (sts.foldl House.fillSlots h).nextCook } := by
  induction sts generalizing h with
  | nil => rfl
  | cons st rest ih => rw [List.foldl_cons, ih, House.fillSlots_rest]

/-- An order that is no longer QUEUED is not touched by a ticket that starts (R148). -/
theorem House.orderCooking_order? {h : House} {k : Nat} {o : Order} (found : h.order? k = some o)
    (past : o.state ≠ .queued) (j : Nat) : (h.orderCooking j).order? k = some o := by
  unfold House.orderCooking
  split
  · next p at_j =>
    split
    · next queued =>
      rw [House.order?_congr (House.orderStateNotice_orders ..)]
      have changed := House.order?_map (a := h) (b := h.onOrder j fun o => { o with state := .cooking }) rfl (fun p => by
        split <;> rfl) k
      rw [changed, found]
      refine congrArg some (if_neg fun same => past ?_)
      rw [← same, (House.order?_some found).2, found] at at_j
      rw [Option.some.inj at_j]
      exact queued
    · exact found
  · exact found

theorem House.startTickets_order? {k : Nat} {o : Order} (past : o.state ≠ .queued) (st : StationId) (fuel : Nat)
    {h : House} (found : h.order? k = some o) : (h.startTickets st fuel).order? k = some o := by
  induction fuel generalizing h with
  | zero => exact found
  | succ fuel ih =>
    unfold House.startTickets
    split
    · split
      · refine ih ?_
        unfold House.startTicket
        refine House.orderCooking_order? ?_ past _
        exact found
      · exact found
    · exact found

/-! ### Tickets under every change (R163, R164) -/

/-- Join numbers of the tickets of a station stay different and below the next one. -/
theorem House.Sound.tickets_fine {h h' : House} (x : House.Sound h h') (fine : ∀ st, (h.station st).ticketsFine h.nextJoin) :
    ∀ st, (h'.station st).ticketsFine h'.nextJoin := by
  induction x with
  | refl h => exact fine
  | trans _ _ first second => exact second (first fine)
  | place n o h _ => rw [House.placeAnn_eq]; exact fine
  | takeOut n a h => rw [House.takeOut_eq]; exact fine
  | displace n v fs o h _ => rw [House.placeAnn_eq, House.takeOut_eq]; exact fine
  | join number lines su h room =>
    intro st
    have later : ∀ t ∈ (h.station st).queue, t.joined < h.nextJoin + 1 := fun t m => Nat.lt_succ_of_lt ((fine st).2.2 t m)
    by_cases e : st = su
    · subst e
      obtain ⟨few, nodup, below⟩ := fine st
      rw [House.joinTicket_station]
      refine ⟨?_, ?_, fun t m => ?_⟩
      · rw [List.length_append]
        exact room
      · rw [List.map_append]
        refine List.Nodup.append nodup (List.nodup_singleton _) fun j m same => ?_
        obtain ⟨t, tm, rfl⟩ := List.mem_map.1 m
        have e : t.joined = h.nextJoin := List.mem_singleton.1 same
        exact absurd (below t tm) (by omega)
      · obtain m | m := List.mem_append.1 m
        · exact later t m
        · rw [List.mem_singleton.1 m]
          exact Nat.lt_succ_self _
    · rw [House.joinTicket_station_ne _ _ _ _ _ e]
      obtain ⟨few, nodup, _⟩ := fine st
      exact ⟨few, nodup, later⟩
  | tickets su g h less =>
    intro st
    by_cases e : st = su
    · subst e
      rw [House.onStation_station]
      exact (fine st).less (less _)
    · rw [House.onStation_station_ne _ _ _ _ e]
      exact fine st
  | _ => exact fine

/-- No ticket of an ended order but VOID ones stands in a queue (R170). -/
def House.OnlyVoid (k : Nat) (h : House) : Prop := ∀ st, ∀ t ∈ (h.station st).queue, t.order = k → t.state = .void

theorem House.OnlyVoid.of_stations {k : Nat} {a b : House} (v : House.OnlyVoid k a) (same : b.stations = a.stations) :
    House.OnlyVoid k b := fun st => by
  unfold House.station
  rw [same]
  exact v st

/-- An ended order's tickets are settled at every station. -/
theorem House.settleTickets_onlyVoid (k : Nat) (h : House) : House.OnlyVoid k (h.settleTickets k) := by
  have settled (stations : List StationId) : ∀ h : House, ∀ st, (st ∈ stations ∨ ∀ t ∈ (h.station st).queue, t.order = k → t.state = .void) →
      ∀ t ∈ ((stations.foldl (fun h st => h.onStation st fun s => { s with queue := s.queue.filterMap (Ticket.settle k) })
        h).station st).queue, t.order = k → t.state = .void := by
    induction stations with
    | nil => exact fun h st given => given.resolve_left List.not_mem_nil
    | cons su rest ih =>
      intro h st given
      refine ih _ st ?_
      by_cases e : st = su
      · subst e
        refine .inr fun t m same => ?_
        rw [House.onStation_station] at m
        obtain ⟨u, -, left⟩ := List.mem_filterMap.1 m
        unfold Ticket.settle at left
        split at left
        · split at left
          · cases left
          · cases left
          · rw [← Option.some.inj left]
          · next void => rw [← Option.some.inj left]; exact void
        · next other =>
          rw [Option.some.inj left] at other
          exact absurd same other
      · rw [House.onStation_station_ne _ _ _ _ e]
        exact given.imp (fun m => (List.mem_cons.1 m).resolve_left e) id
  exact fun st => settled allStations h st (.inl (by revert st; decide))

section OnlyVoid
variable {k : Nat}

theorem House.OnlyVoid.startTicket {h : House} (v : House.OnlyVoid k h) {st : StationId} {t : Ticket}
    (once : ((h.station st).queue.map Ticket.joined).Nodup) (m : t ∈ (h.station st).queue) (queued : t.state = .queued) :
    House.OnlyVoid k (h.startTicket st t) := fun su u um same => by
  by_cases e : su = st
  · subst e
    rw [House.startTicket_self] at um
    obtain ⟨w, wm, rfl⟩ := List.mem_map.1 um
    by_cases joined : w.joined = t.joined
    · rw [if_pos joined] at same
      have is : w = t := List.inj_on_of_nodup_map once wm m joined
      have void := v su w wm same
      rw [is, queued] at void
      cases void
    · rw [if_neg joined] at same ⊢
      exact v su w wm same
  · rw [House.startTicket_ne e] at um
    exact v su u um same

theorem House.OnlyVoid.startTickets {st : StationId} (fuel : Nat) {h : House} (v : House.OnlyVoid k h)
    (fine : ∀ st, (h.station st).ticketsFine h.nextJoin) : House.OnlyVoid k (h.startTickets st fuel) := by
  induction fuel generalizing h with
  | zero => exact v
  | succ fuel ih =>
    unfold House.startTickets
    split
    · next t oldest =>
      obtain ⟨m, queued⟩ := Station.oldestQueued_some oldest
      split
      · exact ih (v.startTicket (fine st).2.1 m queued) ((House.startTicket_sound st t h).tickets_fine fine)
      · exact v
    · exact v

theorem House.OnlyVoid.fillAll (sts : List StationId) {h : House} (v : House.OnlyVoid k h)
    (fine : ∀ st, (h.station st).ticketsFine h.nextJoin) : House.OnlyVoid k (sts.foldl House.fillSlots h) := by
  induction sts generalizing h with
  | nil => exact v
  | cons st rest ih => exact ih (v.startTickets _ fine) ((House.fillSlots_sound h st).tickets_fine fine)

theorem House.OnlyVoid.joinTickets {h : House} (v : House.OnlyVoid k h) {number : Nat} (other : number ≠ k)
    (lines : List OrderLine) : House.OnlyVoid k (h.joinTickets number lines) := fun st t m same => by
  have stations := House.foldl_joinTicket_station number lines (House.touched_nodup h lines) h st
  by_cases touched : st ∈ h.touched lines
  · obtain ⟨j, joined⟩ := stations.1 touched
    unfold House.joinTickets at m
    rw [joined] at m
    obtain m | m := List.mem_append.1 m
    · exact v st t m same
    · rw [List.mem_singleton.1 m] at same
      exact absurd same other
  · unfold House.joinTickets at m
    rw [stations.2 touched] at m
    exact v st t m same

theorem House.OnlyVoid.releaseOne {h : House} (v : House.OnlyVoid k h) {number : Nat} (other : number ≠ k)
    (fine : ∀ st, (h.station st).ticketsFine h.nextJoin) : House.OnlyVoid k (h.releaseOne number) := by
  unfold House.releaseOne
  split
  · exact v
  · next o _ =>
    dsimp only
    split
    · next room =>
      have joined : House.Sound h (h.joinTickets number o.lines) := House.joinTickets_sound number o.lines h fun st m => by
        have both := List.all_eq_true.mp room st m
        rw [Bool.and_eq_true] at both
        exact both.2
      refine House.OnlyVoid.fillAll _ ((v.joinTickets other o.lines).of_stations ?_) ?_
      · rw [House.orderStateNotice_stations]
        rfl
      · rw [House.orderStateNotice_rest]
        exact joined.tickets_fine fine
    · exact v

theorem House.OnlyVoid.releaseAll {h : House} (v : House.OnlyVoid k h) (gone : ∀ o ∈ h.orders, o.number ≠ k)
    (fine : ∀ st, (h.station st).ticketsFine h.nextJoin) : House.OnlyVoid k h.releaseAll := by
  unfold House.releaseAll House.releaseOn
  have others : ∀ number ∈ (h.orders.filter fun o =>
      o.state = .deferred && allScreens.contains o.screen && h.mayRelease o.screen).map Order.number, number ≠ k :=
    fun number m => by
      obtain ⟨o, om, rfl⟩ := List.mem_map.1 m
      exact gone o (List.mem_filter.1 om).1
  generalize (h.orders.filter fun o =>
      o.state = .deferred && allScreens.contains o.screen && h.mayRelease o.screen).map Order.number = numbers at others
  clear gone
  induction numbers generalizing h with
  | nil => exact v
  | cons number rest ih =>
    exact ih (v.releaseOne (others number List.mem_cons_self) fine) ((House.releaseOne_sound h number).tickets_fine fine)
      fun j m => others j (List.mem_cons_of_mem _ m)

/-- When an order has ended only VOID tickets of it are left (R170). -/
theorem House.endOrder_onlyVoid (outcome : OrderOutcome) (reason : EndReason) {h : House} {o : Order}
    (found : h.order? k = some o) (fine : ∀ st, (h.station st).ticketsFine h.nextJoin) :
    House.OnlyVoid k (h.endOrder outcome reason k) := by
  unfold House.endOrder
  split
  case h_1 missing =>
    rw [missing] at found
    cases found
  case h_2 =>
    extract_lets left h1 h2 h3 h4 h5
    have v1 : House.OnlyVoid k h1 :=
      (House.settleTickets_onlyVoid k h).of_stations (House.CallsOnly.removeCalls k (h.settleTickets k)).stations
    have fine1 : ∀ st, (h1.station st).ticketsFine h1.nextJoin :=
      ((House.settleTickets_sound k h).trans (House.removeCalls_sound k _)).tickets_fine fine
    clear_value h1
    have rest2 : h2.stations = h1.stations ∧ h2.nextJoin = h1.nextJoin := ⟨rfl, rfl⟩
    have rest3 : h3.stations = h2.stations ∧ h3.nextJoin = h2.nextJoin := ⟨rfl, rfl⟩
    have rest4 : h4.stations = h3.stations ∧ h4.nextJoin = h3.nextJoin := by
      unfold h4
      clear_value h3
      split <;> exact ⟨rfl, rfl⟩
    have rest5 : h5.stations = h4.stations ∧ h5.nextJoin = h4.nextJoin := ⟨rfl, rfl⟩
    have gone : ∀ o ∈ h5.orders, o.number ≠ k := fun o m => of_decide_eq_true (List.mem_filter.1 m).2
    clear_value h2 h3 h4 h5
    have stations := rest5.1.trans (rest4.1.trans (rest3.1.trans rest2.1))
    have join := rest5.2.trans (rest4.2.trans (rest3.2.trans rest2.2))
    have v5 : House.OnlyVoid k h5 := v1.of_stations stations
    have fine5 : ∀ st, (h5.station st).ticketsFine h5.nextJoin := fun st => by
      unfold House.station
      rw [stations, join]
      exact fine1 st
    split
    · exact v5.releaseAll gone fine5
    · exact v5

end OnlyVoid

/-! ### The commands -/

section Ends
variable {tag number : Nat} {s : State}

theorem orderCancel_accepted (a : s.accepting) {o : Order} (found : s.house.order? number = some o) :
    exec (.orderCancel tag number) s = .next (s.replied (s.taken.house.endOrder .canceled .request number) 0x53 tag []) :=
  houseRequest_accepted a (by rw [show s.taken.house.order? number = some o from found])

theorem orderCollect_accepted (a : s.accepting) {o : Order} (found : s.house.order? number = some o)
    (waits : o.mode = .pickup ∧ (o.state = .ready ∨ o.state = .called)) :
    exec (.orderCollect tag number) s = .next (s.replied (s.taken.house.endOrder .collected .none number) 0x54 tag []) :=
  houseRequest_accepted a (by
    rw [show s.taken.house.order? number = some o from found]
    exact if_pos waits)

theorem orderDelivered_accepted (a : s.accepting) {o : Order} (found : s.house.order? number = some o)
    (waits : o.mode = .runner ∧ o.state = .ready) :
    exec (.orderDelivered tag number) s = .next (s.replied (s.taken.house.endOrder .delivered .none number) 0x55 tag []) :=
  houseRequest_accepted a (by
    rw [show s.taken.house.order? number = some o from found]
    exact if_pos waits)

theorem orderCollect_refused (a : s.accepting) {o : Order} (found : s.house.order? number = some o)
    (wrong : ¬ (o.mode = .pickup ∧ (o.state = .ready ∨ o.state = .called))) :
    exec (.orderCollect tag number) s = .next (s.turnedDown 0x54 tag .badState []) :=
  houseRequest_refused a (by
    rw [show s.taken.house.order? number = some o from found]
    exact if_neg wrong)

theorem orderDelivered_refused (a : s.accepting) {o : Order} (found : s.house.order? number = some o)
    (wrong : ¬ (o.mode = .runner ∧ o.state = .ready)) :
    exec (.orderDelivered tag number) s = .next (s.turnedDown 0x55 tag .badState []) :=
  houseRequest_refused a (by
    rw [show s.taken.house.order? number = some o from found]
    exact if_neg wrong)

end Ends

/-- A call taken off an order's schedule (R150). -/
def House.dueTaken (k : Nat) (h : House) : House := h.onOrder k fun p => { p with due := none }

theorem House.dueTaken_order? {h : House} {o : Order} (found : h.order? o.number = some o) :
    (h.dueTaken o.number).order? o.number = some { o with due := none } := by
  unfold House.dueTaken
  rw [House.order?_onOrder _ (fun _ => by rfl), found]
  rfl

/-- A call that falls due is offered, its order no longer due (R150). -/
theorem House.repeatDue_calls {h : House} {o : Order} (found : h.order? o.number = some o) (due : o.due.isSome = true) :
    h.repeatDue o.number = (h.dueTaken o.number).callOrder o.number := by
  unfold House.repeatDue
  rw [found]
  exact if_pos due

theorem House.repeatDue_nothing {h : House} {o : Order} (found : h.order? o.number = some o) (due : o.due = none) :
    h.repeatDue o.number = h := by
  unfold House.repeatDue
  rw [found]
  exact if_neg (by rw [due]; exact Bool.false_ne_true)

/-- Two changes of one order are one. -/
theorem House.onOrder_onOrder (k : Nat) {f g : Order → Order} (same : ∀ o, (f o).number = o.number) (h : House) :
    (h.onOrder k f).onOrder k g = h.onOrder k (g ∘ f) := by
  unfold House.onOrder
  rw [List.map_map]
  refine congrArg (fun orders => { h with orders := orders }) (List.map_congr_left fun o _ => ?_)
  rw [Function.comp_apply]
  by_cases e : o.number = k
  · rw [if_pos e, if_pos e, if_pos ((same o).trans e), Function.comp_apply]
  · rw [if_neg e, if_neg e, if_neg e]

/-- Placing a call touches clips, queues, players and orders only. -/
theorem House.calledWith_rest (cc : CallClips) (o : Order) (h : House) : h.calledWith cc o = { h with
    clips := (h.takeRefs (cc.compose o.number)).clips, nextAnn := (h.calledWith cc o).nextAnn,
    queues := (h.calledWith cc o).queues, players := (h.calledWith cc o).players,
    orders := (h.calledWith cc o).orders } := by
  have clips : (h.calledWith cc o).clips = (h.takeRefs (cc.compose o.number)).clips :=
    (House.selectPlayer_clips ..).trans (House.placeAnn_clips ..)
  rw [← clips]
  unfold House.calledWith
  rw [House.selectPlayer_rest, House.placeAnn_eq]
  rfl

/-- Settles O56. -/
theorem ordersEnd : Obligations.OrdersEnd := by
  intro tag number s
  refine ⟨fun a missing => ⟨?_, ?_, ?_⟩, fun missing => ?_, fun o found => ?_⟩
  iterate 3
    refine houseRequest_refused a ?_
    rw [show s.taken.house.order? number = none from missing]
  · refine houseEvent_of ?_
    unfold House.repeatDue
    rw [missing]
  · obtain rfl := (House.order?_some found).2
    have taken := House.dueTaken_order? found
    refine ⟨fun a => ⟨orderCollect_refused a found, orderDelivered_refused a found,
        s.taken.house.endOrder .collected .none o.number, s.taken.house.endOrder .delivered .none o.number,
        s.taken.house.endOrder .canceled .request o.number, orderCancel_accepted a found,
        fun pickup waits => orderCollect_accepted a found ⟨pickup, waits⟩,
        fun runner ready => orderDelivered_accepted a found ⟨runner, ready⟩, fun h which => ?_⟩,
      fun due unconfigured nobody => houseEvent_of ?_, fun cc due configured nobody => ⟨fun room single waits => ?_, fun refused => houseEvent_of ?_⟩,
      fun due => houseEvent_of (House.repeatDue_nothing found due)⟩
    · have ended : ∃ outcome reason, h = s.taken.house.endOrder outcome reason o.number := by
        obtain e | e | e := which <;> exact ⟨_, _, e⟩
      obtain ⟨outcome, reason, rfl⟩ := ended
      refine ⟨fun p m => House.endOrder_gone _ _ _ _ m, s.taken_sales.trans (House.endOrder_sound ..).sales,
        fun fine => House.endOrder_onlyVoid _ _ (o := o) found fine.2⟩
    · rw [House.repeatDue_calls found due, House.callOrder_unconfigured (h := s.house.dueTaken o.number)
          (o := { o with due := none }) taken nobody unconfigured]
      exact House.onOrder_onOrder o.number (f := fun p => { p with due := none }) (fun _ => rfl) s.house
    · have called : s.house.repeatDue o.number = (s.house.dueTaken o.number).calledWith cc { o with due := none } :=
        (House.repeatDue_calls found due).trans (House.callOrder_room (h := s.house.dueTaken o.number)
          (o := { o with due := none }) taken nobody configured single room waits)
      have rest := House.calledWith_rest cc { o with due := none } (s.house.dueTaken o.number)
      have sound : House.Sound s.house ((s.house.dueTaken o.number).calledWith cc { o with due := none }) :=
        (House.onOrder_sound o.number (fun p => { p with due := none }) s.house).trans (House.calledWith_sound cc room)
      refine ⟨_, houseEvent_of called, House.calledWith_queue cc _ _, fun m ne => House.calledWith_queue_ne cc ne _, ?_, ?_,
        ?_, ?_, ?_, sound.sales⟩
      · rw [rest]
        exact House.takeRefs_clips_congr (a := s.house) (b := s.house.dueTaken o.number) rfl _
      · rw [House.calledWith_orders]
        unfold House.dueTaken
        rw [House.onOrder_orders, List.map_map]
        refine List.map_congr_left fun p _ => ?_
        rw [Function.comp_apply]
        by_cases e : p.number = o.number
        · rw [if_pos e, if_pos e, if_pos e]
          rfl
        · rw [if_neg e, if_neg e]
          exact (if_neg e).symm
      all_goals (rw [rest]; rfl)
    · rw [House.repeatDue_calls found due, House.callOrder_refused (h := s.house.dueTaken o.number)
          (o := { o with due := none }) taken nobody configured refused]
      exact House.onOrder_onOrder o.number (f := fun p => { p with due := none }) (fun _ => rfl) s.house

end Machine
end Sys2Proof
end


-- ==== Sys2Proof/Proofs/OrderPlacement.lean ====
section
/-! ORDER PLACE (R138, R140 to R143, R163, R165). -/

set_option autoImplicit false

namespace Sys2Proof
namespace Machine

/-! ### After the reply (R142, R165) -/

theorem House.startPlaced_same {g : House} {before : Nat} (same : g.orders.length = before) : g.startPlaced before = g := by
  unfold House.startPlaced
  rw [List.drop_eq_nil_of_le (Nat.le_of_eq same)]

theorem House.startPlaced_appended {g : House} {orders : List Order} {o : Order} (joined : g.orders = orders ++ [o]) :
    g.startPlaced orders.length = o.tickets.foldl House.fillSlots g := by
  unfold House.startPlaced
  rw [joined, List.drop_left]

section Run
variable {tag screen row position mode : Nat} {lines : List OrderLine} {s : State} (a : s.accepting)
include a

theorem orderPlace_run {g : House} {answer : Answer}
    (rule : s.taken.house.orderPlace screen row position mode lines = (g, answer)) :
    exec (.orderPlace tag screen row position mode lines) s = .next (State.withHouse (g.startPlaced s.house.orders.length)
      ((s.taken.withHouse g).answered 0x52 tag answer.status answer.fields)) := by
  have run : exec (.orderPlace tag screen row position mode lines) s = .next (s.receive 0x52 tag
      (onHouseRule (House.orderPlace screen row position mode lines))
      (State.onHouse (House.startPlaced s.house.orders.length))) := rfl
  rw [run, State.receive_taken _ _ _ _ _ a]
  unfold onHouseRule
  rw [rule]
  rfl

theorem orderPlace_refused {st : Status} {detail : List Field}
    (rule : s.taken.house.orderPlace screen row position mode lines = (s.taken.house, refuse st detail)) :
    exec (.orderPlace tag screen row position mode lines) s = .next (s.turnedDown 0x52 tag st detail) := by
  rw [orderPlace_run a rule, House.startPlaced_same (g := s.taken.house) (before := s.house.orders.length) rfl]
  rfl

theorem orderPlace_entered {g : House} {o : Order} {fields : List Field}
    (rule : s.taken.house.orderPlace screen row position mode lines = (g, ok fields))
    (joined : g.orders = s.house.orders ++ [o]) : exec (.orderPlace tag screen row position mode lines) s =
      .next (State.withHouse (o.tickets.foldl House.fillSlots g) (s.replied g 0x52 tag fields)) := by
  rw [orderPlace_run a rule, House.startPlaced_appended joined]
  rfl

end Run

/-! ### The checks in their order (R141) -/

section Checks
variable {h : House} {screen row position mode : Nat} {lines : List OrderLine} {n : Screen} {m : OrderMode}
  (named : screenOfCode screen = some n) (known : OrderMode.ofCode mode = some m)
  (range : stallInRange row position = true) (some_lines : lines ≠ []) (few : lines.length ≤ 8)
include named known range some_lines few

theorem House.orderPlace_badLine {i : Nat} (first : lines.findIdx? (fun l => !h.lineValid l) = some i) :
    h.orderPlace screen row position mode lines = (h, refuse .badValue (uOpt 1 (some (i + 1)))) := by
  have fine : ¬ (¬ stallInRange row position = true ∨ lines.length = 0 ∨ 8 < lines.length) := by
    rintro (wrong | none | many)
    · exact wrong range
    · exact some_lines (List.length_eq_zero_iff.1 none)
    · exact absurd few (Nat.not_le.2 many)
  unfold House.orderPlace
  rw [named, known]
  refine (if_neg fine).trans ?_
  rw [first]

variable (valid : ∀ l ∈ lines, h.lineValid l = true)
include valid

theorem House.orderPlace_valid : h.orderPlace screen row position mode lines =
    ((h.stall? n row position).map fun x => if x.state ≠ .admitted then (h, refuse .notPresent [])
      else if 3 ≤ x.openOrders then (h, refuse .limit []) else h.placeOrder n row position x.party m lines).getD
        (h, refuse .notPresent []) := by
  have fine : ¬ (¬ stallInRange row position = true ∨ lines.length = 0 ∨ 8 < lines.length) := by
    rintro (wrong | none | many)
    · exact wrong range
    · exact some_lines (List.length_eq_zero_iff.1 none)
    · exact absurd few (Nat.not_le.2 many)
  have none : lines.findIdx? (fun l => !h.lineValid l) = Option.none :=
    List.findIdx?_eq_none_iff.2 fun l inside => by rw [valid l inside]; rfl
  unfold House.orderPlace
  rw [named, known]
  refine (if_neg fine).trans ?_
  rw [none]
  cases h.stall? n row position <;> rfl

theorem House.orderPlace_absent (absent : h.stallState n row position ≠ some .admitted) :
    h.orderPlace screen row position mode lines = (h, refuse .notPresent []) := by
  rw [House.orderPlace_valid named known range some_lines few valid]
  unfold House.stallState at absent
  cases stall : h.stall? n row position with
  | none => rfl
  | some x =>
    rw [stall] at absent
    exact if_pos fun e => absent (congrArg some e)

variable {x : Stall} (stall : h.stall? n row position = some x) (admitted : x.state = .admitted)
include stall admitted

theorem House.orderPlace_limit (busy : 3 ≤ x.openOrders) :
    h.orderPlace screen row position mode lines = (h, refuse .limit []) := by
  rw [House.orderPlace_valid named known range some_lines few valid, stall]
  exact (if_neg fun ne => ne admitted).trans (if_pos busy)

theorem House.orderPlace_places (less : x.openOrders < 3) :
    h.orderPlace screen row position mode lines = h.placeOrder n row position x.party m lines := by
  rw [House.orderPlace_valid named known range some_lines few valid, stall]
  exact (if_neg fun ne => ne admitted).trans (if_neg (Nat.not_le.2 less))

end Checks

theorem House.touched_opened {h : House} {lines : List OrderLine}
    (opened : ∀ st ∈ h.touched lines, (h.station st).opened = true) :
    (h.touched lines).find? (fun st => !(h.station st).opened) = none :=
  List.find?_eq_none.2 fun st inside => by rw [opened st inside]; exact Bool.false_ne_true

section PlaceOrder
variable {h : House} {n : Screen} {row position party : Nat} {m : OrderMode} {lines : List OrderLine}

theorem House.placeOrder_full (full : 192 ≤ h.orders.length) :
    h.placeOrder n row position party m lines = (h, refuse .full []) := if_pos full

variable (room : h.orders.length < 192)
include room

theorem House.placeOrder_stationClosed {st : StationId}
    (first : (h.touched lines).find? (fun st => !(h.station st).opened) = some st) :
    h.placeOrder n row position party m lines = (h, refuse .closed [u8 (stationCode st)]) := by
  unfold House.placeOrder
  refine (if_neg (Nat.not_le.2 room)).trans ?_
  rw [first]

variable (opened : ∀ st ∈ h.touched lines, (h.station st).opened = true)
include opened

theorem House.placeOrder_intakeClosed (intake : (h.row n).intake = .closed) :
    h.placeOrder n row position party m lines = (h, refuse .closed [u8 (screenCode n)]) := by
  unfold House.placeOrder
  refine (if_neg (Nat.not_le.2 room)).trans ?_
  rw [House.touched_opened opened, intake]

theorem House.placeOrder_deferred (intake : (h.row n).intake = .defer) :
    h.placeOrder n row position party m lines = h.placeDeferred n row position party m lines := by
  unfold House.placeOrder
  refine (if_neg (Nat.not_le.2 room)).trans ?_
  rw [House.touched_opened opened, intake]

variable (intake : (h.row n).intake = .open)
include intake

theorem House.placeOrder_stationFull {st : StationId}
    (first : (h.touched lines).find? (fun st => !(h.station st).hasRoom) = some st) :
    h.placeOrder n row position party m lines = (h, refuse .stationFull [u8 (stationCode st)]) := by
  unfold House.placeOrder
  refine (if_neg (Nat.not_le.2 room)).trans ?_
  rw [House.touched_opened opened, intake]
  dsimp only
  rw [first]

variable (places : ∀ st ∈ h.touched lines, (h.station st).hasRoom = true)
include places

theorem House.placeOrder_waits : h.placeOrder n row position party m lines =
    if (h.waits lines).any fun w => decide ((h.station w.1).maxWait < w.2) then
      (h, refuse .busy (u8 (h.waits lines).length
        :: (h.waits lines).flatMap (fun w => [u8 (stationCode w.1), u24 w.2]) ++ [u24 (largestWait (h.waits lines))]))
    else h.placeOpen n row position party m lines := by
  have none : (h.touched lines).find? (fun st => !(h.station st).hasRoom) = Option.none :=
    List.find?_eq_none.2 fun st inside => by rw [places st inside]; exact Bool.false_ne_true
  unfold House.placeOrder
  refine (if_neg (Nat.not_le.2 room)).trans ?_
  rw [House.touched_opened opened, intake]
  dsimp only
  rw [none]

end PlaceOrder

/-! ### The order that enters (R138, R140) -/

/-- The record that an accepted order gets (R138). -/
def House.newOrder (n : Screen) (row position party : Nat) (mode : OrderMode) (lines : List OrderLine)
    (state : OrderState) (tickets : List StationId) (h : House) : Order :=
  { number := h.freeNumber, screen := n, row := row, position := position, party := party, mode := mode,
    placed := h.clock, sequence := h.nextSequence, promised := none, lines := lines, tickets := tickets,
    state := state, ready := none, made := 0, remaining := h.orderPolicy.repeats + 1, call := none, due := none,
    age := 0, late := false, callWaiting := false, notCalled := false }

section Entered
variable (h : House) (n : Screen) (row position party : Nat) (mode : OrderMode) (lines : List OrderLine)
  (state : OrderState) (tickets : List StationId)

theorem House.enterOrder_orders : (h.enterOrder n row position party mode lines state tickets).orders =
    h.orders ++ [h.newOrder n row position party mode lines state tickets] := rfl

theorem House.enterOrder_rest : h.enterOrder n row position party mode lines state tickets = { h with
    orders := h.orders ++ [h.newOrder n row position party mode lines state tickets],
    nextNumber := nextOrderNumber h.freeNumber, nextSequence := h.nextSequence + 1,
    lots := (h.onStall n row position fun x => { x with openOrders := x.openOrders + 1 }).lots } := rfl

theorem House.enterOrder_stall? {x : Stall} (stall : h.stall? n row position = some x) :
    (h.enterOrder n row position party mode lines state tickets).stall? n row position =
      some { x with openOrders := x.openOrders + 1 } := by
  have lots : (h.enterOrder n row position party mode lines state tickets).lots =
      (h.onStall n row position fun x => { x with openOrders := x.openOrders + 1 }).lots := rfl
  rw [House.stall?_congr lots, House.stall?_onStall_self, stall]
  rfl

end Entered

/-- An order's number is none that the table holds (R140). -/
theorem House.freeNumber_free {h : House} (fine : h.ordersFine) {p : Order} (m : p ∈ h.orders) :
    p.number ≠ h.freeNumber := by
  obtain ⟨few, -, -, low, high⟩ := fine
  have free : firstFree nextOrderNumber (h.orders.map Order.number) (h.orders.map Order.number).length h.nextNumber
      ∉ h.orders.map Order.number := firstFree_free _ _ low high (by rw [List.length_map]; omega)
  rw [List.length_map] at free
  exact fun e => free (List.mem_map.2 ⟨p, m, e⟩)

/-! ### An order in the kitchen (R142, R163) -/

/-- The house in which an OPEN order's tickets have joined and its time is promised, before tickets start. -/
def House.openPlaced (n : Screen) (row position party : Nat) (mode : OrderMode) (lines : List OrderLine) (h : House) :
    House :=
  ((h.enterOrder n row position party mode lines .queued (h.touched lines)).joinTickets h.freeNumber lines).onOrder
    h.freeNumber fun o => { o with promised := some (h.promise (largestWait (h.waits lines))) }

theorem House.placeOpen_eq (n : Screen) (row position party : Nat) (mode : OrderMode) (lines : List OrderLine) (h : House) :
    h.placeOpen n row position party mode lines = (h.openPlaced n row position party mode lines,
      ok ([u16 h.freeNumber, u8 OrderState.queued.code] ++ uTime (some (h.promise (largestWait (h.waits lines))))
        ++ [u24 (largestWait (h.waits lines))])) := rfl

section OpenPlaced
variable (n : Screen) (row position party : Nat) (mode : OrderMode) (lines : List OrderLine) (h : House)

theorem House.openPlaced_orders (fine : h.ordersFine) : (h.openPlaced n row position party mode lines).orders =
    h.orders ++ [{ h.newOrder n row position party mode lines .queued (h.touched lines) with
      promised := some (h.promise (largestWait (h.waits lines))) }] := by
  unfold House.openPlaced
  rw [House.onOrder_orders, House.joinTickets_rest, House.enterOrder_orders, List.map_append]
  refine congrArg₂ (· ++ ·) ((List.map_congr_left fun p m => ?_).trans (List.map_id _)) ?_
  · exact if_neg (House.freeNumber_free fine m)
  · exact congrArg (fun o => [o]) (if_pos rfl)

/-- Tickets and the promised time touch stations and orders only. -/
theorem House.openPlaced_rest : h.openPlaced n row position party mode lines =
    { h.enterOrder n row position party mode lines .queued (h.touched lines) with
      orders := (h.openPlaced n row position party mode lines).orders,
      stations := (h.openPlaced n row position party mode lines).stations,
      nextJoin := (h.openPlaced n row position party mode lines).nextJoin } := by
  unfold House.openPlaced
  rw [House.joinTickets_rest]
  rfl

theorem House.openPlaced_station (st : StationId) :
    (st ∈ h.touched lines → ∃ j, (h.openPlaced n row position party mode lines).station st =
      { h.station st with queue := (h.station st).queue ++ [h.newTicket h.freeNumber lines st j] })
    ∧ (st ∉ h.touched lines → (h.openPlaced n row position party mode lines).station st = h.station st) := by
  generalize entered : h.enterOrder n row position party mode lines .queued (h.touched lines) = g
  have items : g.items = h.items := by rw [← entered]; rfl
  have touched : g.touched lines = h.touched lines := House.touched_congr items lines
  have stations : g.station st = h.station st := by rw [← entered]; rfl
  have ticket (j : Nat) : g.newTicket h.freeNumber lines st j = h.newTicket h.freeNumber lines st j := by
    unfold House.newTicket
    rw [House.linesFor_congr items, House.prepFor_congr items]
  have joined := House.foldl_joinTicket_station h.freeNumber lines (House.touched_nodup g lines) g st
  unfold House.openPlaced House.joinTickets
  rw [entered, House.onOrder_station]
  rw [touched, stations] at joined
  rw [touched]
  refine ⟨fun m => ?_, joined.2⟩
  obtain ⟨j, e⟩ := joined.1 m
  exact ⟨j, by rw [e, ticket]⟩

end OpenPlaced

/-- Settles O55. -/
theorem orderPlaceEntersTable : Obligations.OrderPlaceEntersTable := by
  intro tag screen row position mode lines s n m a named known range some_lines few
  refine ⟨fun i first => orderPlace_refused a (House.orderPlace_badLine named known range some_lines few first),
    fun valid => ⟨fun absent => orderPlace_refused a
      (House.orderPlace_absent named known range some_lines few valid absent), fun x stall admitted => ⟨fun busy => orderPlace_refused a
      (House.orderPlace_limit (h := s.taken.house) named known range some_lines few valid stall admitted busy), fun less => ?_⟩⟩⟩
  have places : s.taken.house.orderPlace screen row position mode lines =
      s.taken.house.placeOrder n row position x.party m lines :=
    House.orderPlace_places (h := s.taken.house) named known range some_lines few valid stall admitted less
  refine ⟨fun full => orderPlace_refused a (places.trans (House.placeOrder_full (h := s.taken.house) full)), fun room => ⟨fun st first =>
    orderPlace_refused a (places.trans (House.placeOrder_stationClosed (h := s.taken.house) room first)), fun opened => ⟨fun intake =>
    orderPlace_refused a (places.trans (House.placeOrder_intakeClosed (h := s.taken.house) room opened intake)), fun intake fine => ?_,
    fun intake => ⟨fun st first =>
      orderPlace_refused a (places.trans (House.placeOrder_stationFull (h := s.taken.house) room opened intake first)), fun spaces => ?_⟩⟩⟩⟩
  · have rule := places.trans (House.placeOrder_deferred (h := s.taken.house) (party := x.party) (m := m) room opened intake)
    generalize order : s.taken.house.newOrder n row position x.party m lines .deferred [] = o
    have done := orderPlace_entered (tag := tag) a rule (o := o) (by rw [← order]; rfl)
    refine ⟨s.taken.house.enterOrder n row position x.party m lines .deferred [], o, ?_, by rw [← order]; rfl, ?_⟩
    · rw [done, ← order]
      rfl
    · subst order
      exact ⟨rfl, rfl, rfl, rfl, rfl, rfl, rfl, rfl, rfl, rfl, fun p inside => House.freeNumber_free fine inside,
        House.enterOrder_stall? _ _ _ _ _ _ _ _ _ stall, rfl, rfl, rfl, rfl⟩
  · have judged := places.trans (House.placeOrder_waits (h := s.taken.house) (party := x.party) (m := m) room opened intake
      spaces)
    refine ⟨fun ⟨w, inside, long⟩ => orderPlace_refused a (judged.trans (if_pos ?_)), fun short fine => ?_⟩
    · exact List.any_eq_true.2 ⟨w, inside, decide_eq_true long⟩
    · have rule : s.taken.house.orderPlace screen row position mode lines =
          s.taken.house.placeOpen n row position x.party m lines := judged.trans (if_neg fun wrong => by
        obtain ⟨w, inside, long⟩ := List.any_eq_true.1 wrong
        exact absurd (short w inside) (Nat.not_le.2 (of_decide_eq_true long)))
      have orders := House.openPlaced_orders n row position x.party m lines s.taken.house fine
      have rest := House.openPlaced_rest n row position x.party m lines s.taken.house
      have stations := House.openPlaced_station n row position x.party m lines s.taken.house
      have done := orderPlace_entered (tag := tag) a (rule.trans (House.placeOpen_eq ..)) orders
      generalize s.taken.house.openPlaced n row position x.party m lines = g at orders rest stations done
      have slots := House.foldl_fillSlots_rest (s.house.touched lines) g
      have stall' : g.stall? n row position = some { x with openOrders := x.openOrders + 1 } := by
        rw [← House.enterOrder_stall? s.taken.house n row position x.party m lines .queued (s.taken.house.touched lines) stall]
        exact House.stall?_congr (by rw [rest]) n row position
      refine ⟨g, _, _, done, rfl, orders, rfl, rfl, rfl, rfl, rfl, rfl, rfl, rfl, rfl, rfl,
        fun p inside => House.freeNumber_free fine inside, fun st touched => ?_, fun st untouched => (stations st).2 untouched,
        by rw [rest]; rfl, ?_, ?_, ?_, ?_⟩
      · obtain ⟨j, station⟩ := (stations st).1 touched
        exact ⟨_, congrArg Station.queue station, rfl, rfl, rfl, rfl⟩
      · rw [← stall']
        exact House.stall?_congr (congrArg House.lots slots) n row position
      · exact (congrArg House.shows slots).trans (by rw [rest]; rfl)
      · exact (congrArg House.lines slots).trans (by rw [rest]; rfl)
      · exact (congrArg House.gains slots).trans (by rw [rest]; rfl)

end Machine
end Sys2Proof
end


-- ==== Sys2Proof/Proofs/Bumps.lean ====
section
/-! BUMP, presses of BUMP-s and INJECT BUMP (R148, R165, R167, R168, R183). -/

set_option autoImplicit false

namespace Sys2Proof
namespace Machine

/-! ### A ticket that is DONE stays so (R165) -/

/-- A ticket of join number `j` stands at a station, and every such one is DONE. -/
def Station.doneAt (j : Nat) (x : Station) : Prop :=
  (∃ u ∈ x.queue, u.joined = j) ∧ ∀ u ∈ x.queue, u.joined = j → u.state = .done

theorem House.startTicket_doneAt {j : Nat} {st : StationId} {t : Ticket} {h : House} (done : (h.station st).doneAt j)
    (m : t ∈ (h.station st).queue) (queued : t.state = .queued) : ((h.startTicket st t).station st).doneAt j := by
  have other : t.joined ≠ j := fun e => by
    rw [done.2 t m e] at queued
    cases queued
  obtain ⟨⟨u, um, uj⟩, all⟩ := done
  rw [House.startTicket_self]
  refine ⟨⟨u, List.mem_map.2 ⟨u, um, if_neg fun e => other (e.symm.trans uj)⟩, uj⟩, fun v vm vj => ?_⟩
  obtain ⟨w, wm, rfl⟩ := List.mem_map.1 vm
  by_cases joined : w.joined = t.joined
  · rw [if_pos joined] at vj
    exact absurd (joined.symm.trans vj) other
  · rw [if_neg joined] at vj ⊢
    exact all w wm vj

theorem House.startTickets_doneAt {j : Nat} {st : StationId} (fuel : Nat) {h : House} (done : (h.station st).doneAt j) :
    ((h.startTickets st fuel).station st).doneAt j := by
  induction fuel generalizing h with
  | zero => exact done
  | succ fuel ih =>
    unfold House.startTickets
    split
    · next t oldest =>
      obtain ⟨m, queued⟩ := Station.oldestQueued_some oldest
      split
      · exact ih (House.startTicket_doneAt done m queued)
      · exact done
    · exact done

/-! ### What a finished ticket tells its order (R148, R149) -/

theorem House.orderReady_stations (k : Nat) (h : House) : (h.orderReady k).stations = h.stations := by
  unfold House.orderReady
  split
  · rfl
  · dsimp only
    split
    · rw [(House.CallsOnly.callOrder k _).stations, House.orderStateNotice_stations]
      rfl
    · exact House.orderStateNotice_stations ..

theorem House.ticketDone_stations (k : Nat) (h : House) : (h.ticketDone k).stations = h.stations := by
  unfold House.ticketDone
  repeat' split
  · rfl
  · exact House.orderCooking_stations ..
  · exact House.orderReady_stations ..
  · rfl

theorem House.unfinished_iff (h : House) (k : Nat) : h.unfinished k = true ↔
    ∃ x, ∃ u ∈ (h.station x).queue, u.order = k ∧ (u.state = .queued ∨ u.state = .cooking) := by
  unfold House.unfinished
  rw [List.any_eq_true]
  constructor
  · rintro ⟨x, -, found⟩
    obtain ⟨u, m, e⟩ := List.any_eq_true.1 found
    exact ⟨x, u, m, of_decide_eq_true e⟩
  · rintro ⟨x, u, m, e⟩
    exact ⟨x, by fin_cases x <;> decide, List.any_eq_true.2 ⟨u, m, decide_eq_true e⟩⟩

/-- Another ticket of the order is still QUEUED or COOKING. -/
def House.otherTicket (st : StationId) (t : Ticket) (h : House) : Prop :=
  ∃ x u, u ∈ (h.station x).queue ∧ u.order = t.order ∧ (u.state = .queued ∨ u.state = .cooking)
    ∧ ¬ (x = st ∧ u.joined = t.joined)

/-- Once its ticket is DONE, an order is unfinished exactly when another ticket of it is. -/
theorem House.unfinished_onTicket (st : StationId) (t : Ticket) {f : Ticket → Ticket} (done : ∀ u, (f u).state = .done)
    (h : House) : (h.onTicket st t.joined f).unfinished t.order = true ↔ h.otherTicket st t := by
  rw [House.unfinished_iff]
  constructor
  · rintro ⟨x, u, m, order, open_⟩
    by_cases here : x = st
    · subst here
      unfold House.onTicket at m
      rw [House.onStation_station] at m
      obtain ⟨w, wm, rfl⟩ := List.mem_map.1 m
      by_cases joined : w.joined = t.joined
      · rw [if_pos joined, done] at open_
        exact absurd open_ (by decide)
      · rw [if_neg joined] at order open_
        exact ⟨x, w, wm, order, open_, fun both => joined both.2⟩
    · unfold House.onTicket at m
      rw [House.onStation_station_ne _ _ _ _ here] at m
      exact ⟨x, u, m, order, open_, fun both => here both.1⟩
  · rintro ⟨x, u, m, order, open_, other⟩
    refine ⟨x, u, ?_, order, open_⟩
    unfold House.onTicket
    by_cases here : x = st
    · subst here
      rw [House.onStation_station]
      exact List.mem_map.2 ⟨u, m, if_neg fun joined => other ⟨rfl, joined⟩⟩
    · rw [House.onStation_station_ne _ _ _ _ here]
      exact m

theorem House.onTicket_doneAt {st : StationId} {t : Ticket} {f : Ticket → Ticket} (done : ∀ u, (f u).state = .done)
    (joined : ∀ u, (f u).joined = u.joined) {h : House} (m : t ∈ (h.station st).queue) :
    ((h.onTicket st t.joined f).station st).doneAt t.joined := by
  unfold House.onTicket
  rw [House.onStation_station]
  refine ⟨⟨f t, List.mem_map.2 ⟨t, m, if_pos rfl⟩, joined t⟩, fun u um uj => ?_⟩
  obtain ⟨w, wm, rfl⟩ := List.mem_map.1 um
  by_cases e : w.joined = t.joined
  · rw [if_pos e]
    exact done w
  · rw [if_neg e] at uj
    exact absurd uj e

/-- A QUEUED or COOKING order is COOKING once a ticket of it is finished and another is not. -/
theorem House.orderCooking_cooks {h : House} {k : Nat} {o : Order} (found : h.order? k = some o)
    (under : o.state = .queued ∨ o.state = .cooking) : (h.orderCooking k).order? k = some { o with state := .cooking } := by
  unfold House.orderCooking
  rw [found]
  obtain queued | cooking := under
  · refine (congrArg (House.order? · k) (if_pos queued)).trans ?_
    rw [House.order?_congr (House.orderStateNotice_orders ..), House.order?_onOrder _ (fun _ => by rfl), found]
    rfl
  · refine (congrArg (House.order? · k) (if_neg (by rw [cooking]; decide))).trans (found.trans ?_)
    rw [← cooking]

/-- An order READY now (R148). -/
structure Order.ReadyAt (now : SiteTime) (o p : Order) : Prop where
  state : p.state = .ready
  ready : p.ready = some now
  age : p.age = 0
  late : p.late = true ↔ ∃ w, o.promised = some w ∧ w.total < now.total

theorem Order.ReadyAt.called {now : SiteTime} {o p q : Order} (r : Order.ReadyAt now o p) (x : Order.CallOnly p q) :
    Order.ReadyAt now o q := by
  obtain ⟨state, ready, age, late⟩ := r
  rw [x.rest]
  exact ⟨state, ready, age, late⟩

/-- The house in which an order has just become READY, before it is called (R148). -/
def House.readied (k : Nat) (late : Bool) (h : House) : House :=
  (h.onOrder k fun p => { p with state := .ready, ready := some h.clock, age := 0, late := late }).orderStateNotice k

theorem House.orderReady_eq {h : House} {k : Nat} {o : Order} (found : h.order? k = some o) :
    ∃ late, (late = true ↔ ∃ w, o.promised = some w ∧ w.total < h.clock.total)
      ∧ h.orderReady k = if o.mode = .pickup then (h.readied k late).callOrder k else h.readied k late := by
  unfold House.orderReady
  split
  case h_1 missing =>
    rw [missing] at found
    cases found
  case h_2 p at_k =>
  obtain rfl : o = p := Option.some.inj (found.symm.trans at_k)
  extract_lets late h1
  refine ⟨late, ?_, rfl⟩
  unfold late
  split
  · next w promised =>
    rw [decide_eq_true_iff]
    exact ⟨fun past => ⟨w, promised, past⟩, fun ⟨v, e, past⟩ => Option.some.inj (promised.symm.trans e) ▸ past⟩
  · next unpromised =>
    refine ⟨fun wrong => absurd wrong Bool.false_ne_true, fun ⟨v, e, _⟩ => ?_⟩
    rw [unpromised] at e
    cases e

theorem House.readied_order? {h : House} {k : Nat} {o : Order} {late : Bool} (found : h.order? k = some o) :
    (h.readied k late).order? k =
      some { o with state := .ready, ready := some h.clock, age := 0, late := late } := by
  unfold House.readied
  rw [House.order?_congr (House.orderStateNotice_orders ..), House.order?_onOrder _ (fun _ => by rfl), found]
  rfl

theorem House.readied_rest (k : Nat) (late : Bool) (h : House) :
    h.readied k late = { h with out := (h.readied k late).out, orders := (h.readied k late).orders } := by
  unfold House.readied
  rw [House.orderStateNotice_rest]
  rfl

/-- An order that becomes READY without a call-clip configuration is marked as not called (R149). -/
theorem House.callOrder_notCalled {h : House} {o : Order} (found : h.order? o.number = some o)
    (none : h.callClips = Option.none) {q : Order} (left : (h.callOrder o.number).order? o.number = some q) :
    q.notCalled = true := by
  unfold House.callOrder at left
  rw [found] at left
  dsimp only at left
  rw [House.offerCall_unconfigured found none] at left
  dsimp only at left
  rw [if_neg Bool.false_ne_true] at left
  have marked : (h.onOrder o.number fun p => { p with notCalled := true, callWaiting := false }).order? o.number =
      some { o with notCalled := true, callWaiting := false } := by
    rw [House.order?_onOrder _ (fun _ => by rfl), found]
    rfl
  obtain ⟨p, still, only⟩ := (House.CallsOnly.settleQueue o.screen _).order? marked
  rw [still] at left
  rw [← Option.some.inj left]
  exact only.stays rfl

section Follows
variable {st : StationId} {t : Ticket} {f : Ticket → Ticket} (done : ∀ u, (f u).state = .done) (h0 : House)
include done

theorem House.ticketDone_follows :
    House.followsTicket st t h0 ((h0.onTicket st t.joined f).ticketDone t.order) := by
  intro o found under other
  have found1 : (h0.onTicket st t.joined f).order? t.order = some o := found
  have told : (h0.onTicket st t.joined f).ticketDone t.order = if (h0.onTicket st t.joined f).unfinished t.order
      then (h0.onTicket st t.joined f).orderCooking t.order else (h0.onTicket st t.joined f).orderReady t.order := by
    unfold House.ticketDone
    rw [found1]
    exact if_pos under
  have unfinished := House.unfinished_onTicket st t done h0
  refine ⟨fun others => ?_, fun none => ?_⟩
  · rw [told, if_pos (unfinished.2 others)]
    exact House.orderCooking_cooks found1 under
  · rw [told, if_neg fun e => none (unfinished.1 e)]
    obtain ⟨late, isLate, readied⟩ := House.orderReady_eq found1
    have isReady := House.readied_order? (late := late) found1
    have rest := House.readied_rest t.order late (h0.onTicket st t.joined f)
    rw [readied]
    generalize (h0.onTicket st t.joined f).readied t.order late = h1 at isReady rest ⊢
    generalize new : ({ o with state := .ready, ready := some (h0.onTicket st t.joined f).clock, age := 0, late := late } :
      Order) = p at isReady
    have ready : Order.ReadyAt h0.clock o p := by rw [← new]; exact ⟨rfl, rfl, rfl, isLate⟩
    have screen : p.screen = o.screen := by rw [← new]
    have is := (House.order?_some isReady).2
    cases mode : o.mode with
    | runner =>
      rw [if_neg (by decide)]
      exact ⟨p, isReady, ready.state, ready.ready, ready.age, ready.late, fun _ => by rw [← new]; exact ⟨rfl, rfl, rfl⟩,
        fun e => (nomatch e), fun _ e => (nomatch e)⟩
    | pickup =>
      rw [if_pos rfl]
      obtain ⟨q, called, only⟩ := (House.CallsOnly.callOrder t.order h1).order? isReady
      have ready' := ready.called only
      refine ⟨q, called, ready'.state, ready'.ready, ready'.age, ready'.late, fun e => (nomatch e), fun _ none => ?_,
        fun cc _ configured room nobody waits single => ?_⟩
      · rw [← is] at isReady called
        exact House.callOrder_notCalled isReady (by rw [rest]; exact none) called
      · rw [← is] at isReady called
        have placed : h1.callOrder p.number = h1.calledWith cc p := by
          refine House.callOrder_room isReady ?_ ?_ ?_ ?_ ?_
          · rw [rest, screen]
            exact nobody
          · rw [rest]
            exact configured
          · rw [rest, screen, is]
            exact single
          · rw [rest, screen]
            exact room
          · rw [rest]
            exact waits
        have is_q := (House.calledWith_order? cc isReady).symm.trans (placed ▸ called)
        refine ⟨h1.newAnn (callOffer cc p.number), ?_, ?_, rfl, ?_, ?_⟩
        · rw [← is, placed, ← screen, House.calledWith_queue]
          exact mem_insertAnn.2 (.inl rfl)
        · rw [← Option.some.inj is_q]
          rfl
        · rw [is]
          rfl
        · rw [is]
          rfl

end Follows

/-- Tickets that start then leave the order as it is. -/
theorem House.followsTicket.fillSlots {st : StationId} {t : Ticket} {h0 h : House} (x : House.followsTicket st t h0 h)
    (su : StationId) : House.followsTicket st t h0 (h.fillSlots su) := by
  intro o found under other
  obtain ⟨cooks, readies⟩ := x o found under
  have queues (n : Screen) : (h.fillSlots su).queue n = h.queue n := by
    rw [House.fillSlots_rest]
    rfl
  refine ⟨fun others => ?_, fun none => ?_⟩
  · exact House.startTickets_order? (o := { o with state := .cooking }) (show OrderState.cooking ≠ .queued by decide) su _
      (cooks others)
  · obtain ⟨p, at_p, state, rest⟩ := readies none
    refine ⟨p, House.startTickets_order? (by rw [state]; decide) su _ at_p, state, ?_⟩
    rw [queues]
    exact rest

/-! ### Bumps (R167, R168) -/

/-- What a bump that finishes a ticket leaves. -/
def House.bumped (st : StationId) (t : Ticket) (h0 h : House) : Prop :=
  (h.station st).doneAt t.joined ∧ h.salesKept h0 ∧ House.followsTicket st t h0 h

theorem House.bumpQueued_bumped {st : StationId} {t : Ticket} {h : House} (m : t ∈ (h.station st).queue) :
    House.bumped st t h (h.bumpQueued st t) := by
  refine ⟨?_, ?_, House.ticketDone_follows (f := fun u => { u with state := .done }) (fun _ => rfl) h⟩
  · unfold House.bumpQueued House.station
    rw [House.ticketDone_stations]
    exact House.onTicket_doneAt (f := fun u => { u with state := .done }) (fun _ => rfl) (fun _ => rfl) m
  · exact ((House.onTicket_sound st t.joined (fun u => { u with state := .done }) h fun _ => rfl).trans
      (House.ticketDone_sound ..)).sales

theorem House.finishTicket_bumped {st : StationId} {t : Ticket} {h : House} (m : t ∈ (h.station st).queue) :
    House.bumped st t h (h.finishTicket st t) := by
  refine ⟨House.startTickets_doneAt _ ?_, (House.finishTicket_sound st t h).sales,
    (House.ticketDone_follows (f := fun u => { u with state := .done, elapsed := 0 }) (fun _ => rfl) h).fillSlots st⟩
  unfold House.station
  rw [House.ticketDone_stations]
  exact House.onTicket_doneAt (f := fun u => { u with state := .done, elapsed := 0 }) (fun _ => rfl) (fun _ => rfl) m

/-- A join number that is gone from a station does not come back (R163). -/
theorem House.Sound.joined_gone {h h' : House} (x : House.Sound h h') {st : StationId} {j : Nat} :
    (∀ u ∈ (h.station st).queue, u.joined ≠ j) ∧ j < h.nextJoin →
      (∀ u ∈ (h'.station st).queue, u.joined ≠ j) ∧ j < h'.nextJoin := by
  induction x with
  | refl h => exact id
  | trans _ _ first second => exact second ∘ first
  | place n o h _ => rw [House.placeAnn_eq]; exact id
  | takeOut n a h => rw [House.takeOut_eq]; exact id
  | displace n v fs o h _ => rw [House.placeAnn_eq, House.takeOut_eq]; exact id
  | join number lines su h _ =>
    rintro ⟨gone, below⟩
    refine ⟨fun u m => ?_, Nat.lt_succ_of_lt below⟩
    by_cases e : st = su
    · subst e
      rw [House.joinTicket_station] at m
      obtain m | m := List.mem_append.1 m
      · exact gone u m
      · rw [List.mem_singleton.1 m]
        exact Nat.ne_of_gt below
    · rw [House.joinTicket_station_ne _ _ _ _ _ e] at m
      exact gone u m
  | tickets su g h less =>
    rintro ⟨gone, below⟩
    refine ⟨fun u m => ?_, below⟩
    by_cases e : st = su
    · subst e
      rw [House.onStation_station] at m
      obtain ⟨w, wm, same⟩ := List.mem_map.1 ((less _).subset (List.mem_map_of_mem m))
      exact same ▸ gone w wm
    · rw [House.onStation_station_ne _ _ _ _ e] at m
      exact gone u m
  | _ => exact id

/-- What a bump that clears a VOID ticket leaves. -/
def House.cleared (st : StationId) (t : Ticket) (h0 h : House) : Prop :=
  (∀ u ∈ (h.station st).queue, u.joined ≠ t.joined) ∧ h.salesKept h0
    ∧ ∀ o, (h0.dropTicket st t).releasable o → h0.mayReleaseNow o.screen → House.released o (h0.dropTicket st t) h

theorem House.clearVoid_cleared {st : StationId} {t : Ticket} {h : House} (known : t.joined < h.nextJoin) :
    House.cleared st t h (h.clearVoid st t) := by
  have dropped : (∀ u ∈ ((h.dropTicket st t).station st).queue, u.joined ≠ t.joined)
      ∧ t.joined < (h.dropTicket st t).nextJoin := by
    refine ⟨fun u m => ?_, known⟩
    unfold House.dropTicket at m
    rw [House.onStation_station] at m
    exact of_decide_eq_true (List.mem_filter.1 m).2
  refine ⟨(((House.releaseAll_sound _).trans (House.fillSlots_sound _ st)).joined_gone dropped).1,
    (House.clearVoid_sound st t h).sales, fun o r may => ?_⟩
  exact (House.releaseOn_released r (mem_allScreens _) may).fillSlots [st]

theorem Station.oldestCooking_mem {x : Station} {t : Ticket} (e : x.oldestCooking = some t) : t ∈ x.queue := by
  have scan (l : List Ticket) : ∀ best : Option Ticket, l.foldl (fun best t => match best with
        | none => some t
        | some b => if t.cooked.getD 0 < b.cooked.getD 0 then some t else some b) best = some t →
      t ∈ l ∨ best = some t := by
    induction l with
    | nil => exact fun best => .inr
    | cons u rest ih =>
      intro best found
      obtain m | now := ih _ found
      · exact .inl (List.mem_cons_of_mem _ m)
      · cases best with
        | none => exact .inl (by rw [Option.some.inj now]; exact List.mem_cons_self)
        | some b =>
          dsimp only at now
          split at now
          · exact .inl (by rw [Option.some.inj now]; exact List.mem_cons_self)
          · exact .inr now
  exact (List.mem_filter.1 ((scan _ none e).resolve_right fun none => nomatch none)).1

theorem House.bumpButton_none {st : StationId} {h : House} (none : (h.station st).oldestCooking = Option.none) :
    h.bumpButton st = h := by
  unfold House.bumpButton
  rw [none]

theorem House.bumpButton_cooking {st : StationId} {t : Ticket} {h : House} (oldest : (h.station st).oldestCooking = some t)
    (cooking : t.state = .cooking) : h.bumpButton st = h.finishTicket st t := by
  unfold House.bumpButton
  rw [oldest]
  exact if_neg (by rw [cooking]; decide)

theorem House.bumpButton_void {st : StationId} {t : Ticket} {h : House} (oldest : (h.station st).oldestCooking = some t)
    (void : t.state = .void) : h.bumpButton st = h.clearVoid st t := by
  unfold House.bumpButton
  rw [oldest]
  exact if_pos void

section Commands
variable {tag number station : Nat} {s : State} {st : StationId} (known : stationOfCode station = some st)
include known

theorem bump_accepted (a : s.accepting) (range : 1 ≤ number ∧ number ≤ 999) {h : House} {fields : List Field}
    (rule : s.taken.house.bumpNamed st number = (h, ok fields)) :
    exec (.bump tag number station) s = .next (s.replied h 0x56 tag fields) :=
  houseRequest_accepted a (by rw [known]; exact (if_pos range).trans rule)

theorem bump_refused (a : s.accepting) (range : 1 ≤ number ∧ number ≤ 999) {status : Status}
    (rule : s.taken.house.bumpNamed st number = (s.taken.house, refuse status [])) :
    exec (.bump tag number station) s = .next (s.turnedDown 0x56 tag status []) :=
  houseRequest_refused a (by rw [known]; exact (if_pos range).trans rule)

theorem bump_badValue (a : s.accepting) (wrong : ¬ (1 ≤ number ∧ number ≤ 999)) :
    exec (.bump tag number station) s = .next (s.turnedDown 0x56 tag .badValue []) :=
  houseRequest_refused a (by rw [known]; exact if_neg wrong)

theorem injectBump_accepted (a : s.accepting) (rehearses : (s.house.station st).rehearsal = true) :
    exec (.injectBump tag station) s = .next (s.replied (s.taken.house.bumpButton st) 0x67 tag
      [u16 (((s.house.station st).oldestCooking.map Ticket.order).getD 0)]) :=
  houseRequest_accepted a (by rw [known]; exact if_pos rehearses)

theorem injectBump_refused (a : s.accepting) (outside : (s.house.station st).rehearsal = false) :
    exec (.injectBump tag station) s = .next (s.turnedDown 0x67 tag .badState []) :=
  houseRequest_refused a (by
    rw [known]
    exact if_neg (by rw [show (s.taken.house.station st).rehearsal = false from outside]; exact Bool.false_ne_true))

end Commands

theorem buttonBump_taken {s : State} {st : StationId} (outside : (s.house.station st).rehearsal = false)
    (free : (s.house.station st).pressWait = 0) :
    exec (.buttonBump st) s = .next (s.withHouse (s.house.bumpButton st)) :=
  houseEvent_of (if_neg (by rw [outside, free]; decide))

theorem House.bumped.of_taken {st : StationId} {t : Ticket} {s : State} {h : House}
    (x : House.bumped st t s.taken.house h) : House.bumped st t s.house h := by
  obtain ⟨done, kept, follows⟩ := x
  exact ⟨done, s.taken_sales.trans kept, follows⟩

theorem House.cleared.of_taken {st : StationId} {t : Ticket} {s : State} {h : House}
    (x : House.cleared st t s.taken.house h) : House.cleared st t s.house h := by
  obtain ⟨gone, kept, released⟩ := x
  have same : House.SameKitchen (s.house.dropTicket st t) (s.taken.house.dropTicket st t) := by constructor <;> rfl
  exact ⟨gone, s.taken_sales.trans kept, fun o r may => same.released (released o (same.releasable r) may)⟩

/-- Settles O57. -/
theorem bumpsFinishTickets : Obligations.BumpsFinishTickets := by
  intro tag number station s st known bumped cleared
  have toBumped {t : Ticket} {h : House} (x : House.bumped st t s.house h) : bumped t h := by
    obtain ⟨⟨stands, done⟩, kept, follows⟩ := x
    exact ⟨stands, done, kept, follows⟩
  have toCleared {t : Ticket} {h : House} (x : House.cleared st t s.house h) : cleared t h := x
  clear_value bumped cleared
  refine ⟨fun a low high => ⟨fun live void => ?_, fun t live void joined => ?_, fun t live => ⟨fun done => ?_, fun under => ?_⟩⟩,
    fun a wrong => bump_badValue known a (by omega), fun shut => ?_, fun none => ⟨?_, fun a rehearses => ?_⟩,
    fun t oldest => ⟨fun outside free => ⟨fun cooking => ?_, fun void joined => ?_⟩,
      fun a rehearses => ⟨fun cooking => ?_, fun void joined => ?_⟩⟩, injectBump_refused known⟩
  · refine bump_refused known a ⟨low, high⟩ ?_
    unfold House.bumpNamed
    rw [show s.taken.house.liveTicket st number = none from live, show s.taken.house.voidTicket st number = none from void]
  · refine ⟨_, bump_accepted known a ⟨low, high⟩ ?_, toCleared (House.clearVoid_cleared (h := s.taken.house) joined).of_taken⟩
    unfold House.bumpNamed
    rw [show s.taken.house.liveTicket st number = none from live, show s.taken.house.voidTicket st number = some t from void]
    rfl
  · refine bump_refused known a ⟨low, high⟩ ?_
    unfold House.bumpNamed
    rw [show s.taken.house.liveTicket st number = some t from live]
    dsimp only
    rw [done]
  · have inside : t ∈ (s.taken.house.station st).queue := List.mem_of_find?_eq_some live
    obtain queued | cooking := under
    · refine ⟨_, bump_accepted known a ⟨low, high⟩ ?_, toBumped (House.bumpQueued_bumped inside).of_taken⟩
      unfold House.bumpNamed
      rw [show s.taken.house.liveTicket st number = some t from live]
      dsimp only
      rw [queued]
      rfl
    · refine ⟨_, bump_accepted known a ⟨low, high⟩ ?_, toBumped (House.finishTicket_bumped inside).of_taken⟩
      unfold House.bumpNamed
      rw [show s.taken.house.liveTicket st number = some t from live]
      dsimp only
      rw [cooking]
      rfl
  · exact houseEvent_of (if_pos shut)
  · refine houseEvent_of ?_
    split
    · rfl
    · exact House.bumpButton_none none
  · rw [injectBump_accepted known a rehearses, House.bumpButton_none (h := s.taken.house) none, none]
    rfl
  · exact ⟨_, (buttonBump_taken outside free).trans (by rw [House.bumpButton_cooking oldest cooking]),
      toBumped (House.finishTicket_bumped (Station.oldestCooking_mem oldest))⟩
  · exact ⟨_, (buttonBump_taken outside free).trans (by rw [House.bumpButton_void oldest void]),
      toCleared (House.clearVoid_cleared joined)⟩
  · have oldest' : (s.taken.house.station st).oldestCooking = some t := oldest
    refine ⟨_, (injectBump_accepted known a rehearses).trans ?_,
      toBumped (House.finishTicket_bumped (Station.oldestCooking_mem oldest')).of_taken⟩
    rw [House.bumpButton_cooking oldest' cooking, oldest]
    rfl
  · have oldest' : (s.taken.house.station st).oldestCooking = some t := oldest
    refine ⟨_, (injectBump_accepted known a rehearses).trans ?_,
      toCleared (House.clearVoid_cleared (h := s.taken.house) joined).of_taken⟩
    rw [House.bumpButton_void oldest' void, oldest]
    rfl

end Machine
end Sys2Proof
end


-- ==== Sys2Proof/Proofs/ShowSteps.lean ====
section
/-! What the steps of a show do to its own Show Controller and cue line: how an entry begins and ends, how a show starts
and is promoted, how STOPPING is entered (sections 1.4 to 1.7). -/

set_option autoImplicit false

namespace Sys2Proof
namespace Machine

/-! ### What the steps of a show read beside its own screen -/

/-- Two houses give a show the same entries, the same clock, and the same lanes to wait for. -/
structure House.SameCues (h h' : House) : Prop where
  cues : h'.cues = h.cues
  clock : h'.clock = h.clock
  maxLaneHold : h'.maxLaneHold = h.maxLaneHold
  backlog : h'.backlog = h.backlog

theorem House.SameCues.rfl' (h : House) : House.SameCues h h := ⟨rfl, rfl, rfl, rfl⟩

theorem House.SameCues.trans {a b c : House} (x : House.SameCues a b) (y : House.SameCues b c) : House.SameCues a c :=
  ⟨y.cues.trans x.cues, y.clock.trans x.clock, y.maxLaneHold.trans x.maxLaneHold, y.backlog.trans x.backlog⟩

theorem House.Sound.sameCues {h h' : House} (x : House.Sound h h') : House.SameCues h h' :=
  ⟨x.kept.cues, x.kept.clock, x.kept.maxLaneHold, x.kept.backlog⟩

theorem House.Sound.ctl {h h' : House} (x : House.Sound h h') (m : Screen) : h'.ctl m = h.ctl m := by
  unfold House.ctl; rw [x.kept.shows]

theorem House.Sound.line {h h' : House} (x : House.Sound h h') (m : Screen) : h'.line m = h.line m := by
  unfold House.line; rw [x.kept.lines]

theorem House.Sound.gain {h h' : House} (x : House.Sound h h') (m : Screen) : h'.gain m = h.gain m := by
  unfold House.gain; rw [x.kept.gains]

/-- What show `n` keeps comes from the small changes it is made of, and from what it leaves of the other screens. -/
theorem House.showKept_of {n : Screen} {h h' : House} (stage : House.Stage h h')
    (apart : ∀ m, Fact (n ≠ m) → House.Apart m h h') : House.showKept n h' h :=
  ⟨stage.kept.settings, stage.kept.clock, fun m ne =>
    have x := apart m ⟨fun e => ne e.symm⟩
    ⟨x.show', x.line', x.gain'⟩⟩

/-! ### Publishing a phase (R23) -/

/-- Publishing a phase is what orders and announcements do, and a new admission state. -/
theorem House.publish_cases (n : Screen) (old : Phase) (h : House) :
    ∃ h1, House.Sound h h1 ∧ (h.publish n old = h1 ∨ h.publish n old = h1.refreshAdmission n) := by
  unfold House.publish
  split
  · exact ⟨h, .refl h, .inl rfl⟩
  · exact ⟨_, (House.wakePlayer_sound n h).trans (House.releaseOn_sound [n] _), .inr rfl⟩

@[simp] theorem House.publish_ctl (n m : Screen) (old : Phase) (h : House) : (h.publish n old).ctl m = h.ctl m := by
  obtain ⟨h1, sound, e | e⟩ := House.publish_cases n old h <;> rw [e]
  · exact sound.ctl m
  · exact sound.ctl m

@[simp] theorem House.publish_line (n m : Screen) (old : Phase) (h : House) : (h.publish n old).line m = h.line m := by
  obtain ⟨h1, sound, e | e⟩ := House.publish_cases n old h <;> rw [e]
  · exact sound.line m
  · exact sound.line m

@[simp] theorem House.publish_gain (n m : Screen) (old : Phase) (h : House) : (h.publish n old).gain m = h.gain m := by
  obtain ⟨h1, sound, e | e⟩ := House.publish_cases n old h <;> rw [e]
  · exact sound.gain m
  · exact sound.gain m

theorem House.publish_sameCues (n : Screen) (old : Phase) (h : House) : House.SameCues h (h.publish n old) := by
  obtain ⟨h1, sound, e | e⟩ := House.publish_cases n old h <;> rw [e]
  · exact sound.sameCues
  · exact sound.sameCues.trans ⟨rfl, rfl, rfl, rfl⟩

/-- Recomputing the countdown changes the countdown only. -/
theorem House.refreshCountdown_self (n : Screen) (h : House) :
    (h.refreshCountdown n).ctl n = { h.ctl n with countdown := h.countdownOf n } := by
  rw [House.refreshCountdown_ctl, if_pos rfl]

/-- A change of a Show Controller, and its countdown recomputed after it. -/
theorem House.refreshCountdown_onCtl (n : Screen) (f : ShowCtl → ShowCtl) (h : House) :
    ∃ k, ((h.onCtl n f).refreshCountdown n).ctl n = { f (h.ctl n) with countdown := k } :=
  ⟨(h.onCtl n f).countdownOf n, by rw [House.refreshCountdown_self, House.onCtl_ctl]⟩

@[simp] theorem House.refreshCountdown_line (n m : Screen) (h : House) : (h.refreshCountdown n).line m = h.line m := rfl

@[simp] theorem House.refreshCountdown_gain (n m : Screen) (h : House) : (h.refreshCountdown n).gain m = h.gain m := rfl

/-! ### Exchanges of a show (R34, R39) -/

@[simp] theorem House.attempt_ctl (n m : Screen) (x : Exchange) (h : House) : (h.attempt n x).ctl m = h.ctl m := rfl

@[simp] theorem House.beginExchange_ctl (n m : Screen) (pass quiet : Bool) (r : CueRequest) (allowed : Nat) (h : House) :
    (h.beginExchange n pass quiet r allowed).ctl m = h.ctl m := rfl

@[simp] theorem House.askShow_ctl (n m : Screen) (r : CueRequest) (h : House) : (h.askShow n r).ctl m = h.ctl m := by
  unfold House.askShow
  extract_lets l
  split_ifs
  · rfl
  · cases l.unit <;> rfl

/-- The unit an exchange begins with: its first attempt, under the line's next sequence number. -/
theorem House.beginExchange_exchange (n : Screen) (pass quiet : Bool) (r : CueRequest) (allowed : Nat) (h : House) :
    ((h.beginExchange n pass quiet r allowed).line n).unit.exchange? = some
      { pass := pass, quiet := quiet, verb := r.verb, content := r.content, firstSeq := (h.line n).seq,
        seq := (h.line n).seq, used := 1, allowed := allowed, timeout := (h.line n).answerTimeout } := by
  unfold House.beginExchange House.attempt
  simp only [House.onLine_line]
  split <;> rfl

theorem House.beginExchange_waitingPlace (n : Screen) (pass quiet : Bool) (r : CueRequest) (allowed : Nat) (h : House) :
    ((h.beginExchange n pass quiet r allowed).line n).waitingPlace = (h.line n).waitingPlace := by
  unfold House.beginExchange House.attempt
  simp only [House.onLine_line]
  split <;> rfl

/-- An exchange of the show with H, or one that waits, is an H under way. -/
theorem CueLine.showHalt_of_exchange {l : CueLine} {x : Exchange} (e : l.unit.exchange? = some x) (verb : x.verb = .h)
    (pass : x.pass = false) : l.showHalt = true := by
  unfold CueLine.showHalt
  rw [e]
  simp [verb, pass]

/-- Asking for an H brings one under way. -/
theorem House.askShow_showHalt (n : Screen) (content : Nat) (h : House) :
    ((h.askShow n { verb := .h, content := content }).line n).showHalt = true := by
  unfold House.askShow
  dsimp only
  split_ifs with under
  · exact under.2
  · split
    · exact CueLine.showHalt_of_exchange (House.beginExchange_exchange ..) rfl rfl
    · rw [House.onLine_line]
      simp [CueLine.showHalt]

/-! ### An entry begins (R10 to R13) -/

/-- A start clip changes no more of a Show Controller than the count of dropped clips. -/
theorem House.offerStartClip_ctl (n : Screen) (clip : Nat) (h : House) :
    ∃ k, (h.offerStartClip n clip).ctl n =
      { h.ctl n with record := { (h.ctl n).record with clipsDropped := k } } := by
  have offered := House.offer_sound n { cls := .show, clips := [clip], origin := .show } h
  unfold House.offerStartClip
  split
  next h' e =>
    rw [e] at offered
    exact ⟨(h.ctl n).record.clipsDropped + 1, by rw [House.onCtl_ctl, House.notify_ctl, offered.ctl]⟩
  next h' k displaced e =>
    rw [e] at offered
    refine ⟨(h.ctl n).record.clipsDropped, ?_⟩
    have told : House.Sound h' (if displaced then h'.reportDeparture n else h') := by
      split
      · exact House.reportDeparture_sound ..
      · exact .refl _
    rw [((offered.trans told).trans (House.settleQueue_sound ..)).ctl]

/-- What an entry that starts running makes of its Show Controller (R12, R13). -/
theorem House.runEntry_ctl (n : Screen) (old : Phase) (h : House) : ∃ start dropped countdown,
    (h.runEntry n old).ctl n = { h.ctl n with
      state := .showing, finalHalt := false, silentRaised := false, counting := .off, stallTimer := none,
      timebase := 0, holdElapsed := 0, generator := none, countdown := countdown
      record := { (h.ctl n).record with progress := 0, featureStart := start, clipsDropped := dropped } } := by
  unfold House.runEntry
  extract_lets e h1 h2 h3 h4 h5
  have asked : ∀ g : House, g.ctl n = h5.ctl n →
      g.ctl n = { h4.ctl n with countdown := h4.countdownOf n } := fun g same => by
    rw [same, House.publish_ctl, House.refreshCountdown_self]
  have offered : ∃ k, h4.ctl n = { h1.ctl n with record := { (h1.ctl n).record with clipsDropped := k } } := by
    have rest : h3.ctl n = h1.ctl n := rfl
    unfold h4
    split_ifs
    · exact ⟨(h1.ctl n).record.clipsDropped, by rw [rest]⟩
    · obtain ⟨k, ek⟩ := House.offerStartClip_ctl n e.startClip h3
      exact ⟨k, by rw [ek, rest]⟩
  obtain ⟨dropped, e4⟩ := offered
  refine ⟨(h1.ctl n).record.featureStart, dropped, h4.countdownOf n, ?_⟩
  have goal : ∀ g : House, g.ctl n = h5.ctl n → g.ctl n = { h.ctl n with
      state := .showing, finalHalt := false, silentRaised := false, counting := .off, stallTimer := none,
      timebase := 0, holdElapsed := 0, generator := none, countdown := h4.countdownOf n
      record := { (h.ctl n).record with
        progress := 0, featureStart := (h1.ctl n).record.featureStart, clipsDropped := dropped } } := fun g same => by
    rw [asked g same, e4]
    unfold h1
    rw [House.onCtl_ctl]
  apply goal
  cases e.kind
  case empty => rfl
  case play => exact House.askShow_ctl ..
  all_goals
    dsimp only
    split_ifs
    · rfl
    · exact House.askShow_ctl ..

/-- What an entry that begins leaves of its Show Controller: the slots, the halted indication, and of the record all but
the progress, the feature start and the clips dropped. -/
structure ShowCtl.Onward (c c' : ShowCtl) : Prop where
  running : c'.running = c.running
  waiting : c'.waiting = c.waiting
  halted : c'.halted = c.halted
  current : c'.record.current = c.record.current
  completed : c'.record.completed = c.record.completed
  lateStart : c'.record.lateStart = c.record.lateStart
  laneHoldSecs : c'.record.laneHoldSecs = c.record.laneHoldSecs
  faults : c'.record.faults = c.record.faults
  outcome : c'.record.outcome = c.record.outcome

/-- An entry of a show begins: it waits for lanes under a lane hold, else it runs (R10). -/
theorem House.beginEntry_begun (n : Screen) (old : Phase) (h : House) (d : ShowDesc) (i : Nat)
    (running : (h.ctl n).running = some d) (current : (h.ctl n).record.current = some i) :
    House.entryBegun n d i h (h.beginEntry n old) ∧ ShowCtl.Onward (h.ctl n) ((h.beginEntry n old).ctl n) := by
  have entry : h.entry n = h.cue i := by unfold House.entry; rw [current]
  unfold House.entryBegun House.beginEntry
  rw [entry]
  split_ifs with wait
  · rw [House.publish_ctl, House.refreshCountdown_self, House.onCtl_ctl]
    exact ⟨⟨running, current, rfl, rfl⟩, rfl, rfl, rfl, rfl, rfl, rfl, rfl, rfl, rfl⟩
  · obtain ⟨start, dropped, countdown, e⟩ := House.runEntry_ctl n old h
    rw [e]
    exact ⟨⟨running, current, rfl, rfl⟩, rfl, rfl, rfl, rfl, rfl, rfl, rfl, rfl, rfl⟩

/-- How an entry begins is read from the cue table, the lanes, and nothing else of the house before. -/
theorem House.entryBegun_congr {a b : House} (same : House.SameCues a b) {n : Screen} {d : ShowDesc} {i : Nat} {h : House}
    (x : House.entryBegun n d i b h) : House.entryBegun n d i a h := by
  unfold House.entryBegun at *
  rwa [House.cue_congr same.cues, same.maxLaneHold, same.backlog] at x

/-! ### A show starts (R8 to R10) -/

/-- A show that starts begins its first entry, with its late-start seconds. -/
theorem House.startShow_begun (n : Screen) (late : Nat) (h : House) (d : ShowDesc)
    (running : (h.ctl n).running = some d) :
    House.entryBegun n d d.start h (h.startShow n late) ∧ ((h.startShow n late).ctl n).record.lateStart = late
      ∧ ((h.startShow n late).ctl n).waiting = (h.ctl n).waiting
      ∧ ((h.startShow n late).ctl n).halted = (h.ctl n).halted := by
  unfold House.startShow
  split
  case h_1 none => rw [running] at none; contradiction
  case h_2 d' found =>
    obtain rfl : d = d' := Option.some.inj (running.symm.trans found)
    generalize e : House.onCtl n _ (House.notify _ _ h) = h1
    have ctl : h1.ctl n = { h.ctl n with record := { (h.ctl n).record with current := some d.start, lateStart := late } } := by
      rw [← e, House.onCtl_ctl, House.notify_ctl]
    have same : House.SameCues h h1 := by rw [← e]; exact ⟨rfl, rfl, rfl, rfl⟩
    obtain ⟨begun, onward⟩ := House.beginEntry_begun n (h.phase n) h1 d d.start (by rw [ctl]; exact found) (by rw [ctl])
    exact ⟨House.entryBegun_congr same begun, by rw [onward.lateStart, ctl], by rw [onward.waiting, ctl],
      by rw [onward.halted, ctl]⟩

/-- An ARMED show started on command is left alone by the clock (R9). -/
theorem House.evalStart_onCommand (n : Screen) (h : House) (d : ShowDesc) (running : (h.ctl n).running = some d)
    (mode : d.mode = .onCommand) : h.evalStart n = h := by
  unfold House.evalStart
  split
  next d' _ found =>
    obtain rfl : d = d' := Option.some.inj (running.symm.trans found)
    rw [mode]
  next => rfl

/-- An ARMED AT_TIME show starts exactly when the clock has reached its start time (R9). -/
theorem House.evalStart_atTime (n : Screen) (h : House) (d : ShowDesc) (t : SiteTime) (state : (h.ctl n).state = .armed)
    (running : (h.ctl n).running = some d) (mode : d.mode = .atTime t) :
    h.evalStart n = if t.total ≤ h.clock.total then h.startShow n ((h.clock.total - t.total) / 1000) else h := by
  unfold House.evalStart
  split
  next d' _ found =>
    obtain rfl : d = d' := Option.some.inj (running.symm.trans found)
    rw [mode]
  next other => exact absurd running (other d state)

/-- An ARMED show whose start is judged now: as `House.promoted` says, but for the pending slot, which it keeps. -/
theorem House.evalStart_armed (n : Screen) (h : House) (d : ShowDesc) (state : (h.ctl n).state = .armed)
    (running : (h.ctl n).running = some d) :
    ((h.evalStart n).ctl n).running = some d ∧ ((h.evalStart n).ctl n).waiting = (h.ctl n).waiting
      ∧ ((h.evalStart n).ctl n).halted = (h.ctl n).halted
      ∧ (d.mode = .onCommand → h.evalStart n = h)
      ∧ ∀ t, d.mode = .atTime t →
        (h.clock.total < t.total → h.evalStart n = h)
        ∧ (t.total ≤ h.clock.total → House.entryBegun n d d.start h (h.evalStart n)
            ∧ ((h.evalStart n).ctl n).record.lateStart = (h.clock.total - t.total) / 1000) := by
  cases mode : d.mode with
  | onCommand =>
    have same := House.evalStart_onCommand n h d running mode
    rw [same]
    exact ⟨running, rfl, rfl, fun _ => rfl, fun t e => StartMode.noConfusion e⟩
  | atTime t =>
    have judged := House.evalStart_atTime n h d t state running mode
    by_cases come : t.total ≤ h.clock.total
    · rw [if_pos come] at judged
      obtain ⟨begun, late, waiting, halted⟩ := House.startShow_begun n ((h.clock.total - t.total) / 1000) h d running
      rw [judged]
      refine ⟨begun.1, waiting, halted, fun e => StartMode.noConfusion e, fun u e => ?_⟩
      obtain rfl : t = u := StartMode.atTime.inj e
      exact ⟨fun before => absurd come (Nat.not_le.mpr before), fun _ => ⟨begun, late⟩⟩
    · rw [if_neg come] at judged
      rw [judged]
      refine ⟨running, rfl, rfl, fun e => StartMode.noConfusion e, fun u e => ?_⟩
      obtain rfl : t = u := StartMode.atTime.inj e
      exact ⟨fun _ => rfl, fun reached => absurd reached come⟩

/-! ### A show ends (R15, R16) -/

/-- The screen goes to IDLE when no show waits (R16). -/
theorem House.promote_idle (n : Screen) (h : House) (waiting : (h.ctl n).waiting = none) :
    ∃ k, (h.promote n).ctl n = { h.ctl n with state := .idle, countdown := k } := by
  obtain ⟨k, e⟩ := House.refreshCountdown_onCtl n (fun c => { c with state := .idle }) h
  refine ⟨k, ?_⟩
  unfold House.promote
  dsimp only
  split
  next d found => rw [waiting] at found; contradiction
  next => rw [House.publish_ctl, e]

theorem House.promote_idle_line (n : Screen) (h : House) (waiting : (h.ctl n).waiting = none) :
    (h.promote n).line n = h.line n := by
  unfold House.promote
  dsimp only
  rw [waiting]
  dsimp only
  rw [House.publish_line, House.refreshCountdown_line, House.onCtl_line]

/-- A pending show is promoted (R16, R9). -/
theorem House.promote_promoted (n : Screen) (h : House) (d : ShowDesc) (waiting : (h.ctl n).waiting = some d) :
    House.promoted n d h (h.promote n) ∧ ((h.promote n).ctl n).halted = (h.ctl n).halted := by
  unfold House.promote
  dsimp only
  rw [waiting]
  dsimp only
  generalize e : House.publish n (h.phase n) _ = h1
  have ctl : ∃ k, h1.ctl n = { (h.ctl n).armed d with waiting := none, countdown := k } := by
    rw [← e, House.publish_ctl]
    exact House.refreshCountdown_onCtl ..
  have same : House.SameCues h h1 := by
    rw [← e]
    refine House.SameCues.trans ?_ (House.publish_sameCues ..)
    exact ⟨rfl, rfl, rfl, rfl⟩
  obtain ⟨k, ctl⟩ := ctl
  have state : (h1.ctl n).state = .armed := by rw [ctl]; rfl
  have record : (h1.ctl n).record = .zeroed d.showId := by rw [ctl]; rfl
  obtain ⟨running, kept, halted, onCommand, atTime⟩ := House.evalStart_armed n h1 d state (by rw [ctl]; rfl)
  refine ⟨⟨running, by rw [kept, ctl], fun mode => ?_, fun t mode => ?_⟩, by rw [halted, ctl]; rfl⟩
  · rw [onCommand mode]
    exact ⟨state, record⟩
  · obtain ⟨before, reached⟩ := atTime t mode
    rw [← same.clock]
    refine ⟨fun early => ?_, fun come => ?_⟩
    · rw [before early]
      exact ⟨state, record⟩
    · exact ⟨House.entryBegun_congr same (reached come).1, (reached come).2⟩

/-- Promotion reads no more of the house before than the entries and the clock. -/
theorem House.promoted_congr {a b : House} (same : House.SameCues a b) {n : Screen} {d : ShowDesc} {h : House}
    (x : House.promoted n d b h) : House.promoted n d a h := by
  obtain ⟨running, waiting, onCommand, atTime⟩ := x
  refine ⟨running, waiting, onCommand, fun t mode => ?_⟩
  obtain ⟨before, reached⟩ := atTime t mode
  rw [same.clock] at before reached
  exact ⟨before, fun come => ⟨House.entryBegun_congr same (reached come).1, (reached come).2⟩⟩

/-- An empty running slot: the Show Controller keeps the pending slot, the record and the halted indication (R6). -/
theorem House.emptySlot_ctl (n : Screen) (h : House) : (h.emptySlot n).ctl n = { h.ctl n with
    running := none, finalHalt := false, stopAbort := false, stopHaltEnded := false, counting := .off,
    stallTimer := none, timebase := 0, holdElapsed := 0, waitLeft := none, waitSpent := 0, generator := none } := by
  unfold House.emptySlot
  dsimp only
  rw [House.onCtl_ctl]
  split
  · rw [House.dropRefs_eq]; rfl
  · rfl

@[simp] theorem House.emptySlot_line (n m : Screen) (h : House) : (h.emptySlot n).line m = h.line m := by
  unfold House.emptySlot
  dsimp only
  rw [House.onCtl_line]
  split
  · rw [House.dropRefs_eq]; rfl
  · rfl

@[simp] theorem House.emptySlot_gain (n m : Screen) (h : House) : (h.emptySlot n).gain m = h.gain m := by
  unfold House.emptySlot
  dsimp only
  rw [House.onCtl_gain]
  split
  · rw [House.dropRefs_eq]; rfl
  · rfl

theorem House.emptySlot_sameCues (n : Screen) (h : House) : House.SameCues h (h.emptySlot n) := by
  unfold House.emptySlot
  dsimp only
  split
  · rw [House.dropRefs_eq]; exact ⟨rfl, rfl, rfl, rfl⟩
  · exact ⟨rfl, rfl, rfl, rfl⟩

/-- A show that completes (R16) with none behind it leaves the screen IDLE, its slot empty. -/
theorem House.complete_idle (n : Screen) (h : House) (waiting : (h.ctl n).waiting = none) :
    ((h.complete n).ctl n).state = .idle ∧ ((h.complete n).ctl n).running = none
      ∧ ((h.complete n).ctl n).halted = (h.ctl n).halted
      ∧ ((h.complete n).ctl n).record.completed = (h.ctl n).record.completed
      ∧ ((h.complete n).ctl n).record.outcome = (if (h.ctl n).record.faults = 0 then .complete else .completeWithFaults)
      ∧ (h.complete n).line n = h.line n := by
  unfold House.complete House.notifyDone
  extract_lets h1
  have ctl : (h1.notify .showDone (showDoneFields n (h1.ctl n).record)).ctl n = { h.ctl n with
      record := { (h.ctl n).record with
        outcome := if (h.ctl n).record.faults = 0 then .complete else .completeWithFaults } } := House.onCtl_ctl ..
  have line : (h1.notify .showDone (showDoneFields n (h1.ctl n).record)).line n = h.line n := rfl
  generalize h1.notify .showDone _ = h2 at *
  have empty : ((h2.emptySlot n).ctl n).waiting = none := by rw [House.emptySlot_ctl, ctl]; exact waiting
  obtain ⟨k, e⟩ := House.promote_idle n (h2.emptySlot n) empty
  rw [e, House.promote_idle_line n _ empty, House.emptySlot_line, line, House.emptySlot_ctl, ctl]
  exact ⟨rfl, rfl, rfl, rfl, rfl, rfl⟩

/-- A show that completes gives its screen to the one that waits (R16). -/
theorem House.complete_promoted (n : Screen) (h : House) (d : ShowDesc) (waiting : (h.ctl n).waiting = some d) :
    House.promoted n d h (h.complete n) ∧ ((h.complete n).ctl n).halted = (h.ctl n).halted := by
  unfold House.complete House.notifyDone
  extract_lets h1
  have ctl : (h1.notify .showDone (showDoneFields n (h1.ctl n).record)).ctl n = { h.ctl n with
      record := { (h.ctl n).record with
        outcome := if (h.ctl n).record.faults = 0 then .complete else .completeWithFaults } } := House.onCtl_ctl ..
  have same : House.SameCues h (h1.notify .showDone (showDoneFields n (h1.ctl n).record)) := ⟨rfl, rfl, rfl, rfl⟩
  generalize h1.notify .showDone _ = h2 at *
  obtain ⟨promoted, halted⟩ := House.promote_promoted n (h2.emptySlot n) d (by
    rw [House.emptySlot_ctl, ctl]; exact waiting)
  refine ⟨House.promoted_congr (same.trans (House.emptySlot_sameCues ..)) promoted, ?_⟩
  rw [halted, House.emptySlot_ctl, ctl]

/-- A show whose entries are finished waits for its H: it is asked for, or under way already (R15). -/
theorem House.finish_waits (n : Screen) (h : House) (open' : (h.line n).showHalt = true ∨ (h.ctl n).halted = false) :
    (∃ k, (h.finish n).ctl n = { h.ctl n with finalHalt := true, countdown := k })
      ∧ ((h.finish n).line n).showHalt = true := by
  unfold House.finish
  split_ifs with under halted
  · exact ⟨⟨_, by rw [House.refreshCountdown_self, House.onCtl_ctl]⟩, under⟩
  · rcases open' with o | o
    · exact absurd o under
    · rw [o] at halted; exact absurd halted Bool.false_ne_true
  · exact ⟨⟨_, by rw [House.askShow_ctl, House.refreshCountdown_self, House.onCtl_ctl]⟩, House.askShow_showHalt ..⟩

/-- A show whose entries are finished under a halted picture completes (R15). -/
theorem House.finish_completes (n : Screen) (h : House) (under : (h.line n).showHalt = false)
    (halted : (h.ctl n).halted = true) : h.finish n = h.complete n := by
  unfold House.finish
  rw [if_neg (by rw [under]; exact Bool.false_ne_true), if_pos halted]

/-- The current entry of a running show ends (R15, R16). -/
theorem House.entryEnd_ended (n : Screen) (h : House) (d : ShowDesc) (i : Nat) (state : (h.ctl n).state = .showing)
    (running : (h.ctl n).running = some d) (current : (h.ctl n).record.current = some i) :
    House.entryEnded n d i h (h.entryEnd n) := by
  generalize e1 : (h.onCtl n fun c => { c with
      counting := .off, stallTimer := none, generator := none
      record := { c.record with completed := c.record.completed + 1 } }) = h1
  have ctl : h1.ctl n = { h.ctl n with
      counting := .off, stallTimer := none, generator := none
      record := { (h.ctl n).record with completed := (h.ctl n).record.completed + 1 } } := by
    rw [← e1, House.onCtl_ctl]
  have line : h1.line n = h.line n := by rw [← e1]; rfl
  have same : House.SameCues h h1 := by rw [← e1]; exact ⟨rfl, rfl, rfl, rfl⟩
  have ends : h.entryEnd n = if (h.cue i).last ∨ d.start + d.count ≤ i + 1 then h1.finish n
      else (h1.onCtl n fun c => { c with record := { c.record with current := some (i + 1) } }).beginEntry n (h.phase n) := by
    unfold House.entryEnd
    dsimp only
    rw [running, current, e1]
    rfl
  unfold House.entryEnded
  refine ⟨fun notLast => ?_, fun last waits => ?_, fun last under halted waiting => ?_, fun next last under halted waiting => ?_⟩
  · rw [ends, if_neg (show ¬ ((h.cue i).last = true ∨ _) from notLast)]
    generalize e2 : House.onCtl n _ h1 = h2
    have ctl2 : h2.ctl n = { h1.ctl n with record := { (h1.ctl n).record with current := some (i + 1) } } := by
      rw [← e2, House.onCtl_ctl]
    have same2 : House.SameCues h1 h2 := by rw [← e2]; exact ⟨rfl, rfl, rfl, rfl⟩
    obtain ⟨begun, onward⟩ := House.beginEntry_begun n (h.phase n) h2 d (i + 1) (by rw [ctl2, ctl]; exact running)
      (by rw [ctl2])
    exact ⟨House.entryBegun_congr (same.trans same2) begun, by rw [onward.completed, ctl2, ctl]⟩
  · rw [ends, if_pos (show (h.cue i).last = true ∨ _ from last)]
    obtain ⟨⟨k, e⟩, under⟩ := House.finish_waits n h1 (by rw [line, ctl]; exact waits)
    rw [e, ctl]
    exact ⟨state, rfl, under, rfl⟩
  · rw [ends, if_pos (show (h.cue i).last = true ∨ _ from last), House.finish_completes n h1 (by rw [line]; exact under) (by rw [ctl]; exact halted)]
    obtain ⟨idle, slot, -, completed, outcome, -⟩ := House.complete_idle n h1 (by rw [ctl]; exact waiting)
    exact ⟨idle, slot, by rw [completed, ctl], by rw [outcome, ctl]⟩
  · rw [ends, if_pos (show (h.cue i).last = true ∨ _ from last), House.finish_completes n h1 (by rw [line]; exact under) (by rw [ctl]; exact halted)]
    exact House.promoted_congr same (House.complete_promoted n h1 next (by rw [ctl]; exact waiting)).1

end Machine
end Sys2Proof
end


-- ==== Sys2Proof/Proofs/Shows.lean ====
section
/-! The requests and events of shows (sections 1.2, 1.4, 1.5): loading, starting, the end of an entry, release and
promotion. -/

set_option autoImplicit false

namespace Sys2Proof
namespace Machine

/-! ### What a change of phase leaves alone -/

/-- A released order touches tickets, orders and notices only (R147). -/
theorem House.releaseOne_rest (k : Nat) (h : House) : h.releaseOne k = { h with
    out := (h.releaseOne k).out, orders := (h.releaseOne k).orders, stations := (h.releaseOne k).stations,
    nextJoin := (h.releaseOne k).nextJoin, nextCook := (h.releaseOne k).nextCook } := by
  unfold House.releaseOne
  split
  · rfl
  · next o _ =>
    dsimp only
    split
    · rw [House.foldl_fillSlots_rest, House.orderStateNotice_rest, House.joinTickets_rest]
      rfl
    · rfl

theorem House.releaseOn_rest (screens : List Screen) (h : House) : h.releaseOn screens = { h with
    out := (h.releaseOn screens).out, orders := (h.releaseOn screens).orders,
    stations := (h.releaseOn screens).stations, nextJoin := (h.releaseOn screens).nextJoin,
    nextCook := (h.releaseOn screens).nextCook } := by
  unfold House.releaseOn
  generalize List.map Order.number _ = ks
  induction ks generalizing h with
  | nil => rfl
  | cons k rest ih => rw [List.foldl_cons, ih, House.releaseOne_rest]

/-- While nobody's wait is over, publishing a phase changes no clip record and no queue. -/
theorem House.publish_calm {n : Screen} {h : House} (nobody : h.nobodyExpires n) (old : Phase) :
    (h.publish n old).clips = h.clips ∧ (h.publish n old).queues = h.queues
      ∧ ((h.publish n old).players = h.players ∨ (h.publish n old).players = (h.wakePlayer n).players) := by
  unfold House.publish House.phaseChanged House.refreshAdmission
  split
  · exact ⟨rfl, rfl, .inl rfl⟩
  · rw [House.onLot_clips, House.onLot_queues, House.onLot_players, House.releaseOn_rest]
    dsimp only
    rw [House.wakePlayer_rest nobody]
    exact ⟨rfl, rfl, .inr rfl⟩

/-- What show `n` keeps, said of the house that a request finds once it is taken. -/
theorem House.showKept.of_taken {n : Screen} {h : House} {s : State} (x : House.showKept n h s.taken.house) :
    House.showKept n h s.house :=
  ⟨x.settings.trans s.taken_settings, x.clock, x.others⟩

/-! ### Loading (R4, R5) -/

/-- A show that takes the running slot (R5): ARMED under a zeroed record, before its start time is judged. -/
def House.armShow (n : Screen) (d : ShowDesc) (h : House) : House :=
  ((((h.takeRefs (h.startClips d)).onCtl n (ShowCtl.armed d)).refreshCountdown n).publish n (h.phase n))

theorem House.placeShow_open {n : Screen} {h : House} (slot : h.slotOpen n = true) (d : ShowDesc) :
    h.placeShow n d = (h.armShow n d).evalStart n := by
  unfold House.placeShow
  rw [if_pos slot]
  rfl

theorem House.placeShow_pending {n : Screen} {h : House} (slot : h.slotOpen n = false) (d : ShowDesc) :
    h.placeShow n d = (h.takeRefs (h.startClips d)).onCtl n fun c => { c with waiting := some d } := by
  unfold House.placeShow
  rw [if_neg (by rw [slot]; exact Bool.false_ne_true)]

theorem House.armShow_ctl (n : Screen) (d : ShowDesc) (h : House) :
    ∃ k, (h.armShow n d).ctl n = { (h.ctl n).armed d with countdown := k } := by
  unfold House.armShow
  rw [House.publish_ctl, House.takeRefs_eq]
  exact House.refreshCountdown_onCtl ..

theorem House.armShow_sameCues (n : Screen) (d : ShowDesc) (h : House) : House.SameCues h (h.armShow n d) := by
  unfold House.armShow
  refine House.SameCues.trans ?_ (House.publish_sameCues ..)
  rw [House.takeRefs_eq]
  exact ⟨rfl, rfl, rfl, rfl⟩

theorem House.armShow_clips {n : Screen} {h : House} (nobody : h.nobodyExpires n) (d : ShowDesc) :
    (h.armShow n d).clips = (h.takeRefs (h.startClips d)).clips := by
  unfold House.armShow
  refine (House.publish_calm ?_ _).1
  rw [House.takeRefs_eq]
  exact nobody

theorem House.armShow_stage (n : Screen) (d : ShowDesc) (h : House) : House.Stage h (h.armShow n d) :=
  .trans (House.takeRefs_stage ..) (.trans (.ctl ..) (.trans (House.refreshCountdown_stage ..) (House.publish_stage ..)))

theorem House.armShow_apart (n m : Screen) [Fact (n ≠ m)] (d : ShowDesc) (h : House) : House.Apart m h (h.armShow n d) := by
  unfold House.armShow
  refine .trans ?_ (House.publish_apart ..)
  refine .trans ?_ (House.refreshCountdown_apart ..)
  refine .trans ?_ (.ctl ..)
  rw [House.takeRefs_eq]
  exact .clips ..

/-- A show placed in the running slot keeps what a change of its screen's show keeps. -/
theorem House.placeShow_kept (n : Screen) (d : ShowDesc) (h : House) :
    House.showKept n ((h.armShow n d).evalStart n) h :=
  House.showKept_of (.trans (House.armShow_stage ..) (House.evalStart_stage ..)) fun _ ne =>
    haveI := ne
    .trans (House.armShow_apart ..) (House.evalStart_apart ..)

/-- Settles O24. -/
theorem showLoadTakesSlot : Obligations.ShowLoadTakesSlot := by
  intro tag screen showId start count rate policy mode day ms s n a named
  refine ⟨fun bad => houseRequest_refused a ?_, fun d loaded => ⟨fun timed unset => houseRequest_refused a ?_, fun known => ?_⟩⟩
  · unfold House.showLoad
    rw [named, bad]
    rfl
  · unfold House.showLoad
    rw [loaded, named]
    exact if_pos ⟨timed, unset⟩
  have first : ¬ (d.mode.timed = true ∧ s.taken.house.timeUnset = true) := fun ⟨timed, unset⟩ => by
    rw [show s.taken.house.timeUnset = false from known timed] at unset
    exact absurd unset Bool.false_ne_true
  refine ⟨fun closed pending => houseRequest_refused a ?_, fun room => ?_⟩
  · unfold House.showLoad
    rw [loaded, named]
    dsimp only
    rw [if_neg first]
    exact if_pos ⟨fun slot => absurd (closed.symm.trans slot) Bool.false_ne_true, pending⟩
  have second : ¬ (¬ s.taken.house.slotOpen n = true ∧ (s.taken.house.ctl n).waiting.isSome = true) := fun ⟨closed, pending⟩ => by
    rcases room with slot | empty
    · exact closed slot
    · rw [show (s.taken.house.ctl n).waiting = none from empty] at pending
      exact absurd pending Bool.false_ne_true
  refine ⟨fun i low high before fails => houseRequest_refused a ?_, fun all => ?_⟩
  · have found : (List.range' d.start d.count).find? (fun j => !s.taken.house.loadable j) = some i := by
      refine List.find?_range'_eq_some.2 ⟨?_, List.mem_range'_1.2 ⟨low, high⟩, fun j from' below => ?_⟩
      · rw [show s.taken.house.loadable i = false from fails]; rfl
      · rw [show s.taken.house.loadable j = true from before j from' below]; rfl
    unfold House.showLoad
    rw [loaded, named]
    dsimp only
    rw [if_neg first, if_neg second, found]
    rfl
  have placed : s.taken.house.showLoad screen (loadedShow showId start count rate policy mode day ms) =
      (s.taken.house.placeShow n d, ok [u8 (if s.taken.house.slotOpen n then 1 else 2)]) := by
    have passes : (List.range' d.start d.count).find? (fun j => !s.taken.house.loadable j) = none :=
      List.find?_eq_none.2 fun j m => by
        obtain ⟨low, high⟩ := List.mem_range'_1.1 m
        rw [show s.taken.house.loadable j = true from all j low high]
        exact Bool.false_ne_true
    unfold House.showLoad
    rw [loaded, named]
    dsimp only
    rw [if_neg first, if_neg second, passes]
  refine ⟨fun closed => houseRequest_accepted a ?_, fun slot command => ?_, fun slot t timed => ?_⟩
  · rw [placed, House.placeShow_pending (h := s.taken.house) closed, if_neg (by
      rw [show s.taken.house.slotOpen n = false from closed]; exact Bool.false_ne_true)]
    rfl
  all_goals
    rw [House.placeShow_open (h := s.taken.house) slot, if_pos (show s.taken.house.slotOpen n = true from slot)] at placed
    have kept := (House.placeShow_kept n d s.taken.house).of_taken
    have same := House.armShow_sameCues n d s.taken.house
    have clips := fun nobody : s.house.nobodyExpires n => House.armShow_clips (h := s.taken.house) nobody d
    obtain ⟨k, ctl⟩ := House.armShow_ctl n d s.taken.house
    generalize s.taken.house.armShow n d = h1 at *
    obtain ⟨running, waiting, -, onCommand, atTime⟩ := House.evalStart_armed n h1 d (by rw [ctl]; rfl) (by rw [ctl]; rfl)
    refine ⟨_, houseRequest_accepted a placed, ?_⟩
  · rw [onCommand command] at running kept ⊢
    exact ⟨by rw [ctl]; rfl, running, by rw [ctl]; rfl, by rw [ctl]; rfl, kept, fun nobody =>
      (clips nobody).trans (House.takeRefs_clips_congr (a := s.house) (b := s.taken.house) rfl _)⟩
  · obtain ⟨before, reached⟩ := atTime t timed
    rw [show h1.clock = s.house.clock from same.clock] at before reached
    refine ⟨running, by rw [waiting, ctl]; rfl, kept, fun early => ?_, fun come => ?_⟩
    · rw [before early]
      exact ⟨by rw [ctl]; rfl, by rw [ctl]; rfl, fun nobody =>
        (clips nobody).trans (House.takeRefs_clips_congr (a := s.house) (b := s.taken.house) rfl _)⟩
    · exact ⟨House.entryBegun_congr same (reached come).1, (reached come).2⟩

/-! ### Starting (R8 to R11) -/

theorem House.startTimeReached_starts {n : Screen} {h : House} {d : ShowDesc} {t : SiteTime}
    (state : (h.ctl n).state = .armed) (running : (h.ctl n).running = some d) (mode : d.mode = .atTime t) :
    h.startTimeReached n = h.startShow n ((h.clock.total - t.total) / 1000) := by
  unfold House.startTimeReached
  split
  next d' _ found =>
    obtain rfl : d = d' := Option.some.inj (running.symm.trans found)
    rw [mode]
  next other => exact absurd running (other d state)

theorem House.startShow_kept (n : Screen) (late : Nat) (h : House) : House.showKept n (h.startShow n late) h :=
  House.showKept_of (House.startShow_stage ..) fun _ ne =>
    haveI := ne
    House.startShow_apart ..

theorem House.holdExpired_kept (n : Screen) (h : House) : House.showKept n (h.holdExpired n) h :=
  House.showKept_of (House.holdExpired_stage ..) fun _ ne =>
    haveI := ne
    House.holdExpired_apart ..

/-- The hold timer ends LANE_WAIT (R11): its seconds join the record, and the entry runs. -/
theorem House.holdExpired_ctl (n : Screen) (h : House) : ∃ start dropped countdown,
    (h.holdExpired n).ctl n = { h.ctl n with
      state := .showing, finalHalt := false, silentRaised := false, counting := .off, stallTimer := none,
      timebase := 0, holdElapsed := 0, generator := none, countdown := countdown, waitLeft := none, waitSpent := 0
      record := { (h.ctl n).record with
        progress := 0, featureStart := start, clipsDropped := dropped
        laneHoldSecs := (h.ctl n).record.laneHoldSecs + (h.ctl n).waitSpent / 1000 } } := by
  unfold House.holdExpired House.leaveWait
  generalize e : House.endWait n _ = h1
  have ctl : h1.ctl n = { h.ctl n with
      waitLeft := none, waitSpent := 0
      record := { (h.ctl n).record with
        laneHoldSecs := (h.ctl n).record.laneHoldSecs + (h.ctl n).waitSpent / 1000 } } := by
    rw [← e, House.endWait, House.onCtl_ctl, House.notify_ctl]
  obtain ⟨start, dropped, countdown, run⟩ := House.runEntry_ctl n .gather h1
  exact ⟨start, dropped, countdown, by rw [run, ctl]⟩

/-- Settles O25. -/
theorem showsStart : Obligations.ShowsStart := by
  intro s n
  refine ⟨fun tag screen a named => ⟨fun d state running => ?_, fun other => ?_⟩, fun d t state running mode => ?_, fun state => ?_⟩
  · obtain ⟨begun, late, -⟩ := House.startShow_begun n 0 s.taken.house d running
    exact ⟨_, screenRequest_accepted a named (if_pos state), begun, late, (House.startShow_kept ..).of_taken⟩
  · exact screenRequest_refused a named (if_neg other)
  · obtain ⟨begun, late, -⟩ := House.startShow_begun n ((s.house.clock.total - t.total) / 1000) s.house d running
    exact ⟨_, houseEvent_of (House.startTimeReached_starts state running mode), begun, late, House.startShow_kept ..⟩
  · obtain ⟨start, dropped, countdown, ctl⟩ := House.holdExpired_ctl n s.house
    refine ⟨_, houseEvent_of (if_pos state), ?_⟩
    rw [ctl]
    exact ⟨rfl, rfl, rfl, rfl, rfl, rfl, House.holdExpired_kept ..⟩

/-! ### The end of an entry (R13 to R16) -/

theorem House.entryEnd_kept (n : Screen) (h : House) : House.showKept n (h.entryEnd n) h :=
  House.showKept_of (House.entryEnd_stage ..) fun _ ne =>
    haveI := ne
    House.entryEnd_apart ..

/-- An entry ends as `House.entryEnded` says, whatever its counts were just before. -/
theorem House.entryEnded_congr {a b : House} (same : House.SameCues a b) {n : Screen} {d : ShowDesc} {i : Nat} {h : House}
    (line : b.line n = a.line n) (halted : (b.ctl n).halted = (a.ctl n).halted)
    (waiting : (b.ctl n).waiting = (a.ctl n).waiting)
    (completed : (b.ctl n).record.completed = (a.ctl n).record.completed)
    (faults : (b.ctl n).record.faults = (a.ctl n).record.faults)
    (x : House.entryEnded n d i b h) : House.entryEnded n d i a h := by
  have last : b.lastEntry d i = a.lastEntry d i := by
    unfold House.lastEntry
    rw [House.cue_congr same.cues]
  unfold House.entryEnded at *
  rw [last, line, halted, waiting, completed, faults] at x
  obtain ⟨next, waits, completes, promotes⟩ := x
  exact ⟨fun notLast => ⟨House.entryBegun_congr same (next notLast).1, (next notLast).2⟩, waits, completes,
    fun other l u k w => House.promoted_congr same (promotes other l u k w)⟩

theorem House.inEntry.entry {h : House} {n : Screen} {k : EntryKind} {d : ShowDesc} {i : Nat} (x : h.inEntry n k d i) :
    h.entry n = h.cue i := by
  obtain ⟨-, -, -, current, -⟩ := x
  unfold House.entry
  rw [current]

theorem House.inEntry.running {h : House} {n : Screen} {k : EntryKind} {d : ShowDesc} {i : Nat} (x : h.inEntry n k d i) :
    h.running n k = true := by
  have entry := x.entry
  obtain ⟨state, unfinished, -, -, kind⟩ := x
  exact (House.running_iff h n k).2 ⟨state, by rw [entry]; exact kind, unfinished⟩

/-- An entry whose show still runs ends, after a change of its counts (R15). -/
theorem House.entryEnd_after {n : Screen} {h : House} {k : EntryKind} {d : ShowDesc} {i : Nat} (inside : h.inEntry n k d i)
    (f : ShowCtl → ShowCtl) (state : (f (h.ctl n)).state = (h.ctl n).state)
    (running : (f (h.ctl n)).running = (h.ctl n).running) (waiting : (f (h.ctl n)).waiting = (h.ctl n).waiting)
    (halted : (f (h.ctl n)).halted = (h.ctl n).halted)
    (current : (f (h.ctl n)).record.current = (h.ctl n).record.current)
    (completed : (f (h.ctl n)).record.completed = (h.ctl n).record.completed)
    (faults : (f (h.ctl n)).record.faults = (h.ctl n).record.faults) :
    House.entryEnded n d i h ((h.onCtl n f).entryEnd n) ∧ House.showKept n ((h.onCtl n f).entryEnd n) h := by
  obtain ⟨isShowing, -, itsShow, itsEntry, -⟩ := inside
  have ended := House.entryEnd_ended n (h.onCtl n f) d i (by rw [House.onCtl_ctl, state]; exact isShowing)
    (by rw [House.onCtl_ctl, running]; exact itsShow) (by rw [House.onCtl_ctl, current]; exact itsEntry)
  refine ⟨House.entryEnded_congr (a := h) (b := h.onCtl n f) ⟨rfl, rfl, rfl, rfl⟩ rfl ?_ ?_ ?_ ?_ ended, ?_⟩
  · rw [House.onCtl_ctl, halted]
  · rw [House.onCtl_ctl, waiting]
  · rw [House.onCtl_ctl, completed]
  · rw [House.onCtl_ctl, faults]
  · exact House.showKept_of (.trans (.ctl ..) (House.entryEnd_stage ..)) fun _ ne =>
      haveI := ne
      .trans (.ctl ..) (House.entryEnd_apart ..)

/-- Settles O26. -/
theorem holdEntryEnds : Obligations.HoldEntryEnds := by
  intro s n
  refine ⟨fun d i inside => ⟨fun tag screen a named => ?_, ?_⟩, fun tag screen a named other => ?_⟩
  · obtain ⟨state, -, running, current, -⟩ := id inside
    exact ⟨_, screenRequest_accepted a named (if_pos (show s.taken.house.running n .hold = true from inside.running)),
      House.entryEnd_ended n s.taken.house d i state running current, (House.entryEnd_kept ..).of_taken⟩
  · exact ⟨_, houseEvent_of (if_pos inside.running), House.entryEnd_after inside _ rfl rfl rfl rfl rfl rfl rfl⟩
  · refine screenRequest_refused a named (if_neg fun runs => ?_)
    obtain ⟨state, kind, unfinished⟩ := (House.running_iff s.house n .hold).1 runs
    rcases other with e | e | e
    · exact e state
    · exact e kind
    · exact absurd (unfinished.symm.trans e) Bool.false_ne_true

/-! ### Frames (R13, R40, R179) -/

theorem House.onCtl_onCtl (n : Screen) (f g : ShowCtl → ShowCtl) (h : House) :
    (h.onCtl n f).onCtl n g = h.onCtl n fun c => g (f c) := by
  unfold House.onCtl
  refine congrArg (fun v => { h with shows := v }) (table_ext _ _ fun m => ?_)
  simp only [tget_tmod]
  split_ifs <;> rfl

/-- A frame before the last one is counted, and nothing else happens (R40). -/
theorem House.addFrame_counts {n : Screen} {h : House} {k : EntryKind} {d : ShowDesc} {i : Nat} (inside : h.inEntry n k d i)
    (f : ShowCtl → ShowCtl) (record : (f (h.ctl n)).record = (h.ctl n).record)
    (more : (h.ctl n).record.progress + 1 < (h.cue i).length) :
    (h.onCtl n f).addFrame n = h.onCtl n fun c =>
      { f c with record := { (f c).record with progress := (f c).record.progress + 1 } } := by
  have entry : (h.onCtl n f).entry n = h.cue i := by
    obtain ⟨-, -, -, current, -⟩ := inside
    unfold House.entry
    rw [House.onCtl_ctl, record, current]
    rfl
  unfold House.addFrame
  dsimp only
  rw [entry, House.onCtl_ctl, House.onCtl_ctl, record, if_neg (Nat.not_le.2 more), House.onCtl_onCtl]

/-- The frame that brings an entry to its length ends it (R13, R40). -/
theorem House.addFrame_ends {n : Screen} {h : House} {k : EntryKind} {d : ShowDesc} {i : Nat} (inside : h.inEntry n k d i)
    (f : ShowCtl → ShowCtl) (record : (f (h.ctl n)).record = (h.ctl n).record)
    (last : (h.cue i).length ≤ (h.ctl n).record.progress + 1) :
    (h.onCtl n f).addFrame n = (h.onCtl n fun c =>
      { f c with record := { (f c).record with progress := (f c).record.progress + 1 } }).entryEnd n := by
  have entry : (h.onCtl n f).entry n = h.cue i := by
    obtain ⟨-, -, -, current, -⟩ := inside
    unfold House.entry
    rw [House.onCtl_ctl, record, current]
    rfl
  unfold House.addFrame
  dsimp only
  rw [entry, House.onCtl_ctl, House.onCtl_ctl, record, if_pos last, House.onCtl_onCtl]

/-- A pulse while frame counting is on restarts the stall timer, and is a frame (R40). -/
theorem House.pulse_counts {n : Screen} {h : House} (f : ShowCtl → ShowCtl) (counts : (f (h.ctl n)).counting ≠ .off) :
    (h.onCtl n f).pulse n = (h.onCtl n fun c =>
      { f c with counting := .pulses, stallTimer := some Config.stallMs, timebase := 0 }).addFrame n := by
  unfold House.pulse
  rw [House.onCtl_ctl, if_neg counts, House.onCtl_onCtl]

/-- A pulse of the generator takes a frame's thousandths from it (R179). -/
theorem House.generatedPulse_pulse {n : Screen} {h : House} {g : Nat} (rehearses : (h.ctl n).rehearsal = true)
    (generator : (h.ctl n).generator = some g) :
    h.generatedPulse n = (h.onCtl n fun c => { c with generator := some (g - 1000) }).pulse n := by
  unfold House.generatedPulse
  rw [generator]
  exact if_pos rehearses

/-- Settles O27. -/
theorem framesCountProgress : Obligations.FramesCountProgress := by
  intro s n k d i inside
  have live : (s.house.ctl n).rehearsal = false → (s.house.ctl n).counting ≠ .off →
      (fun h : House => if (h.ctl n).rehearsal then h else h.pulse n) s.house = (s.house.onCtl n fun c =>
        { c with counting := .pulses, stallTimer := some Config.stallMs, timebase := 0 }).addFrame n :=
    fun live counts => by
      dsimp only
      rw [if_neg (by rw [live]; exact Bool.false_ne_true)]
      exact if_neg counts
  have generated : ∀ g, (s.house.ctl n).rehearsal = true → (s.house.ctl n).generator = some g →
      (s.house.ctl n).counting ≠ .off → s.house.generatedPulse n = (s.house.onCtl n fun c =>
        { c with generator := some (g - 1000), counting := .pulses, stallTimer := some Config.stallMs, timebase := 0
                  }).addFrame n := fun g rehearses generator counts => by
    rw [House.generatedPulse_pulse rehearses generator, House.pulse_counts _ counts]
  have skips : k = .skip → s.house.running n .skip = true := fun e => e ▸ inside.running
  refine ⟨fun rehearses => houseEvent_of (if_pos rehearses), fun more => ⟨fun off counts => houseEvent_of ?_,
    fun g rehearses generator counts => houseEvent_of ?_, fun timebase => houseEvent_of ?_, fun skip => houseEvent_of ?_⟩,
    fun last => ⟨fun off counts => ?_, fun rehearses generator counts => ?_, fun timebase => ?_, fun skip => ?_⟩⟩
  · exact (live off counts).trans (House.addFrame_counts inside _ rfl more)
  · exact (generated g rehearses generator counts).trans (House.addFrame_counts inside _ rfl more)
  · exact (if_pos timebase).trans (House.addFrame_counts inside _ rfl more)
  · exact (if_pos (skips skip)).trans (House.addFrame_counts inside _ rfl more)
  · exact ⟨_, houseEvent_of ((live off counts).trans (House.addFrame_ends inside _ rfl last)),
      House.entryEnd_after inside _ rfl rfl rfl rfl rfl rfl rfl⟩
  · obtain ⟨g, generator⟩ := Option.isSome_iff_exists.1 generator
    exact ⟨_, houseEvent_of ((generated g rehearses generator counts).trans (House.addFrame_ends inside _ rfl last)),
      House.entryEnd_after inside _ rfl rfl rfl rfl rfl rfl rfl⟩
  · exact ⟨_, houseEvent_of ((if_pos timebase).trans (House.addFrame_ends inside _ rfl last)),
      House.entryEnd_after inside _ rfl rfl rfl rfl rfl rfl rfl⟩
  · exact ⟨_, houseEvent_of ((if_pos (skips skip)).trans (House.addFrame_ends inside _ rfl last)),
      House.entryEnd_after inside _ rfl rfl rfl rfl rfl rfl rfl⟩

/-! ### Release and promotion (R16, R21, R22) -/

theorem House.promote_kept (n : Screen) (h : House) : House.showKept n (h.promote n) h :=
  House.showKept_of (House.promote_stage ..) fun _ ne =>
    haveI := ne
    House.promote_apart ..

theorem House.emptySlot_kept (n : Screen) (h : House) : House.showKept n (h.emptySlot n) h :=
  House.showKept_of (House.emptySlot_stage ..) fun _ ne =>
    haveI := ne
    House.emptySlot_apart ..

theorem House.showKept.trans {n : Screen} {a b c : House} (x : House.showKept n b a) (y : House.showKept n c b) :
    House.showKept n c a :=
  ⟨y.settings.trans x.settings, y.clock.trans x.clock, fun m ne => by
    obtain ⟨ctl, line, gain⟩ := y.others m ne
    obtain ⟨ctl', line', gain'⟩ := x.others m ne
    exact ⟨ctl.trans ctl', line.trans line', gain.trans gain'⟩⟩

theorem House.fade_idle {n : Screen} {h : House} (state : (h.ctl n).state = .idle) : h.fade n = false := by
  unfold House.fade; rw [state]

theorem House.fade_armed {n : Screen} {h : House} (state : (h.ctl n).state = .armed) : h.fade n = false := by
  unfold House.fade; rw [state]

/-- Settles O30. -/
theorem releaseAndPromote : Obligations.ReleaseAndPromote := by
  intro tag screen s n a named
  have ctl := House.emptySlot_ctl n s.taken.house
  have kept := (House.emptySlot_kept n s.taken.house).trans (House.promote_kept n _)
  refine ⟨fun held => ⟨fun waiting => ?_, fun d waiting => ?_⟩, fun other => ?_, fun slot d waiting => ?_,
    fun slot waiting => ?_, fun closed => ?_⟩
  · refine ⟨_, screenRequest_accepted a named (if_pos held), ?_⟩
    obtain ⟨k, e⟩ := House.promote_idle n (s.taken.house.emptySlot n) (by rw [ctl]; exact waiting)
    exact ⟨by rw [e], by rw [e, ctl], House.fade_idle (by rw [e]), kept.of_taken⟩
  · refine ⟨_, screenRequest_accepted a named (if_pos held), ?_⟩
    obtain ⟨promoted, -⟩ := House.promote_promoted n (s.taken.house.emptySlot n) d (by rw [ctl]; exact waiting)
    exact ⟨House.promoted_congr (House.emptySlot_sameCues n s.taken.house) promoted, House.fade_armed, kept.of_taken⟩
  · exact screenRequest_refused a named (if_neg other)
  · refine ⟨_, screenRequest_accepted a named ?_, (House.promote_promoted n s.taken.house d waiting).1,
      (House.promote_kept ..).of_taken⟩
    exact (if_pos slot).trans (if_pos (by rw [show (s.taken.house.ctl n).waiting = some d from waiting]; rfl))
  · refine screenRequest_refused a named ((if_pos slot).trans (if_neg ?_))
    rw [show (s.taken.house.ctl n).waiting = none from waiting]
    exact Bool.false_ne_true
  · exact screenRequest_refused a named (if_neg (by
      rw [show s.taken.house.slotOpen n = false from closed]; exact Bool.false_ne_true))

end Machine
end Sys2Proof
end


-- ==== Sys2Proof/Proofs/Stopping.lean ====
section
/-! Faults of a show, STOPPING, and SHOW ABORT (sections 1.6 and 1.7). -/

set_option autoImplicit false

namespace Sys2Proof
namespace Machine

/-! ### The abandoned exchange (R38) -/

@[simp] theorem House.abandon_ctl (n m : Screen) (h : House) : (h.abandon n).ctl m = h.ctl m := by
  unfold House.abandon
  extract_lets h1
  cases (h.line n).unit.exchange? with
  | none => rfl
  | some x => dsimp only; split_ifs <;> rfl

@[simp] theorem House.abandon_gain (n m : Screen) (h : House) : (h.abandon n).gain m = h.gain m := by
  unfold House.abandon
  extract_lets h1
  cases (h.line n).unit.exchange? with
  | none => rfl
  | some x => dsimp only; split_ifs <;> rfl

/-- The cue line whose exchange is abandoned is QUIET, and a line being sent goes out whole. -/
theorem House.abandon_line (n : Screen) (h : House) : (h.abandon n).line n = { h.line n with
    unit := .quiet, waitingPlace := none, sendingLines := (h.line n).sendingLines.take 1, autoDue := none } := by
  unfold House.abandon
  extract_lets h1
  have line : h1.line n = { h.line n with
      unit := .quiet, waitingPlace := none, sendingLines := (h.line n).sendingLines.take 1, autoDue := none } :=
    House.onLine_line ..
  cases (h.line n).unit.exchange? with
  | none => exact line
  | some x => dsimp only; split_ifs <;> exact line

/-- Abandoning touches the cue line and sends a notice. -/
theorem House.abandon_rest (n : Screen) (h : House) :
    h.abandon n = { h with lines := (h.abandon n).lines, out := (h.abandon n).out } := by
  unfold House.abandon
  extract_lets h1
  cases (h.line n).unit.exchange? with
  | none => rfl
  | some x => dsimp only; split_ifs <;> rfl

/-! ### STOPPING is entered (R19) -/

theorem House.enterStopping_ctl (n : Screen) (outcome : ShowOutcome) (byAbort : Bool) (h : House) : ∃ k,
    (h.enterStopping n outcome byAbort).ctl n = { h.ctl n with
      state := .stopping, finalHalt := false, stopAbort := byAbort, stopHaltEnded := false, counting := .off,
      stallTimer := none, timebase := 0, waitLeft := none, waitSpent := 0, generator := none, countdown := k
      record := { (h.ctl n).record with outcome := outcome } } := by
  unfold House.enterStopping
  dsimp only
  rw [House.publish_ctl, House.beginExchange_ctl]
  obtain ⟨k, e⟩ := House.refreshCountdown_onCtl n (fun c =>
    { c with
      state := .stopping, finalHalt := false, stopAbort := byAbort, stopHaltEnded := false, counting := .off,
      stallTimer := none, timebase := 0, waitLeft := none, waitSpent := 0, generator := none
      record := { c.record with outcome := outcome } }) (h.abandon n)
  exact ⟨k, e.trans (by rw [House.abandon_ctl])⟩

/-- An attempt keeps the cue line's fault record and its waiting place. -/
theorem House.beginExchange_fault (n : Screen) (pass quiet : Bool) (r : CueRequest) (allowed : Nat) (h : House) :
    ((h.beginExchange n pass quiet r allowed).line n).fault = (h.line n).fault := by
  unfold House.beginExchange House.attempt
  simp only [House.onLine_line]
  split <;> rfl

theorem House.enterStopping_fault (n : Screen) (outcome : ShowOutcome) (byAbort : Bool) (h : House) :
    ((h.enterStopping n outcome byAbort).line n).fault = (h.line n).fault := by
  unfold House.enterStopping
  dsimp only
  rw [House.publish_line, House.beginExchange_fault, House.refreshCountdown_line, House.onCtl_line, House.abandon_line]

/-- STOPPING has its single H under way (R19). -/
theorem House.enterStopping_halt (n : Screen) (outcome : ShowOutcome) (byAbort : Bool) (h : House) :
    House.stoppingHalt n (h.enterStopping n outcome byAbort) := by
  unfold House.stoppingHalt House.enterStopping
  dsimp only
  rw [House.publish_line, House.beginExchange_waitingPlace, House.beginExchange_exchange, House.refreshCountdown_line,
    House.onCtl_line, House.abandon_line]
  exact ⟨rfl, _, rfl, rfl, rfl, rfl, rfl⟩

theorem House.enterStopping_kept (n : Screen) (outcome : ShowOutcome) (byAbort : Bool) (h : House) :
    House.showKept n (h.enterStopping n outcome byAbort) h :=
  House.showKept_of (House.enterStopping_stage ..) fun _ ne =>
    haveI := ne
    House.enterStopping_apart ..

theorem House.fade_stopping {n : Screen} {h : House} (state : (h.ctl n).state = .stopping) : h.fade n = true := by
  unfold House.fade; rw [state]

/-! ### Faults (R17) -/

theorem House.recordFault_ctl (n : Screen) (cause : Cause) (h : House) : (h.recordFault n cause).ctl n =
    { h.ctl n with record := { (h.ctl n).record with
        faults := bumpTo 255 (h.ctl n).record.faults, firstCause := (h.ctl n).record.firstCause.or (some cause) } } :=
  House.onCtl_ctl ..

@[simp] theorem House.recordFault_line (n m : Screen) (cause : Cause) (h : House) :
    (h.recordFault n cause).line m = h.line m := rfl

@[simp] theorem House.recordFault_gain (n m : Screen) (cause : Cause) (h : House) :
    (h.recordFault n cause).gain m = h.gain m := rfl

theorem House.recordFault_kept (n : Screen) (cause : Cause) (h : House) : House.showKept n (h.recordFault n cause) h :=
  House.showKept_of (House.recordFault_stage ..) fun _ ne =>
    haveI := ne
    House.recordFault_apart ..

/-- A fault of a running show that stops it: fatal, or under STOP_ON_FAULT (R17). -/
theorem House.showFault_stops {n : Screen} {h : House} (state : (h.ctl n).state = .showing) {fatal : Bool}
    (stops : fatal = true ∨ ∀ d, (h.ctl n).running = some d → d.policy = .stopOnFault) (cause : Cause) :
    h.showFault n fatal cause = (h.recordFault n cause).enterStopping n .stopped false := by
  unfold House.showFault
  rw [state]
  refine if_pos ?_
  rcases stops with e | policy
  · rw [e]; rfl
  · cases found : (h.ctl n).running with
    | none => exact Bool.or_true _
    | some d =>
      dsimp only
      rw [decide_eq_true (policy d found)]
      exact Bool.or_true _

/-- A fault of a running show under RUN_THROUGH is counted and reported, no more (R17). -/
theorem House.showFault_runs {n : Screen} {h : House} (state : (h.ctl n).state = .showing) {d : ShowDesc}
    (running : (h.ctl n).running = some d) (policy : d.policy = .runThrough) (cause : Cause) :
    h.showFault n false cause = h.recordFault n cause := by
  unfold House.showFault
  rw [state, running]
  dsimp only
  rw [policy]
  rfl

/-- A fault in STOPPING is counted and reported, no more (R17). -/
theorem House.showFault_stopping {n : Screen} {h : House} (state : (h.ctl n).state = .stopping) (fatal : Bool) (cause : Cause) :
    h.showFault n fatal cause = h.recordFault n cause := by
  unfold House.showFault
  rw [state]

/-- A show is stopped by a fault: STOPPING with its single H (R17, R19). -/
theorem House.stoppedBy_enterStopping (n : Screen) (cause : Cause) (h : House) :
    House.stoppedBy n cause h ((h.recordFault n cause).enterStopping n .stopped false) := by
  obtain ⟨k, ctl⟩ := House.enterStopping_ctl n .stopped false (h.recordFault n cause)
  rw [House.recordFault_ctl] at ctl
  refine ⟨by rw [ctl], by rw [ctl], by rw [ctl], by rw [ctl], by rw [ctl], House.fade_stopping (by rw [ctl]),
    House.enterStopping_halt .., (House.recordFault_kept ..).trans (House.enterStopping_kept ..)⟩

/-- What stops a show is read against the house before the step, when the step has changed no fault count yet. -/
theorem House.stoppedBy_congr {a b : House} {n : Screen} {cause : Cause} {h : House} (kept : House.showKept n b a)
    (faults : (b.ctl n).record.faults = (a.ctl n).record.faults)
    (firstCause : (b.ctl n).record.firstCause = (a.ctl n).record.firstCause) (x : House.stoppedBy n cause b h) :
    House.stoppedBy n cause a h := by
  unfold House.stoppedBy at *
  rw [faults, firstCause] at x
  obtain ⟨state, byAbort, outcome, count, first, fade, halt, rest⟩ := x
  exact ⟨state, byAbort, outcome, count, first, fade, halt, kept.trans rest⟩

/-- A change of one Show Controller keeps what a change of its show keeps. -/
theorem House.onCtl_kept (n : Screen) (f : ShowCtl → ShowCtl) (h : House) : House.showKept n (h.onCtl n f) h :=
  House.showKept_of (.ctl ..) fun _ ne =>
    haveI := ne
    .ctl ..

/-- The stall timer of a PLAY hands over to the timebase, and raises the fault (R40). -/
theorem House.pictureStall_faults {n : Screen} {h : House} (counts : (h.ctl n).counting = .pulses)
    (runs : (h.ctl n).stallTimer.isSome = true) : h.pictureStall n =
      (h.onCtl n fun c => { c with counting := .timebase, stallTimer := none, timebase := 0 }).showFault n false
        .pictureStall :=
  if_pos ⟨counts, fun none => by rw [none] at runs; exact absurd runs Bool.false_ne_true⟩

/-- Settles O28. -/
theorem pictureStallIsAFault : Obligations.PictureStallIsAFault := by
  intro s n d counts runs state running
  have stalls := House.pictureStall_faults counts runs
  have kept := House.onCtl_kept n (fun c => { c with counting := .timebase, stallTimer := none, timebase := 0 }) s.house
  have same : House.onCtl n (fun c => { c with counting := .timebase, stallTimer := none, timebase := 0 }) s.house =
      { s.house with shows := tmod s.house.shows n fun c => { c with counting := .timebase, stallTimer := none, timebase := 0 } } :=
    rfl
  have ctl : (s.house.onCtl n fun c => { c with counting := .timebase, stallTimer := none, timebase := 0 }).ctl n =
      { s.house.ctl n with counting := .timebase, stallTimer := none, timebase := 0 } := House.onCtl_ctl ..
  generalize (s.house.onCtl n fun c => { c with counting := .timebase, stallTimer := none, timebase := 0 }) = h1 at *
  refine ⟨fun policy => ⟨_, houseEvent_of (stalls.trans
    (House.showFault_runs (by rw [ctl]; exact state) (by rw [ctl]; exact running) policy .pictureStall)), ?_,
    (kept.trans (House.recordFault_kept ..)).others, ?_, ?_⟩, fun policy => ⟨_, houseEvent_of stalls, ?_⟩⟩
  · rw [same]
    rfl
  · rw [House.recordFault_ctl, ctl]
  · have out : (h1.recordFault n .pictureStall).out = h1.out.push
        { kind := .screenFault, time := h1.clock,
          fields := [u8 (screenCode n), u16 (h1.ctl n).record.showId, u8 Cause.pictureStall.code]
            ++ uOpt 1 (h1.ctl n).record.current } := rfl
    rw [out, ctl, same]
  · rw [House.showFault_stops (by rw [ctl]; exact state) (.inr fun e found => ?_)]
    · exact House.stoppedBy_congr kept (by rw [ctl]) (by rw [ctl]) (House.stoppedBy_enterStopping ..)
    · rw [ctl] at found
      obtain rfl : d = e := Option.some.inj (running.symm.trans found)
      exact policy

/-! ### SHOW ABORT (R20) -/

theorem House.goIdle_ctl (n : Screen) (h : House) : ∃ k, (h.goIdle n).ctl n = { (h.emptySlot n).ctl n with
    state := .idle, countdown := k } := by
  unfold House.goIdle
  dsimp only
  rw [House.publish_ctl]
  exact House.refreshCountdown_onCtl ..

theorem House.endShowExchanges_rest (n : Screen) (h : House) :
    h.endShowExchanges n = { h with lines := (h.endShowExchanges n).lines, out := (h.endShowExchanges n).out } := by
  unfold House.endShowExchanges
  cases (h.line n).unit.exchange? with
  | none => rfl
  | some x =>
    dsimp only
    split_ifs
    · rfl
    · exact House.abandon_rest n h

theorem House.endShowExchanges_ctl (n : Screen) (h : House) : (h.endShowExchanges n).ctl n = h.ctl n := by
  rw [House.endShowExchanges_rest]
  rfl

/-- A DEFERRED order is released when its screen publishes a phase whose row opens its intake (R146, R147). -/
theorem House.publish_released {h0 h : House} {n : Screen} {old : Phase} {o : Order} (same : House.SameKitchen h0 h)
    (r : h0.releasable o) (nobody : h.nobodyExpires n) (itsScreen : o.screen = n) (new : h.phase n ≠ old)
    (opens : (h.row n).intake = .open) : House.released o h0 (h.publish n old) := by
  have woken := House.wakePlayer_rest nobody
  unfold House.publish House.phaseChanged
  rw [if_neg new]
  generalize h.wakePlayer n = h1 at woken ⊢
  have kitchen : House.SameKitchen h h1 := by constructor <;> rw [woken]
  have may : h1.mayReleaseNow o.screen := by
    rw [itsScreen, woken]
    exact .inl opens
  have done := same.released (kitchen.released
    (House.releaseOn_released (kitchen.releasable (same.releasable r)) (List.mem_singleton.2 itsScreen) may))
  exact done.of_tables rfl rfl

theorem House.emptySlot_rest (n : Screen) (h : House) :
    h.emptySlot n = { h with shows := (h.emptySlot n).shows, clips := (h.emptySlot n).clips } := by
  unfold House.emptySlot
  dsimp only
  split
  · rw [House.dropRefs_eq]; rfl
  · rfl

theorem House.goIdle_kept (n : Screen) (h : House) : House.showKept n (h.goIdle n) h :=
  House.showKept_of (House.goIdle_stage ..) fun _ ne =>
    haveI := ne
    House.goIdle_apart ..

theorem House.abort_kept (n : Screen) (h : House) : House.showKept n (h.abort n) h :=
  House.showKept_of (House.abort_stage ..) fun _ ne =>
    haveI := ne
    House.abort_apart ..

/-- A screen that goes to IDLE from a phase that is not DARK releases a DEFERRED order that DARK lets in. -/
theorem House.goIdle_released {h0 h : House} {n : Screen} {o : Order} (same : House.SameKitchen h0 h)
    (r : h0.releasable o) (nobody : h.nobodyExpires n) (itsScreen : o.screen = n) (phase : h.phase n ≠ .dark)
    (opens : (tget h.policy Phase.dark.index).intake = .open) : House.released o h0 (h.goIdle n) := by
  unfold House.goIdle
  dsimp only
  obtain ⟨k, ctl⟩ := House.refreshCountdown_onCtl n (fun c => { c with state := .idle }) (h.emptySlot n)
  have rest : (((h.emptySlot n).onCtl n fun c => { c with state := .idle }).refreshCountdown n) =
      { h with
        shows := (((h.emptySlot n).onCtl n fun c => { c with state := .idle }).refreshCountdown n).shows
        clips := (h.emptySlot n).clips } := by
    rw [House.emptySlot_rest]
    rfl
  generalize (((h.emptySlot n).onCtl n fun c => { c with state := .idle }).refreshCountdown n) = h1 at *
  have dark : h1.phase n = .dark := by
    unfold House.phase
    rw [ctl]
  refine House.publish_released ⟨?_, ?_, ?_, ?_, ?_, ?_⟩ r (House.nobodyExpires_congr (a := h) ?_ ?_ nobody) itsScreen
    (by rw [dark]; exact fun e => phase e.symm) ?_
  case refine_9 =>
    unfold House.row
    rw [dark, show h1.policy = h.policy by rw [rest]]
    exact opens
  case refine_7 => unfold House.queue; rw [rest]
  case refine_8 => rw [rest]
  case refine_1 => rw [rest]; exact same.clock
  case refine_2 => rw [rest]; exact same.items
  case refine_3 => rw [rest]; exact same.stations
  case refine_4 => rw [rest]; exact same.orders
  case refine_5 => rw [rest]; exact same.nextNumber
  case refine_6 => rw [rest]; exact same.policy

/-- The house in which an aborted show has been reported, its screen about to go to IDLE (R20). -/
def House.abortedShow (n : Screen) (h : House) : House :=
  (h.onCtl n fun c => { c with record := { c.record with outcome := .aborted } }).notifyDone n

theorem House.abortedShow_ctl (n : Screen) (h : House) :
    (h.abortedShow n).ctl n = { h.ctl n with record := { (h.ctl n).record with outcome := .aborted } } :=
  House.onCtl_ctl ..

theorem House.abort_armed {n : Screen} {h : House} (state : (h.ctl n).state = .armed) :
    h.abort n = (h.abortedShow n).goIdle n := by
  unfold House.abort; rw [state]; rfl

theorem House.abort_held {n : Screen} {h : House} (state : (h.ctl n).state = .held) : h.abort n = h.goIdle n := by
  unfold House.abort; rw [state]

theorem House.abort_showing {n : Screen} {h : House} (state : (h.ctl n).state = .showing) :
    h.abort n = h.enterStopping n .aborted true := by
  unfold House.abort; rw [state]

/-- SHOW ABORT in LANE_WAIT: the waited seconds join the record, and the show's exchanges end, before the screen goes to
IDLE (R11, R20). -/
theorem House.abort_laneWait {n : Screen} {h : House} (state : (h.ctl n).state = .laneWait) :
    ∃ h1 : House, h.abort n = h1.goIdle n ∧ (h1.ctl n).waiting = (h.ctl n).waiting
      ∧ (h1.ctl n).record.outcome = .aborted := by
  unfold House.abort
  rw [state]
  refine ⟨_, rfl, ?_⟩
  unfold House.notifyDone House.endWait
  rw [House.notify_ctl, House.endShowExchanges_ctl]
  dsimp only
  rw [House.onCtl_ctl, House.onCtl_ctl]
  exact ⟨rfl, rfl⟩

/-- Settles O29. -/
theorem showAbortByState : Obligations.ShowAbortByState := by
  intro tag screen s n a named
  have accepted : ∀ st, (s.house.ctl n).state = st → st ≠ .idle →
      exec (.showAbort tag screen) s = .next (s.replied (s.taken.house.abort n) 0x25 tag []) := fun st state busy =>
    screenRequest_accepted a named (if_neg fun idle => busy (state.symm.trans idle))
  have kept := (House.abort_kept n s.taken.house).of_taken
  refine ⟨fun idle => screenRequest_refused a named (if_pos idle), fun stopping => ?_, fun state => ?_, fun showing => ?_⟩
  · rw [accepted _ stopping (by decide), House.abort, show (s.taken.house.ctl n).state = .stopping from stopping]
  · have busy : (s.house.ctl n).state ≠ .idle := by
      rcases state with e | e | e <;> rw [e] <;> decide
    have idles : ∃ h1 : House, s.taken.house.abort n = h1.goIdle n ∧ (h1.ctl n).waiting = (s.house.ctl n).waiting
        ∧ ((s.house.ctl n).state ≠ .held → (h1.ctl n).record.outcome = .aborted) := by
      rcases state with e | e | e
      · exact ⟨_, House.abort_armed (h := s.taken.house) e, by rw [House.abortedShow_ctl]; rfl, fun _ => by
          rw [House.abortedShow_ctl]⟩
      · obtain ⟨h1, same, waiting, outcome⟩ := House.abort_laneWait (h := s.taken.house) e
        exact ⟨h1, same, waiting, fun _ => outcome⟩
      · exact ⟨_, House.abort_held (h := s.taken.house) e, rfl, fun other => absurd e other⟩
    obtain ⟨h1, same, waiting, outcome⟩ := idles
    obtain ⟨k, ctl⟩ := House.goIdle_ctl n h1
    rw [House.emptySlot_ctl, ← same] at ctl
    refine ⟨_, accepted _ rfl busy, by rw [ctl], by rw [ctl], by rw [ctl]; exact waiting,
      fun other => by rw [ctl]; exact outcome other, House.fade_idle (by rw [ctl]), kept, fun o r nobody its armed opens => ?_⟩
    rw [House.abort_armed (h := s.taken.house) armed]
    refine House.goIdle_released (h0 := s.house) ⟨rfl, rfl, rfl, rfl, rfl, rfl⟩ r nobody its ?_ opens
    unfold House.phase
    rw [House.abortedShow_ctl, show (s.taken.house.ctl n).state = .armed from armed]
    exact (show Phase.gather ≠ Phase.dark by decide)
  · obtain ⟨k, ctl⟩ := House.enterStopping_ctl n .aborted true s.taken.house
    have enters := House.abort_showing (h := s.taken.house) showing
    refine ⟨_, accepted _ showing (by decide), ?_⟩
    rw [enters] at kept ⊢
    exact ⟨by rw [ctl], by rw [ctl], by rw [ctl], by rw [ctl]; rfl, House.fade_stopping (by rw [ctl]),
      House.enterStopping_halt .., kept⟩

end Machine
end Sys2Proof
end


-- ==== Sys2Proof/Proofs/CueRequests.lean ====
section
/-! SCREEN RESET (R202), and the requests of the cue line: CUE LINE SET, FAULT CLEAR and PROJECTOR PASS (sections 2.2,
2.6 and 2.7). -/

set_option autoImplicit false

namespace Sys2Proof
namespace Machine

/-! ### SCREEN RESET of the Show Controller and the cue line (R28, R46, R184) -/

theorem House.dropRefs_append (a b : List Nat) (h : House) : h.dropRefs (a ++ b) = (h.dropRefs a).dropRefs b :=
  List.foldl_append ..

theorem House.startClips_congr {a b : House} (cues : b.cues = a.cues) : b.startClips = a.startClips := by
  funext d
  unfold House.startClips
  simp only [House.cue_congr cues]

/-- An emptied running slot releases the references of its show (R6). -/
theorem House.emptySlot_clips (n : Screen) (h : House) :
    (h.emptySlot n).clips = (h.dropRefs (((h.ctl n).running.map h.startClips).getD [])).clips := by
  unfold House.emptySlot
  dsimp only
  rw [House.onCtl_clips]
  cases (h.ctl n).running <;> rfl

/-- The house in which SCREEN RESET has emptied both slots, with their references. -/
def House.emptySlots (n : Screen) (h : House) : House :=
  let h1 := (h.abandon n).emptySlot n
  h1.dropRefs (((h1.ctl n).waiting.map h1.startClips).getD [])

theorem House.emptySlots_rest (n : Screen) (h : House) : h.emptySlots n = { h with
    shows := ((h.abandon n).emptySlot n).shows, lines := (h.abandon n).lines, out := (h.abandon n).out
    clips := (h.emptySlots n).clips } := by
  unfold House.emptySlots
  dsimp only
  rw [House.dropRefs_eq, House.emptySlot_rest, House.abandon_rest]

theorem House.emptySlots_clips (n : Screen) (h : House) : (h.emptySlots n).clips =
    (h.dropRefs ((((h.ctl n).running.map h.startClips).getD [])
      ++ (((h.ctl n).waiting.map h.startClips).getD []))).clips := by
  have cues : ((h.abandon n).emptySlot n).cues = h.cues := by rw [House.emptySlot_rest, House.abandon_rest]
  have abandoned : (h.abandon n).cues = h.cues := by rw [House.abandon_rest]
  have same : (h.abandon n).clips = h.clips := by rw [House.abandon_rest]
  have waiting : (((h.abandon n).emptySlot n).ctl n).waiting = (h.ctl n).waiting := by
    rw [House.emptySlot_ctl, House.abandon_ctl]
  unfold House.emptySlots
  dsimp only
  rw [House.startClips_congr cues, waiting, House.dropRefs_append]
  refine House.dropRefs_clips_congr ?_ _
  rw [House.emptySlot_clips, House.abandon_ctl, House.startClips_congr abandoned]
  exact House.dropRefs_clips_congr same _

/-- The house of SCREEN RESET just before the DARK phase is published. -/
def House.resetSlots (n : Screen) (h : House) : House :=
  ((h.emptySlots n).onCtl n fun c =>
    { ShowCtl.reset with rehearsal := c.rehearsal, autoAnswer := c.autoAnswer, stallMark := c.stallMark }).onLine n
      fun l => { l with fault := none }

theorem House.resetShow_eq (n : Screen) (h : House) :
    h.resetShow n = ((h.resetSlots n).publish n (h.phase n)).refreshAdmission n := by
  have slots : ∀ h1 : House, (match (h1.ctl n).waiting with
      | some d => h1.dropRefs (h1.startClips d)
      | none => h1) = h1.dropRefs (((h1.ctl n).waiting.map h1.startClips).getD []) := fun h1 => by
    cases (h1.ctl n).waiting <;> rfl
  unfold House.resetShow House.resetSlots House.emptySlots
  exact congrArg (fun h2 : House => (((h2.onCtl n _).onLine n _).publish n (h.phase n)).refreshAdmission n) (slots _)

theorem House.resetSlots_ctl (n : Screen) (h : House) : (h.resetSlots n).ctl n = { ShowCtl.reset with
    rehearsal := (h.ctl n).rehearsal, autoAnswer := (h.ctl n).autoAnswer, stallMark := (h.ctl n).stallMark } := by
  have ctl : (h.emptySlots n).ctl n = ((h.abandon n).emptySlot n).ctl n := by rw [House.emptySlots_rest]; rfl
  unfold House.resetSlots
  rw [House.onLine_ctl, House.onCtl_ctl, ctl, House.emptySlot_ctl, House.abandon_ctl]

theorem House.resetSlots_line (n : Screen) (h : House) : (h.resetSlots n).line n = { h.line n with
    unit := .quiet, waitingPlace := none, sendingLines := (h.line n).sendingLines.take 1, autoDue := none
    fault := none } := by
  have line : (h.emptySlots n).line n = (h.abandon n).line n := by rw [House.emptySlots_rest]; rfl
  unfold House.resetSlots
  rw [House.onLine_line, House.onCtl_line, line, House.abandon_line]

theorem House.resetSlots_rest (n : Screen) (h : House) : h.resetSlots n = { h with
    shows := (h.resetSlots n).shows, lines := (h.resetSlots n).lines, out := (h.resetSlots n).out
    clips := (h.emptySlots n).clips } := by
  unfold House.resetSlots
  rw [House.emptySlots_rest]
  rfl

theorem House.resetShow_kept (n : Screen) (h : House) : House.showKept n (h.resetShow n) h :=
  House.showKept_of (House.resetShow_stage ..) fun _ ne =>
    haveI := ne
    House.resetShow_apart ..

/-- A screen whose phase was DARK publishes nothing when it is reset (R23). -/
theorem House.resetShow_dark {n : Screen} {h : House} (dark : h.phase n = .dark) :
    h.resetShow n = (h.resetSlots n).refreshAdmission n := by
  have still : (h.resetSlots n).phase n = h.phase n := by
    unfold House.phase at *
    rw [House.resetSlots_ctl, dark]
    rfl
  rw [House.resetShow_eq, House.publish, if_pos still]

theorem House.resetSlots_calm {n : Screen} {h : House} (nobody : h.nobodyExpires n) : (h.resetSlots n).nobodyExpires n := by
  rw [House.resetSlots_rest]
  exact nobody

theorem screenReset_named {n : Screen} {screen tag : Nat} {s : State} (a : s.accepting) (named : screenOfCode screen = some n) :
    exec (.screenReset tag screen) s = .next ((s.taken.screenReset n).answered 0x29 tag .ok []) := by
  refine request_accepted a ?_
  rw [named]

/-- Settles O31. -/
theorem screenResetReturnsScreen : Obligations.ScreenResetReturnsScreen := by
  intro tag screen s a
  refine ⟨fun unknown => request_refused a (by rw [unknown]), fun n named => ⟨s.taken.house.resetShow n, ?_⟩⟩
  have whole := House.resetShow_eq n s.taken.house
  have kept := (House.resetShow_kept n s.taken.house).of_taken
  have clips : (s.taken.house.emptySlots n).clips = (s.house.dropRefs ((((s.house.ctl n).running.map s.house.startClips).getD [])
      ++ (((s.house.ctl n).waiting.map s.house.startClips).getD []))).clips :=
    (House.emptySlots_clips n s.taken.house).trans (House.dropRefs_clips_congr (a := s.house) (b := s.taken.house) rfl _)
  refine ⟨?_, ?_, ?_, ?_, ?_, kept, fun calm => ?_, fun dark => ?_, fun nobody busy => ?_⟩
  · refine (screenReset_named a named).trans ?_
    unfold State.screenReset State.onHouse State.onChannel
    generalize s.taken.house.resetShow n = h
    exact congrArg (fun t : State => Host.Outcome.next (t.answered 0x29 tag .ok [])) rfl
  · rw [whole, House.refreshAdmission, House.onLot_ctl, House.publish_ctl, House.resetSlots_ctl]
    rfl
  · rw [whole, House.refreshAdmission, House.onLot_line, House.publish_line, House.resetSlots_line]
    rfl
  · rw [whole, House.refreshAdmission, House.onLot_gain, House.publish_gain, House.resetSlots_rest]
    rfl
  · rw [whole, House.refreshAdmission_admissionOf, House.refreshAdmission, House.onLot_lot]
  · rw [← clips]
    rcases calm with dark | nobody
    · rw [House.resetShow_dark (h := s.taken.house) dark, House.refreshAdmission, House.onLot_clips, House.resetSlots_rest]
    · rw [whole, House.refreshAdmission, House.onLot_clips]
      refine (House.publish_calm (House.resetSlots_calm (h := s.taken.house) nobody) _).1.trans ?_
      rw [House.resetSlots_rest]
  · rw [House.resetShow_dark (h := s.taken.house) dark, House.refreshAdmission, House.onLot_queues, House.onLot_players,
      House.onLot_orders, House.resetSlots_rest]
    exact ⟨rfl, rfl, rfl⟩
  · have rest := House.resetSlots_rest n s.taken.house
    obtain ⟨-, queues, players⟩ := House.publish_calm (House.resetSlots_calm (h := s.taken.house) nobody) (s.taken.house.phase n)
    have awake : (s.taken.house.resetSlots n).wakePlayer n = s.taken.house.resetSlots n := by
      unfold House.wakePlayer
      rw [House.selectPlayer_busy (by rw [rest]; exact busy), House.settleQueue_of_nobody
        (House.resetSlots_calm (h := s.taken.house) nobody)]
    rw [awake, or_self] at players
    rw [whole, House.refreshAdmission, House.onLot_queues, House.onLot_players]
    refine ⟨queues.trans (by rw [rest]; rfl), players.trans (by rw [rest]; rfl)⟩

/-! ### CUE LINE SET, FAULT CLEAR and PROJECTOR PASS (R32, R43, R44) -/

/-- How an exchange begins (R34, R178): the line takes the next sequence number; the verb line goes out, or in rehearsal
the answer is awaited at once. -/
theorem House.beginExchange_begins (n : Screen) (pass quiet : Bool) (r : CueRequest) (allowed : Nat) (h : House) :
    let x : Exchange :=
      { pass := pass, quiet := quiet, verb := r.verb, content := r.content, firstSeq := (h.line n).seq,
        seq := (h.line n).seq, used := 1, allowed := allowed, timeout := (h.line n).answerTimeout }
    let l := (h.beginExchange n pass quiet r allowed).line n
    l.seq = ((h.line n).seq + 1) % 16
      ∧ ((h.ctl n).rehearsal = false → l.unit = .sending x ∧ l.sendingLines = (h.line n).sendingLines
          ++ [{ verb := r.verb, content := r.content, seq := (h.line n).seq }])
      ∧ ((h.ctl n).rehearsal = true → l.unit = .await x x.timeout ∧ l.sendingLines = (h.line n).sendingLines) := by
  unfold House.beginExchange House.attempt
  simp only [House.onLine_line]
  cases (h.ctl n).rehearsal with
  | false => exact ⟨rfl, fun _ => ⟨rfl, rfl⟩, fun e => Bool.noConfusion e⟩
  | true => exact ⟨rfl, fun e => Bool.noConfusion e, fun _ => ⟨rfl, rfl⟩⟩

/-- Settles O32. -/
theorem cueLineRequests : Obligations.CueLineRequests := by
  intro tag screen s n a named
  refine ⟨fun timeout retries => ⟨fun fine => screenRequest_accepted a named (if_pos fine), fun out =>
      screenRequest_refused a named (if_neg fun fine => ?_)⟩,
    screenRequest_accepted a named rfl, fun verb content quiet => ⟨fun bad => screenRequest_refused a named ?_, fun r good =>
      ⟨fun busy => screenRequest_refused a named ?_, fun idle free => ?_⟩⟩⟩
  · omega
  · rw [bad]
  · rw [good]
    exact if_pos busy
  · have begun : ¬ ((s.taken.house.ctl n).state = .showing ∨ (s.taken.house.line n).unit ≠ .quiet) := fun busy =>
      busy.elim idle fun other => other free
    refine ⟨s.taken.house.beginExchange n true (decide (quiet = 1)) r ((s.house.line n).retries + 1), _,
      screenRequest_accepted a named ?_, rfl, fun m ne => ?_, rfl, ?_⟩
    · rw [good]
      exact if_neg begun
    · have : Fact (n ≠ m) := ⟨fun e => ne e.symm⟩
      have apart := House.beginExchange_apart n m true (decide (quiet = 1)) r ((s.house.line n).retries + 1) s.taken.house
      exact ⟨apart.show', apart.line', apart.gain'⟩
    · exact House.beginExchange_begins ..

end Machine
end Sys2Proof
end


-- ==== Sys2Proof/Proofs/Exchanges.lean ====
section
/-! How an exchange on a cue line ends (sections 2.2, 2.6 and 2.7), and what its result does to the show that made it
(sections 1.5 and 1.6). -/

set_option autoImplicit false

namespace Sys2Proof
namespace Machine

/-! ### Changes of one cue line or one Show Controller -/

theorem House.onLine_congr {n : Screen} {f g : CueLine → CueLine} {h : House} (same : f (h.line n) = g (h.line n)) :
    h.onLine n f = h.onLine n g := congrArg (fun l => { h with lines := tset h.lines n l }) same

theorem House.onCtl_congr {n : Screen} {f g : ShowCtl → ShowCtl} {h : House} (same : f (h.ctl n) = g (h.ctl n)) :
    h.onCtl n f = h.onCtl n g := congrArg (fun c => { h with shows := tset h.shows n c }) same

theorem House.onLine_same {n : Screen} {f : CueLine → CueLine} {h : House} (same : f (h.line n) = h.line n) :
    h.onLine n f = h := by
  rw [House.onLine_congr (g := id) same]
  unfold House.onLine tmod
  rw [id, tset_tget]

theorem House.onCtl_same {n : Screen} {f : ShowCtl → ShowCtl} {h : House} (same : f (h.ctl n) = h.ctl n) :
    h.onCtl n f = h := by
  rw [House.onCtl_congr (g := id) same]
  unfold House.onCtl tmod
  rw [id, tset_tget]

theorem House.onLine_onLine (n : Screen) (f g : CueLine → CueLine) (h : House) :
    (h.onLine n f).onLine n g = h.onLine n fun l => g (f l) := by
  unfold House.onLine tmod
  rw [tget_tset_self, tset_tset]

/-! ### The end of an exchange (R37, R42, R45) -/

/-- A failed exchange leaves its record, as `LineFault.after` says (R42). -/
theorem House.latch_eq (n : Screen) (x : Exchange) (cause : LineCause) (h : House) :
    h.latch n x cause = h.onLine n fun l => { l with
      fault := LineFault.after l.fault x (if x.pass then none else (h.ctl n).record.current) cause h.clock } := by
  unfold House.latch
  refine House.onLine_congr ?_
  dsimp only
  cases (h.line n).fault <;> rfl

/-- The house in which an exchange has ended and its result is not yet handed on: the line QUIET, the halted indication
or the fault record written. -/
def House.exchangeOver (n : Screen) (x : Exchange) (r : ExchangeEnd) (h : House) : House :=
  let h1 := h.onLine n fun l => { l with unit := .quiet }
  let h2 := if r = .accepted then h1.noteHalted n x.verb else h1
  (r.lineCause.map fun cause => h2.latch n x cause).getD h2

theorem House.exchangeEnd_eq (n : Screen) (x : Exchange) (r : ExchangeEnd) (h : House) : h.exchangeEnd n x r =
    (if x.pass then (h.exchangeOver n x r).passResult n x r else (h.exchangeOver n x r).showResult n x r).beginWaiting n := by
  unfold House.exchangeEnd House.exchangeOver
  cases r.lineCause <;> rfl

theorem House.exchangeOver_failed {r : ExchangeEnd} {cause : LineCause} (failed : r.lineCause = some cause) (n : Screen)
    (x : Exchange) (h : House) : h.exchangeOver n x r = h.onLine n fun l => { l with
      unit := .quiet
      fault := LineFault.after l.fault x (if x.pass then none else (h.ctl n).record.current) cause h.clock } := by
  unfold House.exchangeOver
  have notAccepted : r ≠ .accepted := fun e => by rw [e] at failed; exact nomatch failed
  dsimp only
  rw [failed, if_neg notAccepted]
  exact (House.latch_eq ..).trans (House.onLine_onLine ..)

theorem House.exchangeOver_accepted (n : Screen) (x : Exchange) (h : House) : h.exchangeOver n x .accepted =
    (h.onLine n fun l => { l with unit := .quiet }).noteHalted n x.verb := rfl

/-- The halted indication that an accepted verb leaves (R37). -/
def Verb.haltedAfter (v : Verb) (before : Bool) : Bool :=
  match v with
  | .h => true
  | .g => false
  | .l | .q => before

theorem House.noteHalted_eq (n : Screen) (v : Verb) (h : House) :
    h.noteHalted n v = h.onCtl n fun c => { c with halted := v.haltedAfter c.halted } := by
  cases v with
  | h => rfl
  | g => rfl
  | l => exact (House.onCtl_same rfl).symm
  | q => exact (House.onCtl_same rfl).symm

/-! ### The waiting place (R34) -/

theorem House.beginWaiting_none {n : Screen} {h : House} (none : (h.line n).waitingPlace = none) : h.beginWaiting n = h := by
  unfold House.beginWaiting
  dsimp only
  split
  next r _ waits => rw [none] at waits; contradiction
  next => rfl

theorem House.beginWaiting_busy {n : Screen} {h : House} (busy : (h.line n).unit ≠ .quiet) : h.beginWaiting n = h := by
  unfold House.beginWaiting
  dsimp only
  split
  next quiet _ => exact absurd quiet busy
  next => rfl

@[simp] theorem House.beginWaiting_ctl (n m : Screen) (h : House) : (h.beginWaiting n).ctl m = h.ctl m := by
  unfold House.beginWaiting
  dsimp only
  split <;> rfl

theorem House.passResult_line (n : Screen) (x : Exchange) (r : ExchangeEnd) (h : House) (m : Screen) :
    (h.passResult n x r).line m = h.line m := by
  unfold House.passResult
  extract_lets h1
  split
  · split <;> rfl
  · rfl

/-- A PROJECTOR PASS ends with its result, and nothing waits behind it. -/
theorem House.exchangeEnd_pass {n : Screen} {x : Exchange} {h : House} (pass : x.pass = true)
    (none : (h.line n).waitingPlace = none) (r : ExchangeEnd) :
    h.exchangeEnd n x r = (h.exchangeOver n x r).passResult n x r := by
  have kept : ((h.exchangeOver n x r).line n).waitingPlace = (h.line n).waitingPlace := by
    cases cause : r.lineCause with
    | some c => rw [House.exchangeOver_failed cause, House.onLine_line]
    | none =>
      obtain rfl : r = .accepted := by
        cases r with
        | accepted => rfl
        | refused => exact nomatch cause
        | noAnswer g => cases g <;> exact nomatch cause
      rw [House.exchangeOver_accepted, House.noteHalted_eq, House.onCtl_line, House.onLine_line]
  rw [House.exchangeEnd_eq, if_pos pass, House.beginWaiting_none (by rw [House.passResult_line, kept, none])]

/-- The result of a failed PROJECTOR PASS: PASS_RESULT, and unless quiet a SCREEN_FAULT (R45). -/
theorem House.passResult_failed {r : ExchangeEnd} {cause : Cause} (failed : r.showCause = some cause) (n : Screen)
    (x : Exchange) (h : House) : h.passResult n x r = if x.quiet then h.notify .passResult (passFields n x r.passCode) else
      (h.notify .passResult (passFields n x r.passCode)).notify .screenFault
        ([u8 (screenCode n), u8 cause.code, u16 0] ++ uOpt 1 none) := by
  unfold House.passResult
  rw [failed]

/-! ### A failed exchange of a show (R17, R18, R37) -/

theorem ExchangeEnd.lineCause_of_showCause {r : ExchangeEnd} {cause : Cause} (failed : r.showCause = some cause) :
    ∃ c, r.lineCause = some c := by
  cases r with
  | accepted => exact nomatch failed
  | refused => exact ⟨_, rfl⟩
  | noAnswer g => cases g <;> exact ⟨_, rfl⟩

theorem House.showResult_showing {n : Screen} {x : Exchange} {r : ExchangeEnd} {cause : Cause} {h : House}
    (failed : r.showCause = some cause) (state : (h.ctl n).state = .showing) :
    h.showResult n x r = h.showFault n true cause := by
  unfold House.showResult
  rw [failed]
  exact if_neg (by rw [state]; decide)

theorem House.showResult_stopping {n : Screen} {x : Exchange} {r : ExchangeEnd} {cause : Cause} {h : House}
    (failed : r.showCause = some cause) (state : (h.ctl n).state = .stopping) :
    h.showResult n x r = ((h.recordFault n cause).onCtl n fun c => { c with stopHaltEnded := true }).stoppingCheck n := by
  unfold House.showResult
  rw [failed]
  exact (if_pos state).trans (by rw [House.showFault_stopping state])

/-- What an ended exchange makes of its line, of its fault record only. -/
theorem House.onLine_kept (n : Screen) (f : CueLine → CueLine) (h : House) (keeps : ∀ l, l.bounded → (f l).bounded) :
    House.showKept n (h.onLine n f) h :=
  House.showKept_of (.line n f h keeps) fun _ ne =>
    haveI := ne
    .line ..

theorem House.exchangeEnd_kept (n : Screen) (x : Exchange) (r : ExchangeEnd) (h : House) :
    House.showKept n (h.exchangeEnd n x r) h :=
  House.showKept_of (House.exchangeEnd_stage ..) fun _ ne =>
    haveI := ne
    House.exchangeEnd_apart ..

/-- A unit with an exchange outstanding is not QUIET. -/
theorem CueUnit.busy_of_exchange {u : CueUnit} {x : Exchange} (e : u.exchange? = some x) : u ≠ .quiet := fun quiet => by
  rw [quiet] at e
  exact nomatch e

/-- A failed exchange of a running show stops it (R17, R18, R37), and its fault record is filled (R42). -/
theorem House.exchangeEnd_stops {n : Screen} {x : Exchange} {r : ExchangeEnd} {cause : Cause} {line : LineCause} {h : House}
    (failed : r.showCause = some cause) (latched : r.lineCause = some line) (pass : x.pass = false)
    (state : (h.ctl n).state = .showing) : House.stoppedBy n cause h (h.exchangeEnd n x r)
      ∧ ((h.exchangeEnd n x r).line n).fault =
          LineFault.after (h.line n).fault x (h.ctl n).record.current line h.clock := by
  have over' := House.exchangeOver_failed latched n x h
  rw [pass] at over'
  have kept : House.showKept n (h.exchangeOver n x r) h := by
    rw [over']
    exact House.onLine_kept _ _ _ fun _ b => b
  have ctl : (h.exchangeOver n x r).ctl n = h.ctl n := by rw [over']; rfl
  have fault : ((h.exchangeOver n x r).line n).fault =
      LineFault.after (h.line n).fault x (h.ctl n).record.current line h.clock := by
    rw [over', House.onLine_line]
    rfl
  have result : h.exchangeEnd n x r =
      (((h.exchangeOver n x r).recordFault n cause).enterStopping n .stopped false).beginWaiting n := by
    rw [House.exchangeEnd_eq, if_neg (by rw [pass]; exact Bool.false_ne_true), House.showResult_showing failed
      (by rw [ctl]; exact state), House.showFault_stops (by rw [ctl]; exact state) (.inl rfl)]
  obtain ⟨-, y, under, -⟩ := House.enterStopping_halt n .stopped false ((h.exchangeOver n x r).recordFault n cause)
  rw [House.beginWaiting_busy (CueUnit.busy_of_exchange under)] at result
  rw [result, House.enterStopping_fault, House.recordFault_line, fault]
  exact ⟨House.stoppedBy_congr kept (by rw [ctl]) (by rw [ctl]) (House.stoppedBy_enterStopping ..), rfl⟩

/-! ### The single H of STOPPING has ended (R19) -/

/-- STOPPING goes on while the programme gain is not 0. -/
theorem House.stoppingCheck_waits {n : Screen} {h : House} (gain : (h.gain n).gp ≠ 0) : h.stoppingCheck n = h :=
  if_neg fun ⟨_, _, silent⟩ => gain silent

/-- STOPPING whose H has ended ends at programme gain 0 (R19, R20). -/
theorem House.stoppingCheck_ends {n : Screen} {h : House} (state : (h.ctl n).state = .stopping)
    (ended : (h.ctl n).stopHaltEnded = true) (gain : (h.gain n).gp = 0) :
    ((h.stoppingCheck n).ctl n).state = (if (h.ctl n).stopAbort then .idle else .held)
      ∧ ((h.stoppingCheck n).ctl n).record = (h.ctl n).record
      ∧ (h.stoppingCheck n).line n = h.line n := by
  unfold House.stoppingCheck
  extract_lets c old h1 h2
  rw [if_pos ⟨state, ended, gain⟩, House.publish_ctl, House.publish_line, House.refreshCountdown_line,
    House.refreshCountdown_self]
  have ctl : h1.ctl n = h.ctl n := rfl
  have line : h1.line n = h.line n := rfl
  unfold h2
  split_ifs
  · rw [House.onCtl_ctl, House.emptySlot_ctl, House.onCtl_line, House.emptySlot_line, ctl, line]
    exact ⟨rfl, rfl, rfl⟩
  · rw [House.onCtl_ctl, House.onCtl_line, ctl, line]
    exact ⟨rfl, rfl, rfl⟩

/-- The show record once the single H of STOPPING has ended: a failure is counted (R17). -/
def ShowRecord.afterHalt (r : ShowRecord) : Option Cause → ShowRecord
  | some c => { r with faults := bumpTo 255 r.faults, firstCause := r.firstCause.or (some c) }
  | none => r

theorem House.haltEnded_intro {n : Screen} {cause : Option Cause} {h0 h : House} (unit : (h.line n).unit = .quiet)
    (record : (h.ctl n).record = (h0.ctl n).record.afterHalt cause) (kept : House.showKept n h h0)
    (waits : (h0.gain n).gp ≠ 0 → h.ctl n = { h0.ctl n with
      record := (h0.ctl n).record.afterHalt cause, stopHaltEnded := true, halted := (h0.ctl n).halted || cause.isNone })
    (leaves : (h0.gain n).gp = 0 → (h.ctl n).state = if (h0.ctl n).stopAbort then .idle else .held) :
    House.haltEnded n cause h0 h := by
  cases cause with
  | none => exact ⟨unit, record, kept, waits, leaves⟩
  | some c => exact ⟨unit, record, kept, waits, leaves⟩

/-- The single H of STOPPING has ended: what `House.haltEnded` says, of a house `h1` in which only the record, the halted
indication and the cue line have changed since `h0`, once the end is noted. -/
theorem House.haltEnded_of {n : Screen} {cause : Option Cause} {h0 h1 h : House}
    (state : (h0.ctl n).state = .stopping)
    (ctl : h1.ctl n = { h0.ctl n with
      record := (h0.ctl n).record.afterHalt cause, halted := (h0.ctl n).halted || cause.isNone })
    (line : (h1.line n).unit = .quiet) (gain : h1.gain n = h0.gain n) (none : (h1.line n).waitingPlace = none)
    (result : h = ((h1.onCtl n fun c => { c with stopHaltEnded := true }).stoppingCheck n).beginWaiting n)
    (kept : House.showKept n h h0) : House.haltEnded n cause h0 h ∧ (h.line n).fault = (h1.line n).fault := by
  generalize e2 : (h1.onCtl n fun c => { c with stopHaltEnded := true }) = h2 at result
  have ctl2 : h2.ctl n = { h0.ctl n with
      record := (h0.ctl n).record.afterHalt cause, halted := (h0.ctl n).halted || cause.isNone
      stopHaltEnded := true } := by
    rw [← e2, House.onCtl_ctl, ctl]
  have line2 : h2.line n = h1.line n := by rw [← e2]; rfl
  have gain2 : h2.gain n = h0.gain n := by rw [← e2]; exact gain
  by_cases silent : (h0.gain n).gp = 0
  · obtain ⟨newState, newRecord, newLine⟩ := House.stoppingCheck_ends (n := n) (h := h2) (by rw [ctl2]; exact state)
      (by rw [ctl2]) (by rw [gain2]; exact silent)
    rw [House.beginWaiting_none (by rw [newLine, line2]; exact none)] at result
    rw [← result] at newState newRecord newLine
    rw [line2] at newLine
    exact ⟨House.haltEnded_intro (by rw [newLine]; exact line) (by rw [newRecord, ctl2]) kept
      (fun other => absurd silent other) (fun _ => by rw [newState, ctl2]), by rw [newLine]⟩
  · rw [House.stoppingCheck_waits (by rw [gain2]; exact silent), House.beginWaiting_none (by rw [line2]; exact none)] at result
    rw [← result] at ctl2 line2
    exact ⟨House.haltEnded_intro (by rw [line2]; exact line) (by rw [ctl2]) kept (fun _ => ctl2)
      (fun e => absurd e silent), by rw [line2]⟩

/-- A failed single H of STOPPING has ended with its fault (R17 to R19, R42). -/
theorem House.exchangeEnd_halt_failed {n : Screen} {x : Exchange} {r : ExchangeEnd} {cause : Cause} {line : LineCause}
    {h : House} (failed : r.showCause = some cause) (latched : r.lineCause = some line) (pass : x.pass = false)
    (state : (h.ctl n).state = .stopping) (none : (h.line n).waitingPlace = none) :
    House.haltEnded n (some cause) h (h.exchangeEnd n x r)
      ∧ ((h.exchangeEnd n x r).line n).fault =
          LineFault.after (h.line n).fault x (h.ctl n).record.current line h.clock := by
  have latch := House.exchangeOver_failed latched n x h
  rw [pass] at latch
  have result := House.exchangeEnd_eq n x r h
  rw [if_neg (by rw [pass]; exact Bool.false_ne_true)] at result
  have kept := House.exchangeEnd_kept n x r h
  have ctl : (h.exchangeOver n x r).ctl n = h.ctl n := by rw [latch]; rfl
  have gain : (h.exchangeOver n x r).gain n = h.gain n := by rw [latch]; rfl
  rw [House.showResult_stopping failed (by rw [ctl]; exact state)] at result
  obtain ⟨ended, fault⟩ := House.haltEnded_of (cause := some cause) state
    (by rw [House.recordFault_ctl, ctl]; exact congrArg (fun b => { h.ctl n with
          record := (h.ctl n).record.afterHalt (some cause), halted := b }) (Bool.or_false _).symm)
    (by rw [House.recordFault_line, latch, House.onLine_line]) (by rw [House.recordFault_gain, gain])
    (by rw [House.recordFault_line, latch, House.onLine_line]; exact none) result kept
  refine ⟨ended, fault.trans ?_⟩
  rw [House.recordFault_line, latch, House.onLine_line]
  rfl

/-- The accepted single H of STOPPING has ended (R19, R37). -/
theorem House.exchangeEnd_halt_accepted {n : Screen} {x : Exchange} {h : House} (pass : x.pass = false) (verb : x.verb = .h)
    (state : (h.ctl n).state = .stopping) (none : (h.line n).waitingPlace = none) :
    House.haltEnded n Option.none h (h.exchangeEnd n x .accepted) := by
  have halts : h.exchangeOver n x .accepted = (h.onLine n fun l => { l with unit := .quiet }).onCtl n fun c =>
      { c with halted := true } := by
    rw [House.exchangeOver_accepted, verb]
    rfl
  have result := House.exchangeEnd_eq n x .accepted h
  have kept := House.exchangeEnd_kept n x .accepted h
  rw [if_neg (by rw [pass]; exact Bool.false_ne_true)] at result
  have ctl : (h.exchangeOver n x .accepted).ctl n = { h.ctl n with halted := true } := by
    rw [halts, House.onCtl_ctl]
    rfl
  have shown : (h.exchangeOver n x .accepted).showResult n x .accepted =
      ((h.exchangeOver n x .accepted).onCtl n fun c => { c with stopHaltEnded := true }).stoppingCheck n := by
    unfold House.showResult
    dsimp only [ExchangeEnd.showCause]
    rw [verb]
    exact if_pos (by rw [ctl]; exact state)
  rw [shown] at result
  refine (House.haltEnded_of (cause := Option.none) state ?_ ?_ ?_ ?_ result kept).1
  · rw [ctl]
    exact congrArg (fun b => { h.ctl n with halted := b }) (Bool.or_true _).symm
  · rw [halts, House.onCtl_line, House.onLine_line]
  · rw [halts]
    rfl
  · rw [halts, House.onCtl_line, House.onLine_line]
    exact none

/-! ### Accepted exchanges of a running show (R15, R39, R40) -/

/-- The show is in a PLAY whose entries go on (R39). -/
def House.counted (h : House) (n : Screen) : Prop :=
  (h.ctl n).state = .showing ∧ (h.entry n).kind = .play ∧ (h.ctl n).finalHalt = false

/-- An accepted L of the PLAY brings its G. -/
theorem House.showResult_l {n : Screen} {x : Exchange} {h : House} (verb : x.verb = .l) (counts : h.counted n) :
    h.showResult n x .accepted = h.askShow n { verb := .g, content := 0 } := by
  obtain ⟨state, kind, unfinished⟩ := counts
  unfold House.showResult
  dsimp only [ExchangeEnd.showCause]
  rw [verb]
  refine if_pos (decide_eq_true ⟨state, kind, ?_⟩)
  rw [unfinished]
  exact Bool.false_ne_true

/-- An accepted G of the PLAY starts frame counting. -/
theorem House.showResult_g {n : Screen} {x : Exchange} {h : House} (verb : x.verb = .g) (counts : h.counted n) :
    h.showResult n x .accepted = h.startCounting n := by
  obtain ⟨state, kind, unfinished⟩ := counts
  unfold House.showResult
  dsimp only [ExchangeEnd.showCause]
  rw [verb]
  refine if_pos (decide_eq_true ⟨state, kind, ?_⟩)
  rw [unfinished]
  exact Bool.false_ne_true

/-- The accepted H after the last entry completes the show. -/
theorem House.showResult_h {n : Screen} {x : Exchange} {h : House} (verb : x.verb = .h)
    (state : (h.ctl n).state = .showing) (final : (h.ctl n).finalHalt = true) :
    h.showResult n x .accepted = h.complete n := by
  unfold House.showResult
  dsimp only [ExchangeEnd.showCause]
  rw [verb]
  exact (if_neg (by rw [state]; decide)).trans (if_pos ⟨state, final⟩)

/-- An accepted exchange of a show, with the line QUIET and the halted indication noted. -/
theorem House.exchangeEnd_accepted {n : Screen} {x : Exchange} {h : House} (pass : x.pass = false) :
    h.exchangeEnd n x .accepted = (((h.onLine n fun l => { l with unit := .quiet }).onCtl n fun c =>
      { c with halted := x.verb.haltedAfter c.halted }).showResult n x .accepted).beginWaiting n := by
  rw [House.exchangeEnd_eq, if_neg (by rw [pass]; exact Bool.false_ne_true), House.exchangeOver_accepted,
    House.noteHalted_eq]

/-- An accepted H after the last entry completes the show; the one that waits is promoted (R15, R16). -/
theorem House.exchangeEnd_final {n : Screen} {x : Exchange} {h : House} (pass : x.pass = false) (verb : x.verb = .h)
    (state : (h.ctl n).state = .showing) (final : (h.ctl n).finalHalt = true)
    (none : (h.line n).waitingPlace = none) :
    ((h.ctl n).waiting = Option.none →
      ((h.exchangeEnd n x .accepted).ctl n).state = .idle ∧ ((h.exchangeEnd n x .accepted).ctl n).running = Option.none
        ∧ ((h.exchangeEnd n x .accepted).ctl n).halted = true
        ∧ ((h.exchangeEnd n x .accepted).line n).unit = .quiet
        ∧ ((h.exchangeEnd n x .accepted).ctl n).record.outcome =
            (if (h.ctl n).record.faults = 0 then .complete else .completeWithFaults))
    ∧ ∀ next, (h.ctl n).waiting = some next →
      House.promoted n next h (h.exchangeEnd n x .accepted) ∧ ((h.exchangeEnd n x .accepted).ctl n).halted = true := by
  have result := House.exchangeEnd_accepted (n := n) (h := h) pass
  generalize e1 : ((h.onLine n fun l => { l with unit := .quiet }).onCtl n fun c =>
    { c with halted := x.verb.haltedAfter c.halted }) = h1 at result
  have ctl : h1.ctl n = { h.ctl n with halted := true } := by
    rw [← e1, House.onCtl_ctl, verb]
    rfl
  have line : h1.line n = { h.line n with unit := .quiet } := by rw [← e1, House.onCtl_line, House.onLine_line]
  have same : House.SameCues h h1 := by rw [← e1]; exact ⟨rfl, rfl, rfl, rfl⟩
  rw [House.showResult_h verb (by rw [ctl]; exact state) (by rw [ctl]; exact final)] at result
  refine ⟨fun waiting => ?_, fun next waiting => ?_⟩
  · obtain ⟨idle, empty, halted, -, outcome, newLine⟩ := House.complete_idle n h1 (by rw [ctl]; exact waiting)
    rw [House.beginWaiting_none (by rw [newLine, line]; exact none)] at result
    rw [result, idle, empty, halted, outcome, newLine, line, ctl]
    exact ⟨rfl, rfl, rfl, rfl, rfl⟩
  · obtain ⟨promoted, halted⟩ := House.complete_promoted n h1 next (by rw [ctl]; exact waiting)
    have ctl' : (h.exchangeEnd n x .accepted).ctl n = (h1.complete n).ctl n := by rw [result, House.beginWaiting_ctl]
    refine ⟨House.promoted_congr same ?_, by rw [ctl', halted, ctl]⟩
    unfold House.promoted House.entryBegun at *
    rw [ctl']
    exact promoted

end Machine
end Sys2Proof
end


-- ==== Sys2Proof/Proofs/CueLines.lean ====
section
/-! Attempts and answers on a cue line (sections 2.1, 2.2, 2.4, 2.6 and 2.7): sent lines, timers, and received lines. -/

set_option autoImplicit false

namespace Sys2Proof
namespace Machine

/-! ### Attempts (R34 to R36) -/

/-- An attempt that is over with another one left waits out the retry interval (R35, R36). -/
theorem House.attemptOver_retries {x : Exchange} (left : x.used < x.allowed) (n : Screen) (garbled : Bool) (h : House) :
    h.attemptOver n x garbled = h.onLine n fun l => { l with unit := .backoff x Config.backoffMs } := if_pos left

/-- With no attempt left the exchange ends (R35). -/
theorem House.attemptOver_ends {x : Exchange} (none : x.allowed ≤ x.used) (n : Screen) (garbled : Bool) (h : House) :
    h.attemptOver n x garbled = h.exchangeEnd n x (.noAnswer garbled) := if_neg (Nat.not_lt.2 none)

theorem House.answerTimeout_over {n : Screen} {h : House} {x : Exchange} {left : Nat}
    (unit : (h.line n).unit = .await x left) : h.answerTimeout n = h.attemptOver n x false := by
  unfold House.answerTimeout
  rw [unit]

/-- What a PROJECTOR PASS that fails leaves behind: its fault record (R42), and nothing of the show. -/
theorem House.exchangeEnd_pass_failed {n : Screen} {x : Exchange} {h : House} {r : ExchangeEnd} {cause : Cause}
    {line : LineCause} (failed : r.showCause = some cause) (latched : r.lineCause = some line) (pass : x.pass = true)
    (none : (h.line n).waitingPlace = none) :
    let h0 := (h.onLine n fun l =>
      { l with unit := .quiet, fault := LineFault.after l.fault x Option.none line h.clock }).notify .passResult
        (passFields n x r.passCode)
    (x.quiet = true → h.exchangeEnd n x r = h0)
      ∧ (x.quiet = false → h.exchangeEnd n x r = h0.notify .screenFault
          ([u8 (screenCode n), u8 cause.code, u16 0] ++ uOpt 1 Option.none)) := by
  dsimp only
  rw [House.exchangeEnd_pass pass none, House.passResult_failed failed, House.exchangeOver_failed latched, pass]
  exact ⟨fun quiet => if_pos quiet, fun loud => if_neg (by rw [loud]; exact Bool.false_ne_true)⟩

/-- Settles O33. -/
theorem attemptsMoveOn : Obligations.AttemptsMoveOn := by
  intro s n x
  refine ⟨fun v unit lines => houseEvent_of ?_, fun v w rest unit lines => houseEvent_of ?_,
    fun left unit more => houseEvent_of ?_, fun left unit live => houseEvent_of ?_, fun left unit last none pass => ?_,
    fun left unit last pass state => ?_, fun left unit last pass state none => ?_⟩
  · unfold House.lineSent
    rw [lines]
    exact House.onLine_congr (by rw [unit])
  · unfold House.lineSent
    rw [lines]
    exact House.onLine_congr (by rw [unit])
  · exact (House.answerTimeout_over unit).trans (House.attemptOver_retries more ..)
  · unfold House.backoffEnd
    rw [unit]
    refine House.onLine_congr ?_
    dsimp only
    rw [if_neg (by rw [live]; exact Bool.false_ne_true)]
  · obtain ⟨quiet, loud⟩ := House.exchangeEnd_pass_failed (r := .noAnswer false) rfl rfl pass none
    have over' := (House.answerTimeout_over unit).trans (House.attemptOver_ends last n false s.house)
    exact ⟨fun e => houseEvent_of (over'.trans (quiet e)), fun e => houseEvent_of (over'.trans (loud e))⟩
  · exact ⟨_, houseEvent_of ((House.answerTimeout_over unit).trans (House.attemptOver_ends last n false s.house)),
      House.exchangeEnd_stops rfl rfl pass state⟩
  · exact ⟨_, houseEvent_of ((House.answerTimeout_over unit).trans (House.attemptOver_ends last n false s.house)),
      House.exchangeEnd_halt_failed rfl rfl pass state none⟩

/-! ### Received lines (R29, R31) -/

/-- A character that is neither a carriage return nor a line feed joins the line under construction (R29). -/
def RxLine.take (rx : RxLine) (ch : CueChar) : RxLine :=
  if 16 ≤ rx.chars.length then { rx with overlong := true }
  else { rx with chars := rx.chars ++ [ch.byte], bad := rx.bad || ch.framingError || decide (128 ≤ ch.byte) }

theorem House.takeChar_joins {n : Screen} {ch : CueChar} (plain : ch.byte ≠ 0x0A ∧ ch.byte ≠ 0x0D) (h : House) :
    h.takeChar n ch = h.onLine n fun l => { l with rx := l.rx.take ch } := by
  unfold House.takeChar
  dsimp only
  rw [if_neg plain.1, if_neg plain.2]
  rfl

theorem House.foldl_takeChar {n : Screen} {body : List CueChar} (plain : ∀ c ∈ body, c.byte ≠ 0x0A ∧ c.byte ≠ 0x0D)
    (h : House) : body.foldl (House.takeChar n) h = h.onLine n fun l => { l with rx := body.foldl RxLine.take l.rx } := by
  induction body generalizing h with
  | nil => exact (House.onLine_same rfl).symm
  | cons c rest ih =>
    rw [List.foldl_cons, House.takeChar_joins (plain c List.mem_cons_self), ih fun d m => plain d (List.mem_cons_of_mem _ m),
      House.onLine_onLine]
    rfl

/-- What becomes of a line under construction: at most 16 characters stand in it as they came; more make it overlong. -/
theorem RxLine.foldl_take (body : List CueChar) (rx : RxLine) :
    (rx.chars.length + body.length ≤ 16 → body.foldl RxLine.take rx =
      { chars := rx.chars ++ body.map CueChar.byte
        bad := rx.bad || body.any fun c => c.framingError || decide (128 ≤ c.byte)
        overlong := rx.overlong })
    ∧ (rx.overlong = true → (body.foldl RxLine.take rx).overlong = true)
    ∧ (rx.chars ≠ [] → (body.foldl RxLine.take rx).chars ≠ [])
    ∧ (rx.chars.length ≤ 16 → 16 < rx.chars.length + body.length → (body.foldl RxLine.take rx).overlong = true) := by
  induction body generalizing rx with
  | nil =>
    refine ⟨fun _ => ?_, id, id, fun fits long => absurd fits (Nat.not_le.2 (by simpa using long))⟩
    rw [List.foldl_nil, List.map_nil, List.append_nil, List.any_nil, Bool.or_false]
  | cons c rest ih =>
    rw [List.foldl_cons, List.length_cons]
    by_cases full : 16 ≤ rx.chars.length
    · obtain ⟨-, long, some, -⟩ := ih { rx with overlong := true }
      rw [show rx.take c = { rx with overlong := true } from if_pos full]
      exact ⟨fun fits => by omega, fun _ => long rfl, some, fun _ _ => long rfl⟩
    · obtain ⟨fits, long, some, longer⟩ := ih { rx with
        chars := rx.chars ++ [c.byte], bad := rx.bad || c.framingError || decide (128 ≤ c.byte) }
      rw [show rx.take c = { rx with
        chars := rx.chars ++ [c.byte], bad := rx.bad || c.framingError || decide (128 ≤ c.byte) } from if_neg full]
      simp only [List.length_append, List.length_singleton] at *
      refine ⟨fun short => ?_, long, fun _ => some (by simp), fun _ more => longer (by omega) (by omega)⟩
      rw [fits (by omega)]
      simp [Bool.or_assoc]

/-- The line that a run of characters makes, before its carriage return. -/
def rxOf (body : List CueChar) : RxLine := body.foldl RxLine.take .blank

theorem rxOf_chars {body : List CueChar} (some : body ≠ []) : (rxOf body).chars ≠ [] := by
  cases body with
  | nil => contradiction
  | cons c rest =>
    have taken : RxLine.blank.take c = { RxLine.blank with
        chars := [c.byte], bad := false || c.framingError || decide (128 ≤ c.byte) } := rfl
    unfold rxOf
    rw [List.foldl_cons, taken]
    exact (RxLine.foldl_take rest _).2.2.1 (List.cons_ne_nil _ _)

/-- A whole line that comes to a blank receiver is handed on, as garbled or as its form, and nothing stays of it (R29). -/
theorem House.lineReceived {n : Screen} {h : House} (blank : (h.line n).rx = .blank) {body : List CueChar} (some : body ≠ [])
    (plain : ∀ c ∈ body, c.byte ≠ 0x0A ∧ c.byte ≠ 0x0D) :
    (body ++ [({ byte := 0x0D } : CueChar)]).foldl (House.takeChar n) h =
      if (rxOf body).bad ∨ (rxOf body).overlong then h.handLine n .garbled
      else h.handLine n (lineForm (rxOf body).chars) := by
  rw [List.foldl_append, House.foldl_takeChar plain]
  have rx : ((h.onLine n fun l => { l with rx := body.foldl RxLine.take l.rx }).line n).rx = rxOf body := by
    rw [House.onLine_line, blank]
    rfl
  have again : (h.onLine n fun l => { l with rx := body.foldl RxLine.take l.rx }).onLine n
      (fun l => { l with rx := .blank }) = h := by
    rw [House.onLine_onLine]
    exact House.onLine_same (by dsimp only; rw [← blank])
  generalize (h.onLine n fun l => { l with rx := body.foldl RxLine.take l.rx }) = h1 at *
  rw [List.foldl_cons, List.foldl_nil]
  unfold House.takeChar
  dsimp only
  rw [rx, again, if_neg (by decide), if_pos rfl, if_neg (rxOf_chars some)]
  simp only [Bool.false_eq_true, or_false]

/-- A line of at most 16 good characters stands in the receiver as it came. -/
theorem rxOf_good {body : List CueChar} (short : body.length ≤ 16)
    (good : ∀ c ∈ body, c.framingError = false ∧ c.byte < 128) :
    rxOf body = { chars := body.map CueChar.byte, bad := false, overlong := false } := by
  have none : (body.any fun c => c.framingError || decide (128 ≤ c.byte)) = false := by
    refine List.any_eq_false.2 fun c m => ?_
    obtain ⟨clean, low⟩ := good c m
    rw [clean, decide_eq_false (Nat.not_le.2 low)]
    exact Bool.false_ne_true
  have fits := (RxLine.foldl_take body .blank).1 (by simpa [RxLine.blank] using short)
  rw [none] at fits
  exact fits

/-! ### The forms of R31 -/

theorem hexDigit_digit : ∀ d < 16, hexDigit (if d < 10 then 0x30 + d else 0x37 + d) = some d := by decide

/-- A line that makes none of the forms of R31 is garbled. -/
theorem lineForm_garbled {cs : List Nat} (none : ¬ lineOfR31 cs) : lineForm cs = .garbled := by
  refine Classical.byContradiction fun formed => none ?_
  unfold lineForm at formed
  split at formed
  next v sp d =>
    split at formed
    next q digit =>
      by_cases space : sp = 0x20
      · rw [if_neg (fun e => e space)] at formed
        refine .inl ⟨v, d, by rw [space], ?_, by rw [digit]; rfl⟩
        by_cases isD : v = 0x44
        · exact .inl isD
        · by_cases isN : v = 0x4E
          · exact .inr (.inl isN)
          · by_cases isW : v = 0x57
            · exact .inr (.inr isW)
            · rw [if_neg isD, if_neg isN, if_neg isW] at formed
              contradiction
      · rw [if_pos space] at formed
        contradiction
    next => contradiction
  next v sp a b c d =>
    split at formed
    next w x y z da db dc dd =>
      by_cases letter : v = 0x45 ∧ sp = 0x20
      · obtain ⟨isE, space⟩ := letter
        refine .inr ⟨a, b, c, d, by rw [isE, space], ?_⟩
        simp [da, db, dc, dd]
      · rw [if_neg letter] at formed
        contradiction
    next => contradiction
  next => contradiction

theorem lineForm_answer {letter seq : Nat} (low : seq < 16) :
    lineForm [letter, 0x20, if seq < 10 then 0x30 + seq else 0x37 + seq] =
      if letter = 0x44 then .done seq else if letter = 0x4E then .refused seq
      else if letter = 0x57 then .wait seq else .garbled := by
  unfold lineForm
  dsimp only
  rw [hexDigit_digit seq low]
  exact if_neg (fun e => e rfl)

theorem lineForm_ended {a b c d : Nat} (la : a < 16) (lb : b < 16) (lc : c < 16) (ld : d < 16) :
    lineForm [0x45, 0x20, if a < 10 then 0x30 + a else 0x37 + a, if b < 10 then 0x30 + b else 0x37 + b,
      if c < 10 then 0x30 + c else 0x37 + c, if d < 10 then 0x30 + d else 0x37 + d] =
        .ended (((a * 16 + b) * 16 + c) * 16 + d) := by
  unfold lineForm
  dsimp only
  rw [hexDigit_digit a la, hexDigit_digit b lb, hexDigit_digit c lc, hexDigit_digit d ld]
  exact if_pos ⟨rfl, rfl⟩

/-- The bytes of a digit are plain characters. -/
theorem digit_plain {d : Nat} (low : d < 16) : (if d < 10 then 0x30 + d else 0x37 + d) ≠ 0x0A
    ∧ (if d < 10 then 0x30 + d else 0x37 + d) ≠ 0x0D ∧ (if d < 10 then 0x30 + d else 0x37 + d) < 128 := by
  split <;> omega

/-! ### Lines that reach the Cue Line Unit -/

/-- A whole line of good characters is handed on in its form. -/
theorem House.lineReceived_form {n : Screen} {h : House} (blank : (h.line n).rx = .blank) {bytes : List Nat}
    (some : bytes ≠ []) (short : bytes.length ≤ 16) (plain : ∀ b ∈ bytes, b ≠ 0x0A ∧ b ≠ 0x0D ∧ b < 128) :
    ((bytes ++ [0x0D]).map fun b => ({ byte := b } : CueChar)).foldl (House.takeChar n) h = h.handLine n (lineForm bytes) := by
  have bad : rxOf (bytes.map fun b => ({ byte := b } : CueChar)) = { chars := bytes, bad := false, overlong := false } := by
    rw [rxOf_good (by rw [List.length_map]; exact short), List.map_map]
    · exact congrArg (fun l => ({ chars := l, bad := false, overlong := false } : RxLine)) (List.map_id' bytes)
    · intro c m
      obtain ⟨b, inside, rfl⟩ := List.mem_map.1 m
      exact ⟨rfl, (plain b inside).2.2⟩
  rw [List.map_append]
  refine (House.lineReceived blank (by simpa using some) fun c m => ?_).trans ?_
  · obtain ⟨b, inside, rfl⟩ := List.mem_map.1 m
    exact ⟨(plain b inside).1, (plain b inside).2.1⟩
  · rw [bad, if_neg (fun e => e.elim Bool.false_ne_true Bool.false_ne_true)]

theorem cueLineReceived_live {n : Screen} {s : State} (live : (s.house.ctl n).rehearsal = false) {chars : List CueChar}
    {h : House} (e : chars.foldl (House.takeChar n) s.house = h) :
    exec (.cueLineReceived n chars) s = .next (s.withHouse h) :=
  houseEvent_of ((if_neg (by rw [live]; exact Bool.false_ne_true)).trans e)

/-- An answer line reaches the Cue Line Unit as D, N or W with its number (R31). -/
theorem answerLine_handed {n : Screen} {h : House} (blank : (h.line n).rx = .blank) {letter seq : Nat}
    (known : letter = 0x44 ∨ letter = 0x4E ∨ letter = 0x57) (low : seq < 16) :
    (answerLine letter seq).foldl (House.takeChar n) h = h.handLine n
      (if letter = 0x44 then .done seq else if letter = 0x4E then .refused seq
        else if letter = 0x57 then .wait seq else .garbled) := by
  rw [← lineForm_answer low]
  refine House.lineReceived_form blank (bytes := [letter, 0x20, if seq < 10 then 0x30 + seq else 0x37 + seq])
    (List.cons_ne_nil _ _) (Nat.le_of_ble_eq_true rfl) fun b m => ?_
  rcases List.mem_cons.1 m with rfl | m
  · omega
  rcases List.mem_cons.1 m with rfl | m
  · omega
  · rw [List.mem_singleton.1 m]
    exact digit_plain low

theorem House.answer_await {n : Screen} {h : House} {x : Exchange} {left : Nat} (unit : (h.line n).unit = .await x left) :
    h.answer n (.done x.seq) = h.exchangeEnd n x .accepted ∧ h.answer n (.refused x.seq) = h.exchangeEnd n x .refused
      ∧ h.answer n (.wait x.seq) = h.attemptOver n x false ∧ h.answer n .garbled = h.attemptOver n x true := by
  unfold House.answer
  rw [unit]
  exact ⟨if_pos rfl, if_pos rfl, if_pos rfl, rfl⟩

/-- An answer with another number is ignored (R35). -/
theorem House.answer_other {n : Screen} {h : House} {x : Exchange} {left : Nat} (unit : (h.line n).unit = .await x left)
    {q : Nat} (other : q ≠ x.seq) :
    h.answer n (.done q) = h ∧ h.answer n (.refused q) = h ∧ h.answer n (.wait q) = h := by
  unfold House.answer
  rw [unit]
  exact ⟨if_neg other, if_neg other, if_neg other⟩

/-- A garbled line reaches the Cue Line Unit as one (R29, R31). -/
theorem garbledLine_handed {n : Screen} {h : House} (blank : (h.line n).rx = .blank) {line : List CueChar}
    (garbled : garbledLine line) : line.foldl (House.takeChar n) h = h.answer n .garbled := by
  obtain ⟨body, rfl, some, plain, kind⟩ := garbled
  rw [House.lineReceived blank some plain]
  obtain ⟨fits, -, -, longer⟩ := RxLine.foldl_take body .blank
  by_cases short : body.length ≤ 16
  · have whole : rxOf body = { chars := body.map CueChar.byte
                               bad := body.any fun c => c.framingError || decide (128 ≤ c.byte)
                               overlong := false } := fits (by simpa [RxLine.blank] using short)
    rw [whole]
    rcases kind with ⟨c, m, bad⟩ | long | none
    · have found : (body.any fun c => c.framingError || decide (128 ≤ c.byte)) = true :=
        List.any_eq_true.2 ⟨c, m, by rw [Bool.or_eq_true, decide_eq_true_eq]; exact bad⟩
      rw [if_pos (.inl found)]
      rfl
    · exact absurd short (Nat.not_le.2 long)
    · rw [lineForm_garbled none, ite_self]
      rfl
  · rw [if_pos (.inr (longer (Nat.zero_le _) (by simpa [RxLine.blank] using short)))]
    rfl

/-- An ENDED report reaches the Show Controller with its content id (R31, R41). -/
theorem endedLine_handed {n : Screen} {h : House} (blank : (h.line n).rx = .blank) {content : Nat} (low : content < 65536) :
    (endedLine content).foldl (House.takeChar n) h = h.endedReport n content := by
  have digit (k : Nat) : k % 16 < 16 := Nat.mod_lt _ (by decide)
  have form := lineForm_ended (digit (content / 4096)) (digit (content / 256)) (digit (content / 16)) (digit content)
  rw [show ((content / 4096 % 16 * 16 + content / 256 % 16) * 16 + content / 16 % 16) * 16 + content % 16 = content by omega]
    at form
  have handed := House.lineReceived_form (h := h) (n := n) blank (bytes := [0x45, 0x20,
      if content / 4096 % 16 < 10 then 0x30 + content / 4096 % 16 else 0x37 + content / 4096 % 16,
      if content / 256 % 16 < 10 then 0x30 + content / 256 % 16 else 0x37 + content / 256 % 16,
      if content / 16 % 16 < 10 then 0x30 + content / 16 % 16 else 0x37 + content / 16 % 16,
      if content % 16 < 10 then 0x30 + content % 16 else 0x37 + content % 16]) (List.cons_ne_nil _ _) (Nat.le_of_ble_eq_true rfl) fun b m => by
    rcases List.mem_cons.1 m with rfl | m
    · decide
    rcases List.mem_cons.1 m with rfl | m
    · decide
    simp only [List.mem_cons, List.not_mem_nil, or_false] at m
    rcases m with rfl | rfl | rfl | rfl <;> exact digit_plain (digit _)
  rw [form] at handed
  exact handed

/-! ### ENDED reports (R41) -/

/-- An ENDED report of the running content before its length is EARLY_END. -/
theorem House.endedReport_early {n : Screen} {h : House} {d : ShowDesc} {i : Nat} (inside : h.inEntry n .play d i)
    (counts : (h.ctl n).counting ≠ .off) (early : (h.ctl n).record.progress < (h.cue i).length) :
    (d.policy = .stopOnFault → House.stoppedBy n .earlyEnd h (h.endedReport n (h.cue i).content))
    ∧ (d.policy = .runThrough → House.entryEnded n d i (h.faulted n .earlyEnd) (h.endedReport n (h.cue i).content)) := by
  have entry := inside.entry
  obtain ⟨state, -, running, current, kind⟩ := inside
  have judged : h.endedReport n (h.cue i).content =
      if ((h.showFault n false .earlyEnd).ctl n).state = .showing then (h.showFault n false .earlyEnd).entryEnd n
      else h.showFault n false .earlyEnd := by
    unfold House.endedReport
    dsimp only
    rw [entry]
    exact if_pos ⟨state, kind, counts, rfl, early⟩
  refine ⟨fun policy => ?_, fun policy => ?_⟩
  · have stopped := House.stoppedBy_enterStopping n .earlyEnd h
    rw [judged, House.showFault_stops state (.inr fun e found => ?_), if_neg]
    · exact stopped
    · rw [stopped.1]
      decide
    · obtain rfl : d = e := Option.some.inj (running.symm.trans found)
      exact policy
  · have ctl := House.recordFault_ctl n .earlyEnd h
    rw [judged, House.showFault_runs state running policy, if_pos (by rw [ctl]; exact state)]
    refine House.entryEnded_congr (b := h.recordFault n .earlyEnd) ⟨rfl, rfl, rfl, rfl⟩ rfl rfl rfl rfl rfl
      (House.entryEnd_ended n (h.recordFault n .earlyEnd) d i ?_ ?_ ?_)
    · rw [ctl]; exact state
    · rw [ctl]; exact running
    · rw [ctl]; exact current

theorem House.endedReport_kept (n : Screen) (content : Nat) (h : House) :
    House.showKept n (h.endedReport n content) h :=
  House.showKept_of (House.endedReport_stage ..) fun _ ne =>
    haveI := ne
    House.endedReport_apart ..

/-- A PROJECTOR PASS accepted: the halted indication follows its verb, and its result is reported (R37, R45). -/
theorem House.exchangeEnd_pass_accepted {n : Screen} {x : Exchange} {h : House} (pass : x.pass = true)
    (none : (h.line n).waitingPlace = none) : h.exchangeEnd n x .accepted =
      ((h.onLine n fun l => { l with unit := .quiet }).onCtl n fun c =>
        { c with halted := x.verb.haltedAfter c.halted }).notify .passResult (passFields n x 1) := by
  rw [House.exchangeEnd_pass pass none, House.exchangeOver_accepted, House.noteHalted_eq]
  rfl

/-- An accepted G of a running PLAY starts frame counting; nothing waits on the line (R40). -/
theorem House.exchangeEnd_g {n : Screen} {x : Exchange} {h : House} (pass : x.pass = false) (verb : x.verb = .g)
    (counts : h.counted n) (none : (h.line n).waitingPlace = none) : h.exchangeEnd n x .accepted =
      ((h.onLine n fun l => { l with unit := .quiet }).onCtl n fun c => { c with halted := false }).startCounting n := by
  rw [House.exchangeEnd_accepted pass, House.showResult_g verb ?_, verb, House.beginWaiting_none]
  · rfl
  · rw [House.startCounting, House.onCtl_line, House.onCtl_line, House.onLine_line]
    exact none
  · obtain ⟨state, kind, unfinished⟩ := counts
    have ctl : ((h.onLine n fun l => { l with unit := .quiet }).onCtl n fun c =>
        { c with halted := x.verb.haltedAfter c.halted }).ctl n =
          { h.ctl n with halted := x.verb.haltedAfter (h.ctl n).halted } := House.onCtl_ctl ..
    unfold House.counted House.entry at *
    rw [ctl]
    exact ⟨state, kind, unfinished⟩

/-- An accepted L of a running PLAY brings its G, with the retries of the settings (R34, R39). -/
theorem House.exchangeEnd_l {n : Screen} {x : Exchange} {h : House} (pass : x.pass = false) (verb : x.verb = .l)
    (counts : h.counted n) : h.exchangeEnd n x .accepted =
      (h.onLine n fun l => { l with unit := .quiet }).beginExchange n false false { verb := .g, content := 0 }
        ((h.line n).retries + 1) := by
  have result := House.exchangeEnd_accepted (n := n) (h := h) pass
  have still : ((h.onLine n fun l => { l with unit := .quiet }).onCtl n fun c =>
      { c with halted := x.verb.haltedAfter c.halted }) = h.onLine n fun l => { l with unit := .quiet } := by
    rw [verb]
    exact House.onCtl_same rfl
  have line : (h.onLine n fun l => { l with unit := .quiet }).line n = { h.line n with unit := .quiet } := House.onLine_line ..
  rw [still, House.showResult_l (h := h.onLine n fun l => { l with unit := .quiet }) verb counts] at result
  have asked : (h.onLine n fun l => { l with unit := .quiet }).askShow n { verb := .g, content := 0 } =
      (h.onLine n fun l => { l with unit := .quiet }).beginExchange n false false { verb := .g, content := 0 }
        ((h.line n).retries + 1) := by
    unfold House.askShow
    dsimp only
    rw [line, if_neg fun e => Verb.noConfusion e.1]
  rw [asked, House.beginWaiting_busy (CueUnit.busy_of_exchange (House.beginExchange_exchange ..))] at result
  exact result

theorem House.inEntry.counted {h : House} {n : Screen} {d : ShowDesc} {i : Nat} (x : h.inEntry n .play d i) :
    h.counted n := by
  have entry := x.entry
  obtain ⟨state, unfinished, -, -, kind⟩ := x
  exact ⟨state, by rw [entry]; exact kind, unfinished⟩

/-- Settles O34. -/
theorem answersEndAttempts : Obligations.AnswersEndAttempts := by
  intro s n live blank
  have received (letter q : Nat) (known : letter = 0x44 ∨ letter = 0x4E ∨ letter = 0x57) (low : q < 16) {h : House}
      (e : s.house.handLine n (if letter = 0x44 then .done q else if letter = 0x4E then .refused q
        else if letter = 0x57 then .wait q else .garbled) = h) :
      exec (.cueLineReceived n (answerLine letter q)) s = .next (s.withHouse h) :=
    cueLineReceived_live live ((answerLine_handed blank known low).trans e)
  refine ⟨fun x left unit low => ?_, fun x left line unit garbled => ?_, fun d i inside counts small early => ?_⟩
  · obtain ⟨accepted, refused, waits, -⟩ := House.answer_await unit
    have done {h : House} (e : s.house.exchangeEnd n x .accepted = h) :
        exec (.cueLineReceived n (answerLine 0x44 x.seq)) s = .next (s.withHouse h) :=
      received 0x44 x.seq (.inl rfl) low (accepted.trans e)
    have no {h : House} (e : s.house.exchangeEnd n x .refused = h) :
        exec (.cueLineReceived n (answerLine 0x4E x.seq)) s = .next (s.withHouse h) :=
      received 0x4E x.seq (.inr (.inl rfl)) low (refused.trans e)
    refine ⟨fun more => ?_, fun letter q known small other => ?_, fun pass none => ⟨?_, ?_⟩, fun pass state => ?_,
      fun pass state none => ⟨fun verb kind unfinished => ?_, fun verb kind unfinished => ?_, fun verb final waiting => ?_,
        fun next verb final waiting => ?_⟩, fun pass verb state none => ⟨?_, ?_⟩⟩
    · exact received 0x57 x.seq (.inr (.inr rfl)) low (waits.trans (House.attemptOver_retries more ..))
    · obtain ⟨ignoresD, ignoresN, ignoresW⟩ := House.answer_other unit other
      refine received letter q known small (h := s.house) ?_
      rcases known with rfl | rfl | rfl
      · exact ignoresD
      · exact ignoresN
      · exact ignoresW
    · refine (done (House.exchangeEnd_pass_accepted pass none)).trans ?_
      unfold passFields
      cases x.verb <;> rfl
    · obtain ⟨quiet, loud⟩ := House.exchangeEnd_pass_failed (r := .refused) rfl rfl pass none
      exact ⟨fun e => no (quiet e), fun e => no (loud e)⟩
    · exact ⟨_, no rfl, House.exchangeEnd_stops rfl rfl pass state⟩
    · obtain ⟨-, begun, -⟩ := House.beginExchange_begins n false false { verb := .g, content := 0 }
        ((s.house.line n).retries + 1) (s.house.onLine n fun l => { l with unit := .quiet })
      have kept := House.exchangeEnd_kept n x .accepted s.house
      have result := House.exchangeEnd_l pass verb ⟨state, kind, unfinished⟩
      rw [result] at kept
      exact ⟨_, _, done result, (begun live).1, rfl, rfl, rfl, rfl, kept.others⟩
    · refine (done (House.exchangeEnd_g pass verb ⟨state, kind, unfinished⟩ none)).trans ?_
      unfold House.startCounting
      rw [House.onCtl_onCtl]
      refine congrArg (fun h => Host.Outcome.next (s.withHouse h)) (House.onCtl_congr ?_)
      rw [House.onLine_ctl, if_neg fun e => absurd (live.symm.trans e.1) Bool.false_ne_true]
    · obtain ⟨idles, -⟩ := House.exchangeEnd_final pass verb state final none
      obtain ⟨idle, empty, halted, quiet, outcome⟩ := idles waiting
      exact ⟨_, done rfl, idle, empty, halted, quiet, House.exchangeEnd_kept .., outcome⟩
    · obtain ⟨-, promotes⟩ := House.exchangeEnd_final pass verb state final none
      obtain ⟨promoted, halted⟩ := promotes next waiting
      exact ⟨_, done rfl, promoted, halted, House.exchangeEnd_kept ..⟩
    · exact ⟨_, done rfl, House.exchangeEnd_halt_accepted pass verb state none⟩
    · exact ⟨_, no rfl, (House.exchangeEnd_halt_failed rfl rfl pass state none).1⟩
  · obtain ⟨-, -, -, judged⟩ := House.answer_await unit
    have over' {h : House} (e : s.house.attemptOver n x true = h) : exec (.cueLineReceived n line) s = .next (s.withHouse h) :=
      cueLineReceived_live live ((garbledLine_handed blank garbled).trans (judged.trans e))
    refine ⟨fun more => over' (House.attemptOver_retries more ..), fun last none => ⟨fun pass => ?_, fun pass state => ?_⟩⟩
    · have ends := House.attemptOver_ends last n true s.house
      obtain ⟨quiet, loud⟩ := House.exchangeEnd_pass_failed (r := .noAnswer true) rfl rfl pass none
      exact ⟨fun e => over' (ends.trans (quiet e)), fun e => over' (ends.trans (loud e))⟩
    · refine ⟨_, over' (House.attemptOver_ends last n true s.house), fun showing =>
        (House.exchangeEnd_stops rfl rfl pass showing).1, fun stopping =>
        (House.exchangeEnd_halt_failed rfl rfl pass stopping none).1, ?_⟩
      rcases state with showing | stopping
      · exact (House.exchangeEnd_stops rfl rfl pass showing).2
      · exact (House.exchangeEnd_halt_failed rfl rfl pass stopping none).2
  · obtain ⟨stops, runs⟩ := House.endedReport_early inside counts early
    exact ⟨_, cueLineReceived_live live (endedLine_handed blank small), House.endedReport_kept .., stops, runs⟩


end Machine
end Sys2Proof
end


-- ==== Sys2Proof/Proofs/Injections.lean ====
section
/-! The injections of a rehearsal (chapter 10): what they stand for happens, and outside rehearsal they are refused. -/

set_option autoImplicit false

namespace Sys2Proof
namespace Machine

/-! ### Injections on a screen (R178, R179) -/

section OnScreen

variable {kind tag code : Nat} {s : State} {n : Screen} (a : s.accepting) (named : screenOfCode code = some n)

include a named

theorem rehearsing_accepted (rehearses : (s.house.ctl n).rehearsal = true) {rule : Screen → House → House × Answer} {h : House}
    (e : rule n s.taken.house = (h, ok [])) :
    houseRequest kind tag (onRehearsing code rule) s = .next (s.replied h kind tag []) :=
  screenRequest_accepted a named ((if_pos rehearses).trans e)

theorem rehearsing_refused (live : (s.house.ctl n).rehearsal = false) (rule : Screen → House → House × Answer) :
    houseRequest kind tag (onRehearsing code rule) s = .next (s.turnedDown kind tag .badState []) :=
  screenRequest_refused a named (if_neg (show ¬ (s.house.ctl n).rehearsal = true by rw [live]; exact Bool.false_ne_true))

theorem injectAnswer_taken (rehearses : (s.house.ctl n).rehearsal = true) {answer q : Nat} {f : LineForm} {h : House}
    (form : injectedForm answer q = some f) (e : s.taken.house.answer n f = h) :
    exec (.injectAnswer tag code answer q) s = .next (s.replied h 0x61 tag []) := by
  refine Eq.trans (congrArg (fun rule => houseRequest 0x61 tag rule s) (funext fun h => ?_))
    (rehearsing_accepted (kind := 0x61) (tag := tag) (rule := fun n h => (h.answer n f, ok [])) a named rehearses
      (congrArg (fun h => (h, ok [])) e))
  rw [form]

theorem injectEnded_taken (rehearses : (s.house.ctl n).rehearsal = true) {content : Nat}
    (range : 1 ≤ content ∧ content ≤ 65535) {h : House} (e : s.taken.house.endedReport n content = h) :
    exec (.injectEnded tag code content) s = .next (s.replied h 0x62 tag []) := by
  refine Eq.trans (congrArg (fun rule => houseRequest 0x62 tag rule s) (funext fun h => ?_))
    (rehearsing_accepted (kind := 0x62) (tag := tag) (rule := fun n h => (h.endedReport n content, ok [])) a named rehearses
      (congrArg (fun h => (h, ok [])) e))
  exact if_pos range

theorem injectAnswer_live (live : (s.house.ctl n).rehearsal = false) {answer q : Nat} {f : LineForm}
    (form : injectedForm answer q = some f) :
    exec (.injectAnswer tag code answer q) s = .next (s.turnedDown 0x61 tag .badState []) := by
  refine Eq.trans (congrArg (fun rule => houseRequest 0x61 tag rule s) (funext fun h => ?_))
    (rehearsing_refused a named live fun n h => (h.answer n f, ok []))
  rw [form]

theorem injectEnded_live (live : (s.house.ctl n).rehearsal = false) {content : Nat}
    (range : 1 ≤ content ∧ content ≤ 65535) :
    exec (.injectEnded tag code content) s = .next (s.turnedDown 0x62 tag .badState []) := by
  refine Eq.trans (congrArg (fun rule => houseRequest 0x62 tag rule s) (funext fun h => ?_))
    (rehearsing_refused a named live fun n h => (h.endedReport n content, ok []))
  exact if_pos range

end OnScreen

/-- An ENDED report of a screen that is not counting the frames of that content changes nothing (R41). -/
theorem House.endedReport_idle {n : Screen} {h : House} {content : Nat}
    (idle : (h.ctl n).state ≠ .showing ∨ (h.ctl n).counting = .off ∨ content ≠ (h.entry n).content) :
    h.endedReport n content = h := by
  refine if_neg fun ⟨state, _, counts, running, _⟩ => ?_
  rcases idle with e | e | e
  · exact e state
  · exact counts e
  · exact e running

/-- The automatic answer is a D, judged like a line (R178). -/
theorem House.autoAnswered_due {n : Screen} {h : House} {q due : Nat} (rehearses : (h.ctl n).rehearsal = true)
    (auto : (h.line n).autoDue = some (q, due)) :
    h.autoAnswered n = (h.onLine n fun l => { l with autoDue := none }).answer n (.done q) := by
  unfold House.autoAnswered
  rw [auto]
  exact if_pos rehearses

/-! ### Injections on a lane (R180, R181) -/

/-- The lane whose loop has taken an injected level (R180). -/
def EntryLane.injected (loop : Nat) (level : Bool) (l : EntryLane) : EntryLane :=
  if loop = 1 then { l with arrive := l.arrive.inject level l.settings.debounce }
  else { l with clear := l.clear.inject level l.settings.debounce }

section OnLane

variable {kind tag lane : Nat} {s : State} {k : EntryId} (a : s.accepting) (named : entryOfCode lane = some k)

include a named

theorem injectJam_lane {action : Nat} {f : SimArm → SimArm}
    (rule : (action = 1 ∧ f = SimArm.hold) ∨ (action = 2 ∧ f = SimArm.free)) :
    ((s.lane k).rehearsal = false →
      exec (.injectJam tag lane action) s = .next (s.turnedDown 0x66 tag .badState (s.lane k).block))
    ∧ ((s.lane k).rehearsal = true → exec (.injectJam tag lane action) s = .next
        (State.answered 0x66 tag .ok ({ s.lane k with sim := f (s.lane k).sim } : EntryLane).block
          { s.taken with lanes := tset s.lanes k { s.lane k with sim := f (s.lane k).sim } })) := by
  refine ⟨fun live => entryRequest_refused (detail := []) a named ?_, fun rehearses => ?_⟩
  · have out : ¬ (s.taken.lane k).rehearsal = true := by rw [State.taken_lane, live]; exact Bool.false_ne_true
    rcases rule with ⟨rfl, -⟩ | ⟨rfl, -⟩ <;> exact if_neg out
  · refine (entryRequest_accepted (fields := []) (t := s.taken.onLane k fun l => { l with sim := f l.sim }) a named ?_).trans ?_
    · rcases rule with ⟨rfl, rfl⟩ | ⟨rfl, rfl⟩ <;> exact if_pos rehearses
    · rw [State.onLane_lane_self]
      rfl

theorem injectLoop_lane {loop level : Nat} {f : Bool} (isLoop : loop = 1 ∨ loop = 2)
    (isLevel : level = 1 ∧ f = true ∨ level = 2 ∧ f = false) :
    ((s.lane k).rehearsal = false →
      exec (.injectLoop tag lane loop level) s = .next (s.turnedDown 0x65 tag .badState (s.lane k).block))
    ∧ ((s.lane k).rehearsal = true → ∃ l : EntryLane, exec (.injectLoop tag lane loop level) s = .next
          (State.answered 0x65 tag .ok l.block { s.taken with lanes := tset s.lanes k l })
        ∧ (loop = 1 → l = { s.lane k with arrive := (s.lane k).arrive.inject f (s.lane k).settings.debounce })
        ∧ (loop = 2 → l = { s.lane k with clear := (s.lane k).clear.inject f (s.lane k).settings.debounce })) := by
  refine ⟨fun live => entryRequest_refused (detail := []) a named ?_, fun rehearses => ?_⟩
  · have out : ¬ (s.taken.lane k).rehearsal = true := by rw [State.taken_lane, live]; exact Bool.false_ne_true
    rcases isLoop with rfl | rfl <;> rcases isLevel with ⟨rfl, -⟩ | ⟨rfl, -⟩ <;> exact if_neg out
  · refine ⟨(s.lane k).injected loop f, (entryRequest_accepted (fields := [])
      (t := s.taken.onLane k fun l => l.injected loop f) a named ?_).trans ?_, ?_, ?_⟩
    · rcases isLoop with rfl | rfl <;> rcases isLevel with ⟨rfl, rfl⟩ | ⟨rfl, rfl⟩ <;> exact if_pos rehearses
    · rw [State.onLane_lane_self]
      rfl
    · exact fun first => if_pos first
    · rintro rfl
      rfl

end OnLane

/-- Settles O60. -/
theorem injectionsAct : Obligations.InjectionsAct := by
  intro tag code s
  refine ⟨fun a n named rehearses => ⟨?_, ?_, fun x left unit more => ⟨?_, fun low => ?_⟩, fun x left unit low none => ?_,
      fun d i inside counts early low high => ?_, fun content low high idle => ?_⟩,
    fun a n named live => ⟨?_, ?_, ?_, fun content low high => ?_⟩, fun n x left q due rehearses auto unit => ?_,
    fun a k named => ⟨fun live => ?_, fun rehearses => ⟨fun loop level f isLoop isLevel => ?_, fun action isAction => ?_⟩⟩⟩
  · exact rehearsing_accepted a named rehearses rfl
  · exact rehearsing_accepted a named rehearses rfl
  · obtain ⟨-, -, -, garbled⟩ := House.answer_await (h := s.taken.house) unit
    exact injectAnswer_taken a named rehearses rfl (garbled.trans (House.attemptOver_retries more ..))
  · obtain ⟨-, -, waits, -⟩ := House.answer_await (h := s.taken.house) unit
    exact injectAnswer_taken a named rehearses (if_pos (Nat.le_of_lt_succ low))
      (waits.trans (House.attemptOver_retries more ..))
  · obtain ⟨accepted, refused, -, -⟩ := House.answer_await (h := s.taken.house) unit
    have done {h : House} (e : s.taken.house.exchangeEnd n x .accepted = h) :=
      injectAnswer_taken (tag := tag) (answer := 1) a named rehearses (if_pos (Nat.le_of_lt_succ low)) (accepted.trans e)
    have no {h : House} (e : s.taken.house.exchangeEnd n x .refused = h) :=
      injectAnswer_taken (tag := tag) (answer := 2) a named rehearses (if_pos (Nat.le_of_lt_succ low)) (refused.trans e)
    refine ⟨fun pass => ?_, fun pass quiet => ?_, fun pass state => ?_, fun pass verb state kind unfinished => ?_⟩
    · refine (done (House.exchangeEnd_pass_accepted (h := s.taken.house) pass none)).trans ?_
      unfold passFields
      cases x.verb <;> rfl
    · obtain ⟨ends, -⟩ := House.exchangeEnd_pass_failed (h := s.taken.house) (r := .refused) rfl rfl pass none
      exact no (ends quiet)
    · obtain ⟨stopped, -⟩ := House.exchangeEnd_stops (h := s.taken.house) (r := .refused) rfl rfl pass state
      have taken : House.showKept n s.taken.house s.house := ⟨s.taken_settings, rfl, fun m _ => ⟨rfl, rfl, rfl⟩⟩
      exact ⟨_, no rfl, House.stoppedBy_congr taken rfl rfl stopped⟩
    · refine (done (House.exchangeEnd_g (h := s.taken.house) pass verb ⟨state, kind, unfinished⟩ none)).trans ?_
      unfold House.startCounting
      rw [House.onCtl_onCtl]
      refine congrArg (fun h => Host.Outcome.next (s.replied h 0x61 tag [])) (House.onCtl_congr ?_)
      have on : (s.taken.house.ctl n).rehearsal = true := rehearses
      rw [House.onLine_ctl]
      dsimp only
      cases mark : (s.taken.house.ctl n).stallMark with
      | true => rw [if_neg fun e => e.2 rfl]; rfl
      | false => rw [if_pos ⟨on, Bool.false_ne_true⟩]; rfl
  · obtain ⟨stops, runs⟩ := House.endedReport_early (h := s.taken.house) inside counts early
    have taken : House.showKept n s.taken.house s.house := ⟨s.taken_settings, rfl, fun m _ => ⟨rfl, rfl, rfl⟩⟩
    refine ⟨_, injectEnded_taken a named rehearses ⟨low, high⟩ rfl, (House.endedReport_kept ..).of_taken, fun policy =>
      House.stoppedBy_congr taken rfl rfl (stops policy), fun policy => ?_⟩
    exact House.entryEnded_congr (b := s.taken.house.faulted n .earlyEnd) ⟨rfl, rfl, rfl, rfl⟩ rfl rfl rfl rfl rfl (runs policy)
  · exact injectEnded_taken a named rehearses ⟨low, high⟩ (House.endedReport_idle (h := s.taken.house) idle)
  · exact rehearsing_refused a named live _
  · exact rehearsing_refused a named live _
  · exact injectAnswer_live a named live rfl
  · exact injectEnded_live a named live ⟨low, high⟩
  · have answered := House.autoAnswered_due rehearses auto
    have waits : ((s.house.onLine n fun l => { l with autoDue := none }).line n).unit = .await x left := by
      rw [House.onLine_line]
      exact unit
    refine ⟨fun other => houseEvent_of (answered.trans (House.answer_other waits other).1), fun same pass verb none =>
      houseEvent_of ?_⟩
    obtain ⟨accepted, -⟩ := House.answer_await waits
    rw [answered, same, accepted, House.exchangeEnd_pass_accepted pass (by rw [House.onLine_line]; exact none),
      House.onLine_onLine, House.onCtl_same (by rw [verb]; rfl), passFields, verb]
    rfl
  · exact ⟨(injectLoop_lane a named (.inl rfl) (.inl ⟨rfl, rfl⟩)).1 live, (injectJam_lane a named (.inl ⟨rfl, rfl⟩)).1 live⟩
  · exact (injectLoop_lane a named isLoop isLevel).2 rehearses
  · rcases isAction with rfl | rfl
    · exact ⟨_, (injectJam_lane a named (.inl ⟨rfl, rfl⟩)).2 rehearses, rfl⟩
    · exact ⟨_, (injectJam_lane a named (.inr ⟨rfl, rfl⟩)).2 rehearses, rfl⟩

end Machine
end Sys2Proof
end


-- ==== Sys2Proof/Proofs/Rehearsal.lean ====
section
/-! REHEARSE of screens, lanes and stations (R177, R178, R180, R182, R183). -/

set_option autoImplicit false

namespace Sys2Proof
namespace Machine

/-! ### A station while tickets join and start (R163, R165) -/

/-- The tickets of a station have different join numbers, below the next one (R163). -/
def House.onceAt (st : StationId) (h : House) : Prop :=
  ((h.station st).queue.map Ticket.joined).Nodup ∧ ∀ t ∈ (h.station st).queue, t.joined < h.nextJoin

/-- The VOID tickets of a station, in the order of its queue. -/
def Station.voids (x : Station) : List Ticket := x.queue.filter fun t => t.state = .void

theorem Station.mem_voids {x : Station} {t : Ticket} : t ∈ x.voids ↔ t ∈ x.queue ∧ t.state = .void := by
  unfold Station.voids
  rw [List.mem_filter, decide_eq_true_eq]

/-- Tickets have joined station `st` or started there, and nothing else has happened to it: the tickets that were not
QUEUED stand in its queue as they did, its VOID tickets are the same. -/
structure House.Serves (st : StationId) (h h' : House) : Prop where
  once : h'.onceAt st
  rest : h'.station st = { h.station st with queue := (h'.station st).queue }
  voids : (h'.station st).voids = (h.station st).voids
  kept : ∀ t ∈ (h.station st).queue, t.state ≠ .queued → t ∈ (h'.station st).queue

namespace House.Serves

variable {st : StationId}

theorem refl {h : House} (once : h.onceAt st) : House.Serves st h h := ⟨once, rfl, rfl, fun _ m _ => m⟩

theorem trans {a b c : House} (x : House.Serves st a b) (y : House.Serves st b c) : House.Serves st a c :=
  ⟨y.once, by rw [y.rest, x.rest], y.voids.trans x.voids, fun t m other => y.kept t (x.kept t m other) other⟩

theorem of_same {h h' : House} (once : h.onceAt st) (same : h'.station st = h.station st) (join : h.nextJoin ≤ h'.nextJoin) :
    House.Serves st h h' := by
  refine ⟨?_, by rw [same], by rw [same], fun t m _ => by rw [same]; exact m⟩
  unfold House.onceAt
  rw [same]
  exact ⟨once.1, fun t m => Nat.lt_of_lt_of_le (once.2 t m) join⟩

theorem joinTicket {h : House} (once : h.onceAt st) (number : Nat) (lines : List OrderLine) (su : StationId) :
    House.Serves st h (h.joinTicket number lines su) := by
  by_cases e : st = su
  · subst e
    obtain ⟨nodup, below⟩ := once
    have joined := House.joinTicket_station number lines h st
    refine ⟨?_, by rw [joined], ?_, fun t m _ => ?_⟩
    · unfold House.onceAt
      rw [joined]
      refine ⟨?_, fun t m => ?_⟩
      · rw [List.map_append]
        refine List.Nodup.append nodup (List.nodup_singleton _) fun j m same => ?_
        obtain ⟨t, tm, rfl⟩ := List.mem_map.1 m
        have e : t.joined = h.nextJoin := List.mem_singleton.1 same
        exact absurd (below t tm) (by omega)
      · rcases List.mem_append.1 m with m | m
        · exact Nat.lt_succ_of_lt (below t m)
        · rw [List.mem_singleton.1 m]
          exact Nat.lt_succ_self _
    · rw [joined, Station.voids, List.filter_append]
      exact List.append_nil _
    · rw [joined]
      exact List.mem_append_left _ m
  · exact of_same once (House.joinTicket_station_ne _ _ _ _ _ e) (Nat.le_succ _)

theorem startTicket {h : House} (once : h.onceAt st) {su : StationId} {t : Ticket} (m : t ∈ (h.station su).queue)
    (queued : t.state = .queued) : House.Serves st h (h.startTicket su t) := by
  have join : (h.startTicket su t).nextJoin = h.nextJoin := by
    unfold House.startTicket
    rw [House.orderCooking_rest]
    rfl
  by_cases e : st = su
  · subst e
    obtain ⟨nodup, below⟩ := once
    have started := House.startTicket_self st t h
    have others : ∀ u ∈ (h.station st).queue, u.state ≠ .queued → u.joined ≠ t.joined := fun u um other same => by
      obtain rfl : u = t := List.inj_on_of_nodup_map nodup um m same
      exact other queued
    refine ⟨?_, by rw [started], ?_, fun u um other => ?_⟩
    · unfold House.onceAt
      rw [started, join]
      refine ⟨?_, fun u um => ?_⟩
      · exact (congrArg List.Nodup (joined_map_onTicket (h.station st).queue t.joined h.startedTicket fun _ => rfl)).mpr nodup
      · obtain ⟨w, wm, rfl⟩ := List.mem_map.1 um
        split
        · exact below w wm
        · exact below w wm
    · rw [started, Station.voids, Station.voids, List.filter_map]
      have same : (h.station st).queue.filter ((fun u => decide (u.state = .void)) ∘ fun u =>
          if u.joined = t.joined then h.startedTicket u else u) = (h.station st).queue.filter fun u => u.state = .void := by
        refine List.filter_congr fun u um => ?_
        by_cases at_t : u.joined = t.joined
        · obtain rfl : u = t := List.inj_on_of_nodup_map nodup um m at_t
          rw [Function.comp_apply, if_pos rfl, queued]
          rfl
        · rw [Function.comp_apply, if_neg at_t]
      rw [same]
      refine (List.map_congr_left fun u um => ?_).trans (List.map_id' _)
      obtain ⟨um, void⟩ := List.mem_filter.1 um
      exact if_neg (others u um (by rw [of_decide_eq_true void]; decide))
    · rw [started]
      exact List.mem_map.2 ⟨u, um, if_neg (others u um other)⟩
  · exact of_same once (House.startTicket_ne e t h) join.ge

theorem startTickets (su : StationId) (fuel : Nat) {h : House} (once : h.onceAt st) :
    House.Serves st h (h.startTickets su fuel) := by
  induction fuel generalizing h with
  | zero => exact .refl once
  | succ fuel ih =>
    unfold House.startTickets
    split
    · next t oldest =>
      obtain ⟨m, queued⟩ := Station.oldestQueued_some oldest
      split
      · have first := startTicket once m queued
        exact first.trans (ih first.once)
      · exact .refl once
    · exact .refl once

/-- A chain of such changes is one. -/
theorem foldl {β : Type} {f : House → β → House} (step : ∀ h b, h.onceAt st → House.Serves st h (f h b)) (l : List β) {h : House}
    (once : h.onceAt st) : House.Serves st h (l.foldl f h) := by
  induction l generalizing h with
  | nil => exact .refl once
  | cons b rest ih => exact (step h b once).trans (ih (step h b once).once)

theorem releaseOne {h : House} (once : h.onceAt st) (number : Nat) : House.Serves st h (h.releaseOne number) := by
  unfold House.releaseOne
  split
  · exact .refl once
  · next o _ =>
    dsimp only
    split
    · have joined : House.Serves st h (h.joinTickets number o.lines) :=
        foldl (fun g su once => joinTicket once number o.lines su) _ once
      have noted : House.Serves st h (House.orderStateNotice number ((h.joinTickets number o.lines).onOrder number fun p =>
          { p with state := .queued, tickets := h.touched o.lines
                   promised := some ((h.joinTickets number o.lines).promise
                    ((h.joinTickets number o.lines).estimate (h.touched o.lines))) })) := by
        refine joined.trans (of_same joined.once ?_ ?_)
        · rw [House.orderStateNotice_rest]
          rfl
        · rw [House.orderStateNotice_rest]
          exact Nat.le_refl _
      exact noted.trans (foldl (fun g su once => startTickets su _ once) _ noted.once)
    · exact .refl once

theorem releaseAll {h : House} (once : h.onceAt st) : House.Serves st h h.releaseAll :=
  foldl (fun _ number once => releaseOne once number) _ once

end House.Serves

/-! ### VOID tickets cleared (R167, R183) -/

section ClearVoids

variable {st : StationId}

theorem Station.oldestCooking_none {x : Station} (none : x.oldestCooking = Option.none) :
    x.queue.filter Ticket.cooking = [] := by
  have some (l : List Ticket) : ∀ b : Ticket, l.foldl (fun best t => match best with
        | Option.none => some t
        | some b => if t.cooked.getD 0 < b.cooked.getD 0 then some t else some b) (some b) ≠ Option.none := by
    induction l with
    | nil => exact fun b e => nomatch e
    | cons u rest ih =>
      intro b
      rw [List.foldl_cons]
      dsimp only
      split
      · exact ih u
      · exact ih b
  unfold Station.oldestCooking at none
  cases l : x.queue.filter Ticket.cooking with
  | nil => rfl
  | cons t rest =>
    rw [l, List.foldl_cons] at none
    exact absurd none (some rest t)

/-- Which VOID ticket of a station is cleared next, if there is one (R183). -/
theorem Station.oldestVoid {x : Station} : (x.voids = [] ∧ ({ x with queue := x.voids } : Station).oldestCooking = none)
    ∨ ∃ t ∈ x.voids, ({ x with queue := x.voids } : Station).oldestCooking = some t := by
  cases oldest : ({ x with queue := x.voids } : Station).oldestCooking with
  | some t => exact .inr ⟨t, Station.oldestCooking_mem oldest, rfl⟩
  | none =>
    refine .inl ⟨?_, rfl⟩
    have all := Station.oldestCooking_none oldest
    refine List.eq_nil_iff_forall_not_mem.2 fun t m => ?_
    have cooking : t.cooking = true := by
      unfold Ticket.cooking
      exact decide_eq_true (.inr (Station.mem_voids.1 m).2)
    exact List.not_mem_nil (all ▸ List.mem_filter.2 ⟨m, cooking⟩)

/-- The slots of a station are all taken, or none of its tickets is QUEUED (R165). -/
def House.slotsTaken (st : StationId) (h : House) : Prop :=
  (h.station st).slots ≤ (h.station st).cookingCount ∨ ∀ t ∈ (h.station st).queue, t.state ≠ .queued

theorem House.fillSlots_taken {h : House} (once : h.onceAt st) : House.slotsTaken st (h.fillSlots st) := by
  have rest := (House.Serves.startTickets st (h.station st).slots once).rest
  unfold House.slotsTaken House.fillSlots
  by_cases fits : (h.station st).cookingCount ≤ (h.station st).slots
  · obtain full | none := House.startTickets_fill st (h.station st).slots once.1 fits (Nat.sub_le _ _)
    · exact .inl (by rw [full, rest])
    · exact .inr none
  · have full : ¬ 0 < (h.station st).freeSlots := by unfold Station.freeSlots; omega
    have still (fuel : Nat) : h.startTickets st fuel = h := by
      cases fuel with
      | zero => rfl
      | succ fuel =>
        unfold House.startTickets
        split
        · exact if_neg full
        · rfl
    rw [still]
    exact .inl (Nat.le_of_not_le fits)

/-- A cleared VOID ticket leaves its queue; what the queue holds besides, but for QUEUED tickets, stays. -/
theorem House.clearVoid_serves {t : Ticket} {h : House} (once : h.onceAt st) (void : t ∈ (h.station st).voids) :
    (h.clearVoid st t).onceAt st ∧ House.slotsTaken st (h.clearVoid st t)
      ∧ (h.clearVoid st t).station st = { h.station st with queue := ((h.clearVoid st t).station st).queue }
      ∧ ((h.clearVoid st t).station st).voids = (h.station st).voids.filter (fun u => u.joined ≠ t.joined)
      ∧ ∀ u ∈ (h.station st).queue, u.state = .done ∨ u.state = .cooking → u ∈ ((h.clearVoid st t).station st).queue := by
  have dropped : (h.dropTicket st t).station st =
      { h.station st with queue := (h.station st).queue.filter fun u => u.joined ≠ t.joined } := House.onStation_station ..
  have once' : (h.dropTicket st t).onceAt st := by
    unfold House.onceAt
    rw [dropped]
    exact ⟨once.1.sublist (List.filter_sublist.map _), fun u m => once.2 u (List.mem_filter.1 m).1⟩
  have released := House.Serves.releaseAll once'
  have filled : House.Serves st (h.dropTicket st t) (h.clearVoid st t) :=
    released.trans (House.Serves.startTickets st _ released.once)
  refine ⟨filled.once, House.fillSlots_taken released.once, filled.rest.trans (by rw [dropped]),
    filled.voids.trans ?_, fun u m other => filled.kept u ?_ ?_⟩
  · rw [dropped, Station.voids, Station.voids]
    exact List.filter_comm ..
  · rw [dropped]
    refine List.mem_filter.2 ⟨m, decide_eq_true fun same => ?_⟩
    obtain ⟨tm, isVoid⟩ := Station.mem_voids.1 void
    obtain rfl : u = t := List.inj_on_of_nodup_map once.1 m tm same
    rw [isVoid] at other
    rcases other with e | e <;> exact nomatch e
  · rcases other with e | e <;> rw [e] <;> decide

/-- With no VOID ticket there is nothing to clear. -/
theorem House.clearVoids_none {h : House} (none : (h.station st).voids = []) (fuel : Nat) : h.clearVoids st fuel = h := by
  cases fuel with
  | zero => rfl
  | succ fuel =>
    obtain ⟨-, oldest⟩ | ⟨t, m, -⟩ := (h.station st).oldestVoid
    · unfold House.clearVoids
      split
      next t found =>
        have same : some t = Option.none := found.symm.trans oldest
        contradiction
      next => rfl
    · rw [none] at m
      exact absurd m List.not_mem_nil

theorem House.clearVoids_some {h : House} {t : Ticket}
    (oldest : ({ h.station st with queue := (h.station st).voids } : Station).oldestCooking = some t) (fuel : Nat) :
    h.clearVoids st (fuel + 1) = (h.clearVoid st t).clearVoids st fuel := by
  rw [House.clearVoids]
  split
  next u found => rw [Option.some.inj (oldest.symm.trans found)]
  next none =>
    have same : some t = Option.none := oldest.symm.trans none
    contradiction

/-- Every VOID ticket of a station is cleared (R183). -/
theorem House.clearVoids_clears (fuel : Nat) {h : House} (once : h.onceAt st) (enough : (h.station st).voids.length ≤ fuel) :
    (h.clearVoids st fuel).station st = { h.station st with queue := ((h.clearVoids st fuel).station st).queue }
      ∧ ((h.clearVoids st fuel).station st).voids = []
      ∧ (∀ u ∈ (h.station st).queue, u.state = .done ∨ u.state = .cooking → u ∈ ((h.clearVoids st fuel).station st).queue)
      ∧ (House.slotsTaken st h ∨ (h.station st).voids ≠ [] → House.slotsTaken st (h.clearVoids st fuel)) := by
  induction fuel generalizing h with
  | zero =>
    have none := List.eq_nil_of_length_eq_zero (Nat.le_zero.1 enough)
    exact ⟨rfl, none, fun _ m _ => m, fun given => given.resolve_right fun e => e none⟩
  | succ fuel ih =>
    obtain ⟨none, -⟩ | ⟨t, m, oldest⟩ := (h.station st).oldestVoid
    · rw [House.clearVoids_none none]
      exact ⟨rfl, none, fun _ m _ => m, fun given => given.resolve_right fun e => e none⟩
    · obtain ⟨once', taken, rest, voids, kept⟩ := House.clearVoid_serves once m
      have fewer : ((h.clearVoid st t).station st).voids.length ≤ fuel := by
        have less := List.length_filter_lt_length_iff_exists (p := fun u : Ticket => decide (u.joined ≠ t.joined))
          |>.2 ⟨t, m, by simp⟩
        rw [voids]
        omega
      obtain ⟨rest', voids', kept', taken'⟩ := ih once' fewer
      rw [House.clearVoids_some oldest]
      exact ⟨by rw [rest', rest], voids', fun u um other => kept' u (kept u um other) other, fun _ => taken' (.inl taken)⟩

end ClearVoids

/-! ### REHEARSE (R177) -/

theorem screenOfCode_of_entry {unit : Nat} {k : EntryId} (named : entryOfCode unit = some k) : screenOfCode unit = none := by
  unfold entryOfCode at named
  split at named
  all_goals first | rfl | contradiction

theorem codes_of_station {unit : Nat} {st : StationId} (named : stationOfCode unit = some st) :
    screenOfCode unit = none ∧ entryOfCode unit = none := by
  unfold stationOfCode at named
  split at named
  all_goals first | exact ⟨rfl, rfl⟩ | contradiction

/-- The rule of REHEARSE, by the kind of unit that its code names (R177). -/
theorem State.rehearse_screen {unit : Nat} {n : Screen} (named : screenOfCode unit = some n) {setting : Nat}
    (flag : setting ≤ 1) (auto : Option Nat) :
    State.rehearse unit setting auto = onHouseRule (House.rehearseScreen n (setting = 1) auto) := by
  funext s
  unfold State.rehearse
  rw [if_neg fun bad => bad ((isFlag_iff setting).2 flag), named]

theorem State.rehearse_lane {unit : Nat} {k : EntryId} (named : entryOfCode unit = some k) {setting : Nat}
    (flag : setting ≤ 1) (auto : Option Nat) :
    State.rehearse unit setting auto = onEntry unit (State.rehearseLane (setting = 1)) := by
  funext s
  unfold State.rehearse
  rw [if_neg fun bad => bad ((isFlag_iff setting).2 flag), screenOfCode_of_entry named, named]

theorem State.rehearse_station {unit : Nat} {st : StationId} (named : stationOfCode unit = some st) {setting : Nat}
    (flag : setting ≤ 1) (auto : Option Nat) :
    State.rehearse unit setting auto = onHouseRule (House.rehearseStation st (setting = 1)) := by
  obtain ⟨noScreen, noLane⟩ := codes_of_station named
  funext s
  unfold State.rehearse
  rw [if_neg fun bad => bad ((isFlag_iff setting).2 flag), noScreen, noLane, named]

theorem State.rehearse_unknown {unit : Nat} (noScreen : screenOfCode unit = none) (noLane : entryOfCode unit = none)
    (noStation : stationOfCode unit = none) {setting : Nat} (flag : setting ≤ 1) (auto : Option Nat) (s : State) :
    State.rehearse unit setting auto s = (s, refuse .badValue []) := by
  unfold State.rehearse
  rw [if_neg fun bad => bad ((isFlag_iff setting).2 flag), noScreen, noLane, noStation]

section OfScreen

variable {tag unit : Nat} {s : State} {n : Screen} (a : s.accepting) (named : screenOfCode unit = some n)

include a named

theorem rehearseScreen_accepted {setting : Nat} (flag : setting ≤ 1) {auto : Option Nat} {h : House}
    (e : s.taken.house.rehearseScreen n (setting = 1) auto = (h, ok [])) :
    exec (.rehearse tag unit setting auto) s = .next (s.replied h 0x60 tag []) :=
  (congrArg (fun rule => request 0x60 tag rule s) (State.rehearse_screen named flag auto)).trans (houseRequest_accepted a e)

theorem rehearseScreen_refused {setting : Nat} (flag : setting ≤ 1) {auto : Option Nat} {status : Status}
    (e : s.taken.house.rehearseScreen n (setting = 1) auto = (s.taken.house, refuse status [])) :
    exec (.rehearse tag unit setting auto) s = .next (s.turnedDown 0x60 tag status []) :=
  (congrArg (fun rule => request 0x60 tag rule s) (State.rehearse_screen named flag auto)).trans (houseRequest_refused a e)

end OfScreen

/-- A rehearsing screen enters, with its auto-answer setting. -/
theorem House.rehearseScreen_on {auto : Nat} (range : auto ≤ 1) (n : Screen) (h : House) :
    h.rehearseScreen n true (some auto) =
      if (h.ctl n).rehearsal = true then (h.onCtl n fun c => { c with autoAnswer := decide (auto = 1) }, ok [])
      else if (h.ctl n).state ≠ .idle ∨ (h.line n).unit ≠ .quiet then (h, refuse .badState [])
      else ((h.onCtl n fun c => { c with rehearsal := true, autoAnswer := decide (auto = 1) }).onLine n fun l =>
        { l with rx := .blank }, ok []) := by
  obtain rfl | rfl : auto = 0 ∨ auto = 1 := by omega
  · rfl
  · rfl

theorem House.rehearseScreen_off (auto : Option Nat) (n : Screen) (h : House) : h.rehearseScreen n false auto =
      if (h.ctl n).rehearsal = false then (h, ok [])
      else if (h.ctl n).state ≠ .idle ∨ (h.line n).unit ≠ .quiet then (h, refuse .badState [])
      else ((h.onCtl n fun c => { c with rehearsal := false, generator := none }).onLine n fun l =>
        { l with autoDue := none }, ok []) := rfl

section OfLane

variable {tag unit : Nat} {s : State} {k : EntryId} (a : s.accepting) (named : entryOfCode unit = some k)

include a named

theorem rehearseLane_refused {setting : Nat} (flag : setting ≤ 1) (auto : Option Nat) {status : Status}
    (e : s.taken.rehearseLane (setting = 1) k = (s.taken, refuse status [])) :
    exec (.rehearse tag unit setting auto) s = .next (s.turnedDown 0x60 tag status (s.lane k).block) :=
  (congrArg (fun rule => request 0x60 tag rule s) (State.rehearse_lane named flag auto)).trans
    (entryRequest_refused (detail := []) a named e)

theorem rehearseLane_accepted {setting : Nat} (flag : setting ≤ 1) (auto : Option Nat) {t : State}
    (e : s.taken.rehearseLane (setting = 1) k = (t, ok [])) :
    exec (.rehearse tag unit setting auto) s = .next (State.answered 0x60 tag .ok (t.lane k).block t) :=
  (congrArg (fun rule => request 0x60 tag rule s) (State.rehearse_lane named flag auto)).trans
    (entryRequest_accepted (fields := []) a named e)

end OfLane

/-- A lane that enters or leaves rehearsal takes its new record. -/
theorem State.onLane_answered (k : EntryId) (f : EntryLane → EntryLane) (s : State) (kind tag : Nat) :
    State.answered kind tag .ok ((s.onLane k f).lane k).block (s.onLane k f) =
      State.answered kind tag .ok (f (s.lane k)).block { s with lanes := tset s.lanes k (f (s.lane k)) } := by
  rw [State.onLane_lane_self]
  rfl

section OfStation

variable {tag unit : Nat} {s : State} {st : StationId} (a : s.accepting) (named : stationOfCode unit = some st)

include a named

theorem rehearseStation_accepted {setting : Nat} (flag : setting ≤ 1) (auto : Option Nat) {h : House}
    (e : s.taken.house.rehearseStation st (setting = 1) = (h, ok [])) :
    exec (.rehearse tag unit setting auto) s = .next (s.replied h 0x60 tag []) :=
  (congrArg (fun rule => request 0x60 tag rule s) (State.rehearse_station named flag auto)).trans (houseRequest_accepted a e)

theorem rehearseStation_refused {setting : Nat} (flag : setting ≤ 1) (auto : Option Nat) {status : Status}
    (e : s.taken.house.rehearseStation st (setting = 1) = (s.taken.house, refuse status [])) :
    exec (.rehearse tag unit setting auto) s = .next (s.turnedDown 0x60 tag status []) :=
  (congrArg (fun rule => request 0x60 tag rule s) (State.rehearse_station named flag auto)).trans (houseRequest_refused a e)

end OfStation

/-- A station that leaves rehearsal, before its VOID tickets are cleared (R183). -/
def House.stationLeaves (st : StationId) (h : House) : House :=
  h.onStation st fun x => { x with rehearsal := false, pressWait := Config.pressMs }

theorem House.stationLeaves_station (st : StationId) (h : House) : (h.stationLeaves st).station st =
    { h.station st with rehearsal := false, pressWait := Config.pressMs } := House.onStation_station ..

theorem House.rehearseStation_off {st : StationId} {h : House} (rehearses : (h.station st).rehearsal = true) :
    h.rehearseStation st false =
      ((h.stationLeaves st).clearVoids st (h.station st).queue.length, ok []) :=
  if_neg fun e => absurd (rehearses.symm.trans e) Bool.false_ne_true.symm

theorem House.stationLeaves_sound (st : StationId) (h : House) : (h.stationLeaves st).salesKept h :=
  ⟨⟨rfl, rfl, rfl, rfl, rfl, rfl, rfl, rfl, rfl, rfl, rfl, rfl, rfl⟩, rfl, rfl, rfl, rfl⟩

/-- Settles O59. -/
theorem rehearseSwitches : Obligations.RehearseSwitches := by
  intro tag unit s a
  refine ⟨fun n named => ⟨fun auto live range => ⟨fun idle quiet => ?_, fun busy => ?_⟩, fun rehearses idle quiet => ?_,
      fun rehearses busy => ?_, fun auto rehearses range => ?_, fun live => ?_, ?_⟩,
    fun auto noScreen noLane noStation => ?_,
    fun k auto named => ⟨fun on already => ?_, fun live open' => ?_, fun rehearses open' => ?_, fun rehearses closed raised => ?_,
      fun live closed raised => ?_, fun live closed down => ?_, fun rehearses closed down => ?_⟩,
    fun st auto named => ⟨fun live empty => ?_, fun live tickets => ?_, fun on already => ?_, fun rehearses =>
      ⟨fun none => ?_, fun some fine => ?_⟩⟩⟩
  · have out : ¬ (s.house.ctl n).rehearsal = true := by rw [live]; exact Bool.false_ne_true
    refine rehearseScreen_accepted a named (Nat.le_refl 1) ((House.rehearseScreen_on range n _).trans ?_)
    exact (if_neg out).trans (if_neg fun busy => busy.elim (fun e => e idle) fun e => e quiet)
  · have out : ¬ (s.house.ctl n).rehearsal = true := by rw [live]; exact Bool.false_ne_true
    refine rehearseScreen_refused a named (Nat.le_refl 1) ((House.rehearseScreen_on range n _).trans ?_)
    exact (if_neg out).trans (if_pos busy)
  · have inside : ¬ (s.house.ctl n).rehearsal = false := by rw [rehearses]; exact Bool.false_ne_true.symm
    refine rehearseScreen_accepted a named (Nat.zero_le 1) ((House.rehearseScreen_off none n _).trans ?_)
    exact (if_neg inside).trans (if_neg fun busy => busy.elim (fun e => e idle) fun e => e quiet)
  · have inside : ¬ (s.house.ctl n).rehearsal = false := by rw [rehearses]; exact Bool.false_ne_true.symm
    refine rehearseScreen_refused a named (Nat.zero_le 1) ((House.rehearseScreen_off none n _).trans ?_)
    exact (if_neg inside).trans (if_pos busy)
  · exact rehearseScreen_accepted a named (Nat.le_refl 1) ((House.rehearseScreen_on range n _).trans (if_pos rehearses))
  · exact rehearseScreen_accepted a named (Nat.zero_le 1) ((House.rehearseScreen_off none n _).trans (if_pos live))
  · exact rehearseScreen_refused a named (Nat.le_refl 1) rfl
  · exact request_refused a (State.rehearse_unknown noScreen noLane noStation (Nat.le_refl 1) auto _)
  · have same : s.taken.rehearseLane (decide ((if on then 1 else 0) = 1)) k = (s.taken, ok []) := by
      refine if_pos (already.trans ?_)
      cases on <;> rfl
    exact rehearseLane_accepted a named (by cases on <;> decide) auto same
  · have out : ¬ (s.lane k).rehearsal = true := by rw [live]; exact Bool.false_ne_true
    exact rehearseLane_refused a named (Nat.le_refl 1) auto ((if_neg out).trans (if_pos open'))
  · have inside : ¬ (s.lane k).rehearsal = false := by rw [rehearses]; exact Bool.false_ne_true.symm
    exact rehearseLane_refused a named (Nat.zero_le 1) auto ((if_neg inside).trans (if_pos open'))
  · have inside : ¬ (s.lane k).rehearsal = false := by rw [rehearses]; exact Bool.false_ne_true.symm
    have up : (s.lane k).raised = true := (if_pos rehearses).trans raised
    exact rehearseLane_refused a named (Nat.zero_le 1) auto
      ((if_neg inside).trans ((if_neg fun e => e closed).trans (if_pos up)))
  · have out : ¬ (s.lane k).rehearsal = true := by rw [live]; exact Bool.false_ne_true
    have up : (s.lane k).raised = true := (if_neg out).trans raised
    exact rehearseLane_refused a named (Nat.le_refl 1) auto
      ((if_neg out).trans ((if_neg fun e => e closed).trans (if_pos up)))
  · have out : ¬ (s.lane k).rehearsal = true := by rw [live]; exact Bool.false_ne_true
    have released : ¬ (s.lane k).raised = true := by
      rw [show (s.lane k).raised = false from (if_neg out).trans down]
      exact Bool.false_ne_true
    exact ⟨_, rfl, (rehearseLane_accepted a named (Nat.le_refl 1) auto
      ((if_neg out).trans ((if_neg fun e => e closed).trans (if_neg released)))).trans
        (congrArg Host.Outcome.next (State.onLane_answered k _ s.taken 0x60 tag))⟩
  · have inside : ¬ (s.lane k).rehearsal = false := by rw [rehearses]; exact Bool.false_ne_true.symm
    have released : ¬ (s.lane k).raised = true := by
      rw [show (s.lane k).raised = false from (if_pos rehearses).trans down]
      exact Bool.false_ne_true
    exact ⟨_, rfl, (rehearseLane_accepted a named (Nat.zero_le 1) auto
      ((if_neg inside).trans ((if_neg fun e => e closed).trans (if_neg released)))).trans
        (congrArg Host.Outcome.next (State.onLane_answered k _ s.taken 0x60 tag))⟩
  · have out : ¬ (s.house.station st).rehearsal = true := by rw [live]; exact Bool.false_ne_true
    exact rehearseStation_accepted a named (Nat.le_refl 1) auto ((if_neg out).trans ((if_pos rfl).trans (if_pos empty)))
  · have out : ¬ (s.house.station st).rehearsal = true := by rw [live]; exact Bool.false_ne_true
    exact rehearseStation_refused a named (Nat.le_refl 1) auto ((if_neg out).trans ((if_pos rfl).trans (if_neg tickets)))
  · have same : s.taken.house.rehearseStation st (decide ((if on then 1 else 0) = 1)) = (s.taken.house, ok []) := by
      refine if_pos (already.trans ?_)
      cases on <;> rfl
    exact rehearseStation_accepted a named (by cases on <;> decide) auto same
  · refine rehearseStation_accepted a named (Nat.zero_le 1) auto
      ((House.rehearseStation_off (h := s.taken.house) rehearses).trans (congrArg (fun h => (h, ok [])) ?_))
    refine House.clearVoids_none ?_ _
    rw [House.stationLeaves_station]
    exact List.filter_eq_nil_iff.2 fun t m void => none t m (of_decide_eq_true void)
  · have left := House.stationLeaves_station st s.taken.house
    have once : (s.taken.house.stationLeaves st).onceAt st := by
      unfold House.onceAt
      rw [left]
      exact ⟨fine.2.1, fine.2.2⟩
    have sales := s.taken_sales.trans (House.stationLeaves_sound st s.taken.house)
    have voids : ((s.taken.house.stationLeaves st).station st).voids = (s.house.station st).voids := by rw [left]; rfl
    have queue : ((s.taken.house.stationLeaves st).station st).queue = (s.house.station st).queue := by rw [left]; rfl
    obtain ⟨rest, cleared, kept, taken⟩ := House.clearVoids_clears (st := st) (s.taken.house.station st).queue.length once (by
      rw [voids]
      exact List.length_filter_le ..)
    refine ⟨_, rehearseStation_accepted a named (Nat.zero_le 1) auto
      (House.rehearseStation_off (h := s.taken.house) rehearses), ?_, ?_, fun t m void => ?_, fun t m state => ?_, ?_, ?_⟩
    · exact (congrArg Station.rehearsal rest).trans (by rw [left])
    · exact (congrArg Station.pressWait rest).trans (by rw [left])
    · have left' := Station.mem_voids.2 ⟨m, void⟩
      rw [cleared] at left'
      exact List.not_mem_nil left'
    · exact kept t (queue ▸ m) state
    · refine taken (.inr fun none => ?_)
      obtain ⟨t, m, void⟩ := some
      have left' := Station.mem_voids.2 ⟨m, void⟩
      rw [← voids, none] at left'
      exact List.not_mem_nil left'
    · exact sales.trans (House.clearVoids_sound st _ _).sales

end Machine
end Sys2Proof
end


-- ==== Sys2Proof/Proofs/BlockEnds.lean ====
section
/-! A block end (section 3.5): the flags of each channel pair, the silence run, and its alerts. -/

set_option autoImplicit false

namespace Sys2Proof
namespace Machine

/-! ### One screen after another (log entry 35) -/

/-- In a walk over different things, what the walk does to others first and last is what a relation `R` allows; between
stands the step of `n` itself. -/
theorem foldl_around {σ β : Type} {f : σ → β → σ} {R : σ → σ → Prop} {n : β} (refl : ∀ s, R s s)
    (trans : ∀ {a b c}, R a b → R b c → R a c) (apart : ∀ s m, m ≠ n → R s (f s m)) {l : List β} (nodup : l.Nodup)
    (inside : n ∈ l) (s : σ) : ∃ s1, R s s1 ∧ R (f s1 n) (l.foldl f s) := by
  have others (l : List β) : ∀ s, n ∉ l → R s (l.foldl f s) := by
    induction l with
    | nil => exact fun s _ => refl s
    | cons m rest ih =>
      intro s out
      obtain ⟨ne, out⟩ := not_or.1 fun e => out (List.mem_cons.2 e)
      exact trans (apart s m fun e => ne e.symm) (ih _ out)
  induction l generalizing s with
  | nil => exact absurd inside List.not_mem_nil
  | cons m rest ih =>
    obtain ⟨out, nodup⟩ := List.nodup_cons.1 nodup
    rw [List.foldl_cons]
    rcases List.mem_cons.1 inside with rfl | inside
    · exact ⟨s, refl s, others rest _ out⟩
    · have ne : m ≠ n := fun e => out (e ▸ inside)
      obtain ⟨s1, before, after⟩ := ih nodup inside (f s m)
      exact ⟨s1, trans (apart s m ne) before, after⟩

theorem allScreens_nodup : allScreens.Nodup := by decide

/-! ### What a fault leaves of the gains (R17) -/

theorem House.enterStopping_gain (n m : Screen) (outcome : ShowOutcome) (byAbort : Bool) (h : House) :
    (h.enterStopping n outcome byAbort).gain m = h.gain m := by
  unfold House.enterStopping
  dsimp only
  rw [House.publish_gain]
  exact House.abandon_gain n m h

theorem House.showFault_gain (n m : Screen) (fatal : Bool) (cause : Cause) (h : House) :
    (h.showFault n fatal cause).gain m = h.gain m := by
  unfold House.showFault
  dsimp only
  split
  · rfl
  · split_ifs
    · exact House.enterStopping_gain ..
    · rfl
  · split
    · exact House.enterStopping_gain ..
    · rfl
  · rfl

theorem House.silenceReport_gain (n m : Screen) (h : House) : (h.silenceReport n).gain m = h.gain m := by
  unfold House.silenceReport
  dsimp only
  split_ifs
  · exact House.showFault_gain ..
  · rfl

theorem House.silenceReport_kept (n : Screen) (h : House) : House.showKept n (h.silenceReport n) h :=
  House.showKept_of (House.silenceReport_stage ..) fun _ ne =>
    haveI := ne
    House.silenceReport_apart ..

/-! ### The silence run (R61, R62) -/

/-- The screen shows a PLAY tagged FEATURE, whose silence is listened for (R61). -/
abbrev House.listening (h : House) (n : Screen) : Prop :=
  (h.ctl n).state = .showing ∧ (h.entry n).kind = .play ∧ (h.entry n).tag = .feature

/-- A fault of silence is raised once in an entry (R18, R62). -/
theorem House.silenceReport_again {n : Screen} {h : House} (raised : (h.ctl n).silentRaised = true) :
    h.silenceReport n = h := if_neg fun ⟨_, _, _, first⟩ => first raised

theorem House.silenceReport_first {n : Screen} {h : House} (listens : h.listening n)
    (first : (h.ctl n).silentRaised = false) :
    h.silenceReport n = (h.onCtl n fun c => { c with silentRaised := true }).showFault n false .programmeSilent := by
  obtain ⟨state, kind, tag⟩ := listens
  exact if_pos ⟨state, kind, tag, by rw [first]; exact Bool.false_ne_true⟩

/-- The house in which a silence run has grown by a block. -/
def House.silentOn (n : Screen) (h : House) : House := h.onGain n fun g => { g with silenceRun := bumpTo 60000 g.silenceRun }

theorem House.endSilence_stops {n : Screen} {silent : Bool} {h : House} (loud : ¬ (h.listening n ∧ silent = true)) (limit : Nat) :
    h.endSilence n silent limit = h.onGain n fun g => { g with silenceRun := 0, reported := false } := by
  refine if_neg fun ⟨listens, quiet⟩ => loud ⟨of_decide_eq_true listens, quiet⟩

theorem House.endSilence_goesOn {n : Screen} {h : House} (listens : h.listening n) {limit : Nat}
    (short : bumpTo 60000 (h.gain n).silenceRun < limit * 1000 ∨ (h.gain n).reported = true) :
    h.endSilence n true limit = h.silentOn n := by
  refine (if_pos ⟨decide_eq_true listens, rfl⟩).trans (if_neg fun ⟨long, first⟩ => ?_)
  rw [House.onGain_gain] at long first
  rcases short with s | r
  · exact absurd long (Nat.not_le.2 s)
  · exact first r

theorem House.endSilence_reports {n : Screen} {h : House} (listens : h.listening n) {limit : Nat}
    (long : limit * 1000 ≤ bumpTo 60000 (h.gain n).silenceRun) (first : (h.gain n).reported = false) :
    h.endSilence n true limit =
      (((h.silentOn n).onGain n fun g => { g with reported := true }).silenceReport n).notify .levelAlert
        [u8 (screenCode n), u8 silentCause, u8 ((h.ctl n).record.current.getD 0)] := by
  refine (if_pos ⟨decide_eq_true listens, rfl⟩).trans (if_pos ⟨?_, ?_⟩)
  · rw [House.onGain_gain]
    exact long
  · rw [House.onGain_gain]
    exact fun e => absurd (first.symm.trans e) Bool.false_ne_true

/-- The three things that a block end can do to a silence run (R61, R62). -/
theorem House.endSilence_cases (n : Screen) (silent : Bool) (limit : Nat) (h : House) :
    (¬ (h.listening n ∧ silent = true)
        ∧ h.endSilence n silent limit = h.onGain n fun g => { g with silenceRun := 0, reported := false })
    ∨ ((h.listening n ∧ silent = true) ∧ h.endSilence n silent limit = h.silentOn n)
    ∨ ((h.listening n ∧ silent = true) ∧ h.endSilence n silent limit =
        (((h.silentOn n).onGain n fun g => { g with reported := true }).silenceReport n).notify .levelAlert
          [u8 (screenCode n), u8 silentCause, u8 ((h.ctl n).record.current.getD 0)]) := by
  by_cases quiet : h.listening n ∧ silent = true
  · refine .inr ?_
    obtain ⟨listens, rfl⟩ := quiet
    by_cases long : limit * 1000 ≤ bumpTo 60000 (h.gain n).silenceRun
    · cases told : (h.gain n).reported with
      | true => exact .inl ⟨⟨listens, rfl⟩, House.endSilence_goesOn listens (.inr told)⟩
      | false => exact .inr ⟨⟨listens, rfl⟩, House.endSilence_reports listens long told⟩
    · exact .inl ⟨⟨listens, rfl⟩, House.endSilence_goesOn listens (.inl (Nat.not_le.1 long))⟩
  · exact .inl ⟨quiet, House.endSilence_stops quiet limit⟩

theorem House.endSilence_apart (n m : Screen) [Fact (n ≠ m)] (silent : Bool) (limit : Nat) (h : House) :
    House.Apart m h (h.endSilence n silent limit) := by
  have run : House.Apart m h (h.silentOn n) := .gain ..
  obtain ⟨-, e⟩ | ⟨-, e⟩ | ⟨-, e⟩ := House.endSilence_cases n silent limit h <;> rw [e]
  · exact .gain ..
  · exact run
  · exact .trans (.trans run (.gain ..)) (.trans (House.silenceReport_apart ..) (House.notify_apart ..))

/-- The silence run after a block (R61): one more while a silent FEATURE is shown, else 0. -/
theorem House.endSilence_run (n : Screen) (silent : Bool) (limit : Nat) (h : House) :
    ((h.endSilence n silent limit).gain n).silenceRun =
      if h.listening n ∧ silent = true then bumpTo 60000 (h.gain n).silenceRun else 0 := by
  obtain ⟨loud, e⟩ | ⟨quiet, e⟩ | ⟨quiet, e⟩ := House.endSilence_cases n silent limit h <;> rw [e]
  · rw [if_neg loud, House.onGain_gain]
  · rw [if_pos quiet, House.silentOn, House.onGain_gain]
  · rw [if_pos quiet, House.notify_gain, House.silenceReport_gain, House.onGain_gain, House.silentOn, House.onGain_gain]

/-! ### One screen's block end (R59 to R62) -/

/-- The outbox once a clip summary that becomes set has been told (R60). -/
def State.toldClipped (u : State) (n : Screen) : Outbox :=
  if 0 < (u.channel n).clips ∧ (u.channel n).summary = false then
    u.house.out.push
      { kind := .levelAlert, time := u.house.clock, fields := [u8 (screenCode n), u8 1, u8 (u.channel n).clips] }
  else u.house.out

theorem State.endScreen_house (u : State) (n : Screen) : (u.endScreen n).house =
    ({ u.house with out := u.toldClipped n } : House).endSilence n
      (silentBlock (u.channel n).peakIn (u.channel n).settings.silence) (u.channel n).settings.limit := by
  have told : (if (u.channel n).endBlock.summary ∧ ¬ (u.channel n).summary then
      u.house.notify .levelAlert [u8 (screenCode n), u8 clippedCause, u8 (u.channel n).clips] else u.house) =
        { u.house with out := u.toldClipped n } := by
    have same : ((u.channel n).endBlock.summary = true ∧ ¬ (u.channel n).summary = true)
        ↔ 0 < (u.channel n).clips ∧ (u.channel n).summary = false := by
      unfold Channel.endBlock
      dsimp only
      cases (u.channel n).summary <;> simp
    unfold State.toldClipped
    by_cases news : 0 < (u.channel n).clips ∧ (u.channel n).summary = false
    · rw [if_pos news, if_pos (same.2 news)]
      rfl
    · rw [if_neg news, if_neg fun e => news (same.1 e)]
  exact congrArg (fun h : House => h.endSilence n (u.channel n).endBlock.silent (u.channel n).settings.limit) told

/-- A block is SILENT below its threshold, and always at the largest one (R59, log entry 41). -/
theorem silentBlock_iff (peak threshold : Nat) : silentBlock peak threshold = true ↔ peak < threshold ∨ 8388608 ≤ threshold :=
  decide_eq_true_iff

/-- What a block end of a screen keeps of another one. -/
structure State.ScreenKept (n : Screen) (s t : State) : Prop where
  apart : House.Apart n s.house t.house
  cues : t.house.cues = s.house.cues
  channel : t.channel n = s.channel n

theorem State.endScreen_others (n m : Screen) (ne : m ≠ n) (s : State) : State.ScreenKept n s (s.endScreen m) := by
  have : Fact (m ≠ n) := ⟨ne⟩
  have same := State.endScreen_house s m
  refine ⟨?_, ?_, ?_⟩
  · rw [same]
    exact (⟨rfl, rfl, rfl⟩ : House.Apart n s.house { s.house with out := s.toldClipped m }).trans (House.endSilence_apart ..)
  · rw [same]
    exact (House.endSilence_stage ..).kept.cues
  · exact tget_tmod_ne _ _ _ _ ne.symm

theorem State.endScreen_channel (n : Screen) (s : State) : (s.endScreen n).channel n = (s.channel n).endBlock :=
  tget_tmod_self ..

/-- A block end changes the house and the channel pairs. -/
theorem State.foldl_endScreen_rest (l : List Screen) (s : State) : l.foldl State.endScreen s =
    { s with house := (l.foldl State.endScreen s).house, channels := (l.foldl State.endScreen s).channels } := by
  induction l generalizing s with
  | nil => rfl
  | cons n rest ih =>
    rw [List.foldl_cons, ih]
    rfl

theorem State.foldl_endScreen_kept (l : List Screen) (s : State) :
    (l.foldl State.endScreen s).house.settingsKept s.house ∧ (l.foldl State.endScreen s).house.clock = s.house.clock
      ∧ ∀ n, ((l.foldl State.endScreen s).house.gain n).gp = (s.house.gain n).gp := by
  induction l generalizing s with
  | nil => exact ⟨.refl _, rfl, fun _ => rfl⟩
  | cons m rest ih =>
    obtain ⟨settings, clock, gp⟩ := ih (s.endScreen m)
    have kept := (House.endSilence_stage m (silentBlock (s.channel m).peakIn (s.channel m).settings.silence)
      (s.channel m).settings.limit { s.house with out := s.toldClipped m }).kept
    rw [← State.endScreen_house] at kept
    have mask : (s.toldClipped m).mask = s.house.out.mask := by
      unfold State.toldClipped
      split_ifs
      · exact Outbox.push_mask ..
      · rfl
    have told : ({ s.house with out := s.toldClipped m } : House).settingsKept s.house :=
      ⟨mask, rfl, rfl, rfl, rfl, rfl, rfl, rfl, rfl, rfl, rfl, rfl, rfl⟩
    exact ⟨settings.trans (kept.settings.trans told), clock.trans kept.clock, fun n => (gp n).trans (kept.gains n)⟩

/-- Settles O38. -/
theorem blockEndJudgesBlock : Obligations.BlockEndJudgesBlock := by
  refine ⟨fun u n => ?_, fun s => ⟨_, rfl, rfl, State.foldl_endScreen_rest allScreens s,
    (State.foldl_endScreen_kept allScreens s).1, (State.foldl_endScreen_kept allScreens s).2.1, fun n => ?_⟩⟩
  · intro c listening run told alert
    have whole := State.endScreen_house u n
    have quiet (x : listening) : silentBlock c.peakIn c.settings.silence = true := by
      obtain ⟨-, -, -, silent⟩ := x
      exact (silentBlock_iff _ _).2 silent
    have listens (x : listening) : House.listening { u.house with out := u.toldClipped n } n := by
      obtain ⟨state, kind, tag, -⟩ := x
      exact ⟨state, kind, tag⟩
    refine ⟨fun loud => ?_, fun on short => ?_, fun on long first => ?_⟩
    · rw [whole, House.endSilence_stops]
      · rfl
      · rintro ⟨⟨state, kind, tag⟩, silent⟩
        exact loud ⟨state, kind, tag, (silentBlock_iff _ _).1 silent⟩
    · rw [quiet on, House.endSilence_goesOn (listens on) short] at whole
      rw [whole]
      exact congrArg (fun g => { u.house with gains := tset u.house.gains n g, out := u.toldClipped n }) rfl
    · rw [quiet on, House.endSilence_reports (listens on) long first] at whole
      generalize e2 : (({ u.house with out := u.toldClipped n } : House).silentOn n).onGain n
        (fun g => { g with reported := true }) = h2 at whole
      have gain : h2.gain n = { u.house.gain n with silenceRun := run, reported := true } := by
        rw [← e2, House.onGain_gain, House.silentOn, House.onGain_gain]
        rfl
      have ctl : h2.ctl n = u.house.ctl n := by rw [← e2]; rfl
      have clock : h2.clock = u.house.clock := by rw [← e2]; rfl
      have out : h2.out = told := by rw [← e2]; rfl
      have hears : h2.listening n := by rw [← e2]; exact listens on
      have kept := House.silenceReport_kept n h2
      refine ⟨_, (h2.silenceReport n).out, whole, ?_, ?_, fun raised => ?_, fun d firstTime running => ⟨fun policy => ?_,
        fun policy => ?_⟩⟩
      · rw [House.notify_out, kept.clock, clock]
        rfl
      · rw [House.notify_gain, House.silenceReport_gain, gain]
      · rw [House.silenceReport_again (by rw [ctl]; exact raised)]
        exact ⟨out, ctl⟩
      all_goals
        have asked := House.silenceReport_first hears (by rw [ctl]; exact firstTime)
        have ctl3 : (h2.onCtl n fun c => { c with silentRaised := true }).ctl n =
            { u.house.ctl n with silentRaised := true } := by rw [House.onCtl_ctl, ctl]
        have out3 : (h2.onCtl n fun c => { c with silentRaised := true }).out = told := out
        have clock3 : (h2.onCtl n fun c => { c with silentRaised := true }).clock = u.house.clock := clock
        generalize (h2.onCtl n fun c => { c with silentRaised := true }) = h3 at asked ctl3 out3 clock3
        obtain ⟨state, -⟩ := on
      · rw [House.showFault_stops (by rw [ctl3]; exact state) (.inr fun e found => ?_)] at asked
        · obtain ⟨k, stopped⟩ := House.enterStopping_ctl n .stopped false (h3.recordFault n .programmeSilent)
          rw [← asked, House.recordFault_ctl, ctl3] at stopped
          rw [House.notify_ctl, stopped]
          exact ⟨rfl, rfl, rfl⟩
        · rw [ctl3] at found
          obtain rfl : d = e := Option.some.inj (running.symm.trans found)
          exact policy
      · rw [House.showFault_runs (by rw [ctl3]; exact state) (by rw [ctl3]; exact running) policy] at asked
        have faulted : (u.house.faulted n .programmeSilent).ctl n = { u.house.ctl n with record :=
          { (u.house.ctl n).record with
            faults := bumpTo 255 (u.house.ctl n).record.faults
            firstCause := (u.house.ctl n).record.firstCause.or (some .programmeSilent) } } := House.onCtl_ctl ..
        have reported : (h3.recordFault n .programmeSilent).out = h3.out.push
            { kind := .screenFault, time := h3.clock
              fields := [u8 (screenCode n), u16 (h3.ctl n).record.showId, u8 Cause.programmeSilent.code]
                ++ uOpt 1 (h3.ctl n).record.current } := rfl
        rw [House.notify_ctl, asked, House.recordFault_ctl, ctl3, faulted, reported, out3, clock3, ctl3]
        exact ⟨rfl, rfl⟩
  · obtain ⟨s1, before, after⟩ := foldl_around (R := State.ScreenKept n) (f := State.endScreen)
      (fun _ => ⟨⟨rfl, rfl, rfl⟩, rfl, rfl⟩)
      (fun x y => ⟨x.apart.trans y.apart, y.cues.trans x.cues, y.channel.trans x.channel⟩)
      (fun s m ne => State.endScreen_others n m ne s) allScreens_nodup (mem_allScreens n) s
    refine ⟨?_, (State.foldl_endScreen_kept allScreens s).2.2 n, ?_⟩
    · unfold State.blockEnd
      rw [after.channel, State.endScreen_channel, before.channel]
      rfl
    · have entry : s1.house.entry n = s.house.entry n := by
        unfold House.entry
        rw [before.apart.show']
        simp only [House.cue_congr before.cues]
      have listens : House.listening { s1.house with out := s1.toldClipped n } n ↔ s.house.listening n := by
        refine Iff.trans (b := s1.house.listening n) .rfl ?_
        unfold House.listening
        rw [entry, before.apart.show']
      unfold State.blockEnd
      rw [after.apart.gain', State.endScreen_house, before.channel, House.endSilence_run]
      refine if_congr ?_ (congrArg (fun g => bumpTo 60000 g.silenceRun) before.apart.gain') rfl
      rw [listens, silentBlock_iff]
      unfold House.listening
      rw [and_assoc, and_assoc]

end Machine
end Sys2Proof
end


-- ==== Sys2Proof/Proofs/SampleFrames.lean ====
section
/-! A sample frame (sections 3.1 to 3.3, 3.6 and 4.4): the players, the delay lines, the mix and the booth monitor. -/

set_option autoImplicit false

namespace Sys2Proof
namespace Machine

/-! ### The player inside a clip (R88) -/

/-- The clip that a player is playing for the announcement it holds. -/
def House.clipUnderWay (h : House) (x : Ann) : ClipRec := h.clip (x.clips.getD (x.position - 1) 0)

theorem House.advancePlayer_inside {h : House} {n : Screen} {x : Ann} (playing : (h.player n).state = .playing)
    (held : h.heldAnn n = some x) (more : (h.player n).sample + 1 < (h.clipUnderWay x).length) :
    h.advancePlayer n = h.onPlayer n fun p => { p with sample := p.sample + 1 } := by
  unfold House.advancePlayer
  dsimp only
  rw [playing, held]
  exact if_neg (Nat.not_le.2 more)

theorem House.advancePlayer_ends {h : House} {n : Screen} {x : Ann} (playing : (h.player n).state = .playing)
    (held : h.heldAnn n = some x) (last : (h.clipUnderWay x).length ≤ (h.player n).sample + 1) :
    h.advancePlayer n = (h.onPlayer n fun p => { p with sample := p.sample + 1 }).endClip n := by
  unfold House.advancePlayer
  dsimp only
  rw [playing, held]
  exact if_pos last

/-! ### The next clip of an announcement (R89) -/

/-- The held announcement, and whether it is suspended, under a change of the player that keeps it held. -/
theorem House.heldAnn_onPlayer {h : House} {n : Screen} {f : Player → Player} (same : (f (h.player n)).held = (h.player n).held) :
    (h.onPlayer n f).heldAnn n = h.heldAnn n := by
  unfold House.heldAnn
  rw [House.onPlayer_player, same]
  rfl

theorem House.suspends_onPlayer {h : House} {n : Screen} {f : Player → Player} (same : (f (h.player n)).held = (h.player n).held)
    (a : Ann) : (h.onPlayer n f).suspends n a = h.suspends n a := by
  unfold House.suspends
  rw [House.onPlayer_player, same]
  rfl

/-- The announcement of an id that goes on to its next clip. -/
def House.nextClip (n : Screen) (id : Nat) (h : House) : House := h.onAnn n id fun b => { b with position := b.position + 1 }

theorem House.nextClip_queue (n : Screen) (id : Nat) (h : House) : (h.nextClip n id).queue n =
    (h.queue n).map fun b => if b.id = id then { b with position := b.position + 1 } else b := House.onQueue_queue ..

theorem House.nextClip_held {h : House} {n : Screen} {x : Ann} (held : h.heldAnn n = some x) :
    (h.nextClip n x.id).heldAnn n = some { x with position := x.position + 1 } := by
  have id := House.heldAnn_id held
  unfold House.heldAnn at held ⊢
  have player : (h.nextClip n x.id).player n = h.player n := rfl
  rw [id] at held
  rw [player, id, House.nextClip_queue]
  dsimp only at held ⊢
  have ids : ((fun a => decide (a.id = x.id)) ∘ fun b : Ann => if b.id = x.id then { b with position := b.position + 1 } else b)
      = fun a => decide (a.id = x.id) := by
    funext b
    rw [Function.comp_apply]
    split <;> rfl
  rw [List.find?_map, ids, held]
  exact congrArg some (if_pos rfl)

theorem House.nextClip_suspends {h : House} {n : Screen} (id : Nat) (x : Ann) :
    (h.nextClip n id).suspends n { x with position := x.position + 1 } = h.suspends n x := by
  unfold House.suspends
  have player : (h.nextClip n id).player n = h.player n := rfl
  have eligible : (h.nextClip n id).eligible n { x with position := x.position + 1 } = h.eligible n x := rfl
  rw [player, eligible, House.nextClip_queue, List.any_map]
  refine congrArg (fun b => !(h.eligible n x) || (decide (x.cls ≠ .safety) && b)) ?_
  refine congrArg (h.queue n).any (funext fun b => ?_)
  rw [Function.comp_apply]
  split <;> rfl

theorem House.nextClip_nobody {h : House} {n : Screen} (id : Nat) (nobody : h.nobodyExpires n) :
    (h.nextClip n id).nobodyExpires n := fun a m => by
  rw [House.nextClip_queue] at m
  obtain ⟨b, bm, rfl⟩ := List.mem_map.1 m
  have classes : (h.nextClip n id).classes = h.classes := rfl
  rw [House.classRow_congr classes]
  split
  · exact nobody b bm
  · exact nobody b bm

/-- A clip that does not begin an announcement starts with nothing to tell (R88). -/
theorem House.startClip_later {h : House} {n : Screen} {a : Ann} (held : h.heldAnn n = some a) (later : a.position ≠ 1) :
    h.startClip n = h.onPlayer n fun p => { p with state := .playing, sample := 0, gapLeft := 0 } := by
  unfold House.startClip
  dsimp only
  rw [House.heldAnn_onPlayer rfl, held]
  exact if_neg later

/-- The end of a clip that is not the last of its announcement (R89): a gap, or with a gap of 0 the next clip at once. -/
theorem House.endClip_nextClip {h : House} {n : Screen} {x : Ann} (playing : (h.player n).state = .playing)
    (held : h.heldAnn n = some x) (stays : x.removed = false) (low : 1 ≤ x.position) (more : x.position < x.clips.length)
    (goesOn : h.suspends n x = false) (nobody : h.nobodyExpires n) :
    h.endClip n = (h.nextClip n x.id).onPlayer n fun p =>
      if h.gap = 0 then { p with state := .playing, sample := 0, gapLeft := 0 }
      else { p with state := .gap, gapLeft := h.gap * Config.blockFrames } := by
  have ends : h.endClip n = (h.nextClip n x.id).afterClip n := by
    unfold House.endClip
    rw [held]
    dsimp only
    rw [if_neg (by rw [stays]; exact Bool.false_ne_true), if_neg (Nat.not_le.2 more)]
    rfl
  have held' := House.nextClip_held held
  have goesOn' : (h.nextClip n x.id).suspends n { x with position := x.position + 1 } = false :=
    (House.nextClip_suspends x.id x).trans goesOn
  have nobody' := House.nextClip_nobody x.id nobody
  have playing' : ((h.nextClip n x.id).player n).state = .playing := playing
  have gap : (h.nextClip n x.id).gap = h.gap := rfl
  rw [ends]
  generalize h.nextClip n x.id = h1 at held' goesOn' nobody' playing' gap ⊢
  unfold House.afterClip
  rw [House.decideNext_goesOn held' goesOn']
  dsimp only
  rw [if_neg (by rw [playing']; decide), gap]
  have nobody2 : ∀ f : Player → Player, (h1.onPlayer n f).nobodyExpires n := fun _ => nobody'
  by_cases none : h.gap = 0
  · simp only [if_pos none]
    unfold House.endGap
    rw [House.decideNext_goesOn (a := { x with position := x.position + 1 }) ((House.heldAnn_onPlayer rfl).trans held')
      ((House.suspends_onPlayer rfl _).trans goesOn')]
    dsimp only
    rw [if_neg (by rw [House.onPlayer_player]; exact fun e => nomatch e), House.startClip_later (a := { x with position := x.position + 1 })
      ((House.heldAnn_onPlayer rfl).trans held') (by dsimp only; omega)]
    have twice : ((h1.onPlayer n fun p => { p with state := .gap, gapLeft := h.gap * Config.blockFrames }).onPlayer n fun p =>
        { p with state := .playing, sample := 0, gapLeft := 0 }) =
          h1.onPlayer n fun p => { p with state := .playing, sample := 0, gapLeft := 0 } := by
      unfold House.onPlayer tmod
      rw [tget_tset_self, tset_tset]
    rw [twice, House.settleQueue_of_nobody (nobody2 _)]
  · simp only [if_neg none]
    rw [House.settleQueue_of_nobody (nobody2 _)]

/-! ### The last clip of an announcement (R83, R89) -/

/-- The end of an announcement: it departs, and with nothing eligible behind it the player releases. -/
theorem House.endClip_last {h : House} {n : Screen} {x : Ann} {d : Departure} (playing : (h.player n).state = .playing)
    (held : h.heldAnn n = some x) (departs : h.endClip n = (h.depart n x d).afterClip n) (waits : h.nobodyWaits n)
    (nobody : h.nobodyExpires n) (others : ∀ b ∈ h.queue n, b.id ≠ x.id → h.eligible n b = false) :
    h.endClip n = (h.departed n x d).onPlayer n fun p => { p with state := .release, held := none, gapLeft := 0 } := by
  have gone := House.depart_of_nobody x d waits
  have rest := House.departed_rest n x d h
  have player : (h.departed n x d).player n = { h.player n with held := none } := by
    unfold House.departed
    rw [House.departureCount_rest, House.departureNotice_rest]
    refine (House.onPlayer_player ..).trans ?_
    rw [House.takeOut_eq]
    exact if_pos (House.heldAnn_id held)
  have queue : (h.departed n x d).queue n = (h.queue n).filter fun b => b.id ≠ x.id := by
    rw [House.departed_queue, if_pos rfl]
  have row : (h.departed n x d).row n = h.row n := by rw [rest]; rfl
  have classes : (h.departed n x d).classes = h.classes := by rw [rest]
  rw [House.selectPlayer_busy (.inl (by rw [player]; exact playing))] at gone
  rw [departs, gone]
  generalize h.departed n x d = h1 at player queue row classes ⊢
  have nobody1 : ∀ f : Player → Player, (h1.onPlayer n f).nobodyExpires n := fun f a m => by
    have m : a ∈ h1.queue n := m
    rw [queue] at m
    have rowOf : (h1.onPlayer n f).classRow a.cls = h.classRow a.cls := House.classRow_congr (a := h) classes a.cls
    rw [rowOf]
    exact nobody a (List.mem_filter.1 m).1
  have free : h1.heldAnn n = none := by
    unfold House.heldAnn
    rw [player]
  have nothing : ∀ f : Player → Player, (h1.onPlayer n f).firstEligible n = none := fun f => by
    refine List.find?_eq_none.2 fun a m => ?_
    have m : a ∈ h1.queue n := m
    rw [queue] at m
    obtain ⟨m, other⟩ := List.mem_filter.1 m
    have same : (h1.onPlayer n f).eligible n a = h.eligible n a := by
      unfold House.eligible
      rw [show (h1.onPlayer n f).row n = h.row n from row]
    rw [same, others a m (of_decide_eq_true other)]
    exact Bool.false_ne_true
  have twice : ((h1.onPlayer n fun p => { p with held := none }).onPlayer n fun p =>
      { p with state := .release, gapLeft := 0 }) =
        h1.onPlayer n fun p => { p with state := .release, held := none, gapLeft := 0 } := by
    unfold House.onPlayer tmod
    rw [tget_tset_self, tset_tset]
  have decided : h1.decideNext n = h1.onPlayer n fun p => { p with state := .release, held := none, gapLeft := 0 } := by
    unfold House.decideNext
    rw [free]
    dsimp only
    rw [House.onPlayer_player, nothing]
    exact twice
  unfold House.afterClip
  rw [decided]
  dsimp only
  rw [if_pos (by rw [House.onPlayer_player]), House.settleQueue_of_nobody (nobody1 _)]

/-! ### One channel pair through a frame (R47, R50, R54) -/

theorem Config.unitFrames_pos (units : Nat) : units * Config.unitFrames = 0 ↔ units = 0 := by
  unfold Config.unitFrames
  omega

theorem State.foldl_advancePlayer_sales (l : List Screen) (h : House) :
    (l.foldl (fun h n => h.advancePlayer n) h).salesKept h :=
  (House.foldl_sound _ (fun h n => House.advancePlayer_sound n h) l h).kept.sales

/-- What the frame that ends a clip before the last leaves (R88, R89). -/
theorem House.advancePlayer_nextClip {h : House} {n : Screen} {x : Ann} (playing : (h.player n).state = .playing)
    (held : h.heldAnn n = some x) (last : (h.clipUnderWay x).length ≤ (h.player n).sample + 1)
    (stays : x.removed = false) (low : 1 ≤ x.position) (more : x.position < x.clips.length)
    (goesOn : h.suspends n x = false) (nobody : h.nobodyExpires n) :
    h.advancePlayer n = ((h.onPlayer n fun p => { p with sample := p.sample + 1 }).nextClip n x.id).onPlayer n fun p =>
      if h.gap = 0 then { p with state := .playing, sample := 0, gapLeft := 0 }
      else { p with state := .gap, gapLeft := h.gap * Config.blockFrames } := by
  rw [House.advancePlayer_ends playing held last]
  have playing' : ((h.onPlayer n fun p => { p with sample := p.sample + 1 }).player n).state = .playing := by
    rw [House.onPlayer_player]
    exact playing
  have nobody' : (h.onPlayer n fun p => { p with sample := p.sample + 1 }).nobodyExpires n := nobody
  exact House.endClip_nextClip playing' ((House.heldAnn_onPlayer rfl).trans held) stays low more
    ((House.suspends_onPlayer rfl x).trans goesOn) nobody'

/-- How the announcement under way ends with its clip (R83, R88). -/
def Ann.ending (x : Ann) : Departure := if x.removed then .removed true else .played

theorem House.endClip_departs {h : House} {n : Screen} {x : Ann} (held : h.heldAnn n = some x)
    (done : x.removed = true ∨ x.clips.length ≤ x.position) : h.endClip n = (h.depart n x x.ending).afterClip n := by
  unfold House.endClip Ann.ending
  rw [held]
  dsimp only
  by_cases removed : x.removed = true
  · rw [if_pos removed, if_pos removed]
  · rw [if_neg removed, if_neg removed, if_pos (done.resolve_left removed)]

/-- What the frame that ends the last clip leaves (R83, R88, R89). -/
theorem House.advancePlayer_departs {h : House} {n : Screen} {x : Ann} (playing : (h.player n).state = .playing)
    (held : h.heldAnn n = some x) (last : (h.clipUnderWay x).length ≤ (h.player n).sample + 1)
    (done : x.removed = true ∨ x.clips.length ≤ x.position) (waits : h.nobodyWaits n) (nobody : h.nobodyExpires n)
    (others : ∀ b ∈ h.queue n, b.id ≠ x.id → h.eligible n b = false) :
    h.advancePlayer n = ((h.onPlayer n fun p => { p with sample := p.sample + 1 }).departed n x x.ending).onPlayer n
      fun p => { p with state := .release, held := none, gapLeft := 0 } := by
  rw [House.advancePlayer_ends playing held last]
  have playing' : ((h.onPlayer n fun p => { p with sample := p.sample + 1 }).player n).state = .playing := by
    rw [House.onPlayer_player]
    exact playing
  have held' : (h.onPlayer n fun p => { p with sample := p.sample + 1 }).heldAnn n = some x :=
    (House.heldAnn_onPlayer rfl).trans held
  exact House.endClip_last playing' held' (House.endClip_departs held' done) waits nobody others

theorem House.departed_player_ne {n m : Screen} (other : m ≠ n) (a : Ann) (d : Departure) (h : House) :
    (h.departed n a d).player m = h.player m := by
  unfold House.departed
  rw [House.departureCount_rest, House.departureNotice_rest, House.takeOut_eq]
  exact House.onPlayer_player_ne n m _ _ other

/-- The notice of an announcement that ends with its clip (R83; log entry 12). -/
theorem House.departed_out (n : Screen) (x : Ann) (h : House) : (h.departed n x x.ending).out = h.out.push
    { kind := .announceDone, time := h.clock
      fields := annFields n x ++ (if x.removed then [u8 2] ++ uOpt 1 none else [u8 1] ++ uOpt 1 (some x.clips.length)) } := by
  unfold House.departed Ann.ending
  rw [House.departureCount_rest, House.takeOut_eq]
  by_cases removed : x.removed = true
  · rw [if_pos removed, if_pos removed]
    rfl
  · rw [if_neg removed, if_neg removed]
    rfl

theorem Ann.ending_counts (x : Ann) : x.ending ≠ .removed false := by
  unfold Ann.ending
  split
  · exact fun e => nomatch e
  · exact fun e => nomatch e

theorem readLine_capacity (units delay : Nat) (f : StereoFrame) (line : List StereoFrame) :
    readLine (units * Config.unitFrames) delay f line = if units = 0 then f else line.getD delay .zero :=
  if_congr (Config.unitFrames_pos units) rfl rfl

theorem State.sampleFrame_channel (pgm : Vector StereoFrame 4) (s : State) (n : Screen) : (s.sampleFrame pgm).channel n =
    (s.channel n).frame s.capacity (s.house.gain n).gp (s.clipSample n) (tget pgm n) := tget_ofFn ..

theorem State.sampleFrame_mon (pgm : Vector StereoFrame 4) (s : State) : (s.sampleFrame pgm).mon =
    (s.monitor.map fun n => ((s.sampleFrame pgm).channel n).fmx).getD .zero := by
  unfold State.sampleFrame
  dsimp only
  cases s.monitor with
  | none => rfl
  | some n => rfl

/-- Settles O36. -/
theorem sampleFrameMixes : Obligations.SampleFrameMixes := by
  refine ⟨fun h n x playing held => ⟨fun more => House.advancePlayer_inside playing held more,
    fun last stays low more goesOn nobody => ?_, fun last done waits nobody others => ?_⟩, fun a b c d s => ?_⟩
  case refine_1 =>
    rw [House.advancePlayer_nextClip playing held last stays low more goesOn nobody]
    refine ⟨_, rfl, rfl, House.nextClip_queue .., fun m other => ⟨?_, ?_⟩, ?_, fun gap => ?_, fun none => ?_⟩
    · exact House.onQueue_queue_ne n m _ _ other
    · exact (House.onPlayer_player_ne n m _ _ other).trans (House.onPlayer_player_ne n m _ _ other)
    · rw [House.onPlayer_player]
      have same : (((h.onPlayer n fun p => { p with sample := p.sample + 1 }).nextClip n x.id).player n).held = some x.id :=
        (congrArg Player.held (House.onPlayer_player n _ h)).trans (House.heldAnn_id held)
      split
      · exact same
      · exact same
    · rw [House.onPlayer_player, if_neg (Nat.ne_of_gt gap)]
      exact ⟨rfl, rfl⟩
    · rw [House.onPlayer_player, if_pos none]
      exact ⟨rfl, rfl⟩
  case refine_2 =>
    rw [House.advancePlayer_departs playing held last done waits nobody others]
    refine ⟨_, rfl, ?_, ?_, ?_, fun m other => ⟨?_, ?_⟩, ?_, ?_, ?_⟩
    · exact (House.departed_queue n n x x.ending _).trans (if_pos rfl)
    · rw [House.onPlayer_player]
    · rw [House.onPlayer_player]
    · exact (House.departed_queue n m x x.ending _).trans (if_neg other)
    · exact (House.onPlayer_player_ne n m _ _ other).trans ((House.departed_player_ne other x x.ending _).trans
        (House.onPlayer_player_ne n m _ _ other))
    · rw [House.onPlayer_clips, House.departed_rest]
      exact House.dropRefs_clips_congr (a := h) (b := h.onPlayer n fun p => { p with sample := p.sample + 1 }) rfl _
    · exact House.departed_out n x _
    · exact (House.departed_orders n x x.ending _).trans (if_neg x.ending_counts)
  case refine_3 =>
    refine ⟨_, rfl, rfl, rfl, State.foldl_advancePlayer_sales allScreens s.house, ?_, fun n => ?_⟩
    · refine (State.sampleFrame_mon #v[a, b, c, d] s).trans ?_
      cases s.monitor with
      | none => rfl
      | some n => rfl
    · rw [State.sampleFrame_channel]
      extract_lets x y whole f p clip ga l r
      have read : p = readLine s.capacity x.settings.delay f (x.frame s.capacity (s.house.gain n).gp (s.clipSample n)
          (tget #v[a, b, c, d] n)).line := (readLine_capacity ..).symm
      have left : l = mixSample (readLine s.capacity x.settings.delay f (writeLine s.capacity f x.line)).left
          (s.house.gain n).gp clip ga x.residueL := congrArg (fun q : StereoFrame => mixSample q.left _ clip ga _) read
      have right : r = mixSample (readLine s.capacity x.settings.delay f (writeLine s.capacity f x.line)).right
          (s.house.gain n).gp clip ga x.residueR := congrArg (fun q : StereoFrame => mixSample q.right _ clip ga _) read
      rw [left, right, read]
      refine ⟨rfl, rfl, ?_, if_congr decide_eq_true_iff rfl rfl, rfl, rfl, rfl, rfl, rfl, rfl, rfl, rfl, rfl, rfl⟩
      exact congrArg (· ++ [_]) (if_congr decide_eq_true_iff rfl rfl)

end Machine
end Sys2Proof
end


-- ==== Sys2Proof/Proofs/PlayersApart.lean ====
section
/-! What a block start does to one screen leaves the queue and the player of every other screen alone (chapter 4), in an
order table within its bounds: a departure report offers the call of an order by its number (R152). -/

set_option autoImplicit false

namespace Sys2Proof
namespace Machine

/-! ### The order table stays within its bounds (R138, R140) -/

theorem House.ordersFine_congr {a b : House} (orders : b.orders = a.orders) (next : b.nextNumber = a.nextNumber)
    (fine : a.ordersFine) : b.ordersFine := by
  unfold House.ordersFine at *
  rw [orders, next]
  exact fine

theorem House.Sound.ordersFine {h h' : House} (x : House.Sound h h') : h.ordersFine → h'.ordersFine := by
  induction x with
  | trans _ _ a b => exact b ∘ a
  | orderMap f h same => exact House.ordersFine_map f h same
  | orderDrop k h => exact House.ordersFine_filter _ h
  | place n o h _ => exact House.ordersFine_congr (by rw [House.placeAnn_eq]) (by rw [House.placeAnn_eq])
  | takeOut n a h => exact House.ordersFine_congr (by rw [House.takeOut_eq]) (by rw [House.takeOut_eq])
  | displace n v fs o h _ =>
    intro fine
    have out : House.ordersFine ((h.takeOut n v).notify .announceDropped fs) :=
      House.ordersFine_congr (a := h) (by rw [House.takeOut_eq]; rfl) (by rw [House.takeOut_eq]; rfl) fine
    have waits : House.ordersFine (((h.takeOut n v).notify .announceDropped fs).callDisplaced v.id) :=
      House.ordersFine_map _ _ (fun o => by split <;> exact ⟨rfl, rfl, rfl, rfl, rfl⟩) out
    exact House.ordersFine_congr (by rw [House.placeAnn_eq]) (by rw [House.placeAnn_eq]) waits
  | refl h => exact id
  | notify k fs h => exact id
  | player n f h => exact id
  | annMap n f h _ => exact id
  | openOrders n r p h => exact id
  | join k ls st h _ => exact id
  | tickets st g h _ => exact id
  | cook k h => exact id

theorem House.Stage.ordersFine {h h' : House} (x : House.Stage h h') : h.ordersFine → h'.ordersFine := by
  induction x with
  | trans _ _ a b => exact b ∘ a
  | sound x => exact x.ordersFine
  | refl h => exact id
  | ctl n f h => exact id
  | line n f h _ => exact id
  | gain n f h _ => exact id
  | admission n b h => exact id
  | clips c h => exact id
  | backlog b h => exact id

/-! ### One screen's queue and player -/

/-- A change leaves the queue and the player of screen `n` alone. -/
structure House.PlayerKept (n : Screen) (h h' : House) : Prop where
  queue : h'.queue n = h.queue n
  player : h'.player n = h.player n

theorem House.PlayerKept.refl {n : Screen} (h : House) : House.PlayerKept n h h := ⟨rfl, rfl⟩

theorem House.PlayerKept.trans {n : Screen} {a b c : House} (x : House.PlayerKept n a b) (y : House.PlayerKept n b c) :
    House.PlayerKept n a c := ⟨y.queue.trans x.queue, y.player.trans x.player⟩

open House (PlayerKept)

section Other
variable {n m : Screen} (ne : n ≠ m)
include ne

theorem House.selectPlayer_kept (h : House) : PlayerKept n h (h.selectPlayer m) :=
  ⟨House.selectPlayer_queue m n h, House.selectPlayer_player_ne h ne⟩

theorem House.placeAnn_kept (o : Offer) (h : House) : PlayerKept n h (h.placeAnn m o) :=
  ⟨House.placeAnn_queue_ne o h ne, House.placeAnn_player m n o h⟩

theorem House.displaced_kept (v : Ann) (h : House) : PlayerKept n h (h.displaced m v) := by
  refine ⟨?_, House.displaced_player m n v h⟩
  unfold House.displaced
  rw [House.takeOut_eq]
  exact tget_tmod_ne _ _ _ _ ne

theorem House.offer_kept (o : Offer) (h : House) : PlayerKept n h (h.offer m o).1 := by
  unfold House.offer
  extract_lets sameOrder
  split
  · exact .refl h
  · split
    · exact (House.placeAnn_kept ne o h).trans (House.selectPlayer_kept ne _)
    · split
      · exact .refl h
      · exact (House.displaced_kept ne _ h).trans ((House.placeAnn_kept ne o _).trans (House.selectPlayer_kept ne _))

/-- The call of an order of another screen. -/
theorem House.offerCall_kept {h : House} {number : Nat} (elsewhere : ∀ o, h.order? number = some o → o.screen = m) :
    PlayerKept n h (h.offerCall number).1 := by
  unfold House.offerCall
  split
  · exact ⟨rfl, rfl⟩
  · next o cc found _ =>
    have kept := House.offer_kept (h := h) (ne.trans_eq (elsewhere o found).symm)
      { cls := .orderCall, clips := cc.compose number, origin := .order number }
    split
    · next e => rw [e] at kept; exact ⟨kept.queue, kept.player⟩
    · next e => rw [e] at kept; exact ⟨kept.queue, kept.player⟩
  · exact .refl h

theorem House.departureReport_kept (fuel : Nat) {h : House} (fine : h.ordersFine) :
    PlayerKept n h (h.departureReport m fuel) := by
  induction fuel generalizing h with
  | zero => exact .refl h
  | succ fuel ih =>
    unfold House.departureReport
    split
    · exact .refl h
    · next o oldest =>
      obtain ⟨inside, screen, -⟩ := House.oldestWaiting_mem oldest
      have kept := House.offerCall_kept (h := h) (number := o.number) ne fun p found => by
        rw [House.order?_of_mem fine inside] at found
        rw [← Option.some.inj found]
        exact screen
      dsimp only
      split
      · exact kept.trans (ih ((House.offerCall_sound o.number h).ordersFine fine))
      · exact kept

theorem House.depart_kept (a : Ann) (d : Departure) {h : House} (fine : h.ordersFine) :
    PlayerKept n h (h.depart m a d) := by
  have out : PlayerKept n h (h.departed m a d) :=
    ⟨(House.departed_queue m n a d h).trans (if_neg ne), House.departed_player_ne ne a d h⟩
  have fine' : (h.departed m a d).ordersFine := by
    have moved : House.Sound h (h.departed m a d) := .trans (.takeOut m a h) (.trans (.player m _ _)
      (.trans (House.departureNotice_sound m a d _) (House.departureCount_sound a d _)))
    exact moved.ordersFine fine
  exact out.trans ((House.departureReport_kept ne _ fine').trans (House.selectPlayer_kept ne _))

theorem House.settleQueue_kept {h : House} (fine : h.ordersFine) : PlayerKept n h (h.settleQueue m) := by
  unfold House.settleQueue
  generalize Config.queueRoom = fuel
  induction fuel generalizing h with
  | zero => exact .refl h
  | succ fuel ih =>
    unfold House.expireWaits
    split
    · exact .refl h
    · next a _ =>
      exact (House.depart_kept ne a .expired fine).trans (ih ((House.depart_sound m a .expired h).ordersFine fine))

theorem House.wakePlayer_kept {h : House} (fine : h.ordersFine) : PlayerKept n h (h.wakePlayer m) :=
  (House.selectPlayer_kept ne h).trans (House.settleQueue_kept ne ((House.selectPlayer_sound m h).ordersFine fine))

theorem House.startClip_kept (h : House) : PlayerKept n h (h.startClip m) := by
  have moved : PlayerKept n h (h.onPlayer m fun p => { p with state := .playing, sample := 0, gapLeft := 0 }) :=
    ⟨rfl, House.onPlayer_player_ne m n _ h ne⟩
  unfold House.startClip
  extract_lets h1
  split
  · split
    · refine moved.trans ⟨?_, House.beginAnn_player ..⟩
      unfold House.beginAnn House.callStarted House.orderStateNotice
      repeat' split
      all_goals rfl
    · exact moved
  · exact moved

end Other

/-! ### Publishing a phase, and the end of STOPPING -/

theorem House.releaseOn_kept (n : Screen) (screens : List Screen) (h : House) : PlayerKept n h (h.releaseOn screens) := by
  rw [House.releaseOn_rest]
  exact ⟨rfl, rfl⟩

/-- Of queues and players, publishing a phase only wakes the screen's own (R23, R87). -/
theorem House.publish_wakes (n m : Screen) (old : Phase) (h : House) :
    PlayerKept n h (h.publish m old) ∨ PlayerKept n (h.wakePlayer m) (h.publish m old) := by
  unfold House.publish House.phaseChanged House.refreshAdmission
  split
  · exact .inl (.refl h)
  · refine .inr ((House.releaseOn_kept n [m] _).trans ⟨?_, ?_⟩)
    · exact House.onLot_queue ..
    · exact House.onLot_player ..

theorem House.emptySlot_playerKept (n m : Screen) (h : House) : PlayerKept n h (h.emptySlot m) := by
  unfold House.emptySlot
  dsimp only
  split
  · rw [House.dropRefs_eq]
    exact ⟨rfl, rfl⟩
  · exact ⟨rfl, rfl⟩

theorem House.stoppingCheck_wakes (n m : Screen) (h : House) : ∃ g, House.Stage h g ∧ PlayerKept n h g
    ∧ (PlayerKept n g (h.stoppingCheck m) ∨ PlayerKept n (g.wakePlayer m) (h.stoppingCheck m)) := by
  unfold House.stoppingCheck
  extract_lets c old h1 h2
  split
  · refine ⟨h2.refreshCountdown m, ?_, ?_, House.publish_wakes ..⟩
    · have told : House.Stage h h1 := .sound (.notify ..)
      refine .trans (told.trans ?_) (House.refreshCountdown_stage m h2)
      unfold h2
      split
      · exact .trans (House.emptySlot_stage ..) (.ctl ..)
      · exact .ctl ..
    · have told : PlayerKept n h h1 := ⟨rfl, rfl⟩
      refine told.trans ?_
      unfold h2
      split
      · exact (House.emptySlot_playerKept n m h1).trans ⟨rfl, rfl⟩
      · exact ⟨rfl, rfl⟩
  · exact ⟨h, .refl h, .refl h, .inl (.refl h)⟩

theorem House.stoppingCheck_kept {n m : Screen} (ne : n ≠ m) {h : House} (fine : h.ordersFine) :
    PlayerKept n h (h.stoppingCheck m) := by
  obtain ⟨g, stage, kept, same | woken⟩ := House.stoppingCheck_wakes n m h
  · exact kept.trans same
  · exact kept.trans ((House.wakePlayer_kept ne (stage.ordersFine fine)).trans woken)

/-! ### The gain reports (R58) -/

/-- The gain reports to the player of a screen: a DUCKING player plays (R87), a RELEASE player goes IDLE (R90). -/
def House.playerReports (n : Screen) (target : Nat) (h : House) : House :=
  if (h.player n).state = .ducking ∧ (h.gain n).gp ≤ (h.row n).duck then (h.startClip n).settleQueue n
  else if (h.player n).state = .release ∧ (h.gain n).gp = target then (h.onPlayer n fun _ => .quiet).wakePlayer n
  else h

theorem House.gainReports_eq (n : Screen) (target : Nat) (h : House) : h.gainReports n target =
    if (h.gain n).gp = 0 ∧ (h.playerReports n target).fade n then (h.playerReports n target).stoppingCheck n
    else h.playerReports n target := rfl

theorem House.playerReports_sound (n : Screen) (target : Nat) (h : House) : House.Sound h (h.playerReports n target) := by
  unfold House.playerReports
  split_ifs
  · exact .trans (House.startClip_sound ..) (House.settleQueue_sound ..)
  · exact .trans (.player ..) (House.wakePlayer_sound ..)
  · exact .refl h

theorem House.playerReports_kept {n m : Screen} (ne : n ≠ m) (target : Nat) {h : House} (fine : h.ordersFine) :
    PlayerKept n h (h.playerReports m target) := by
  unfold House.playerReports
  split_ifs
  · exact (House.startClip_kept ne h).trans
      (House.settleQueue_kept ne ((House.startClip_sound m h).ordersFine fine))
  · have quiet : PlayerKept n h (h.onPlayer m fun _ => .quiet) := ⟨rfl, House.onPlayer_player_ne m n _ h ne⟩
    exact quiet.trans (House.wakePlayer_kept ne (House.ordersFine_congr (a := h) rfl rfl fine))
  · exact .refl h

theorem House.gainReports_kept {n m : Screen} (ne : n ≠ m) (target : Nat) {h : House} (fine : h.ordersFine) :
    PlayerKept n h (h.gainReports m target) := by
  rw [House.gainReports_eq]
  have kept := House.playerReports_kept ne target fine
  split_ifs
  · exact kept.trans (House.stoppingCheck_kept ne ((House.playerReports_sound m target h).ordersFine fine))
  · exact kept

end Machine
end Sys2Proof
end


-- ==== Sys2Proof/Proofs/BlockStarts.lean ====
section
/-! A block start (sections 3.1, 3.4, 3.6 and 4.4): what is staged comes into force, the gains move, and the players and
the Show Controller hear of it. -/

set_option autoImplicit false

namespace Sys2Proof
namespace Machine

open House (PlayerKept)

/-! ### The reset of a channel pair (R66, R91) -/

/-- A staged reset that clears the screen's queue and player: a SCREEN RESET, joined by a SITE RESET or not. -/
abbrev clearsPlayer (r : Option StagedReset) : Prop := r = some .screen ∨ r = some .both

theorem House.foldl_dropRefs_rest (l : List Ann) (h : House) : l.foldl (fun h a => h.dropRefs a.clips) h =
    { h with clips := (l.foldl (fun h a => h.dropRefs a.clips) h).clips } := by
  induction l generalizing h with
  | nil => rfl
  | cons a rest ih => rw [List.foldl_cons, ih, House.dropRefs_eq]

theorem House.clearQueue_rest (n : Screen) (h : House) : h.clearQueue n = { h with
    clips := (h.clearQueue n).clips, queues := tset h.queues n [], players := tset h.players n .quiet } := by
  unfold House.clearQueue
  rw [House.foldl_dropRefs_rest]
  rfl

theorem House.startBlockReset_rest (n : Screen) (r : Option StagedReset) (h : House) : h.startBlockReset n r = { h with
    clips := (h.startBlockReset n r).clips, queues := (h.startBlockReset n r).queues
    players := (h.startBlockReset n r).players, gains := (h.startBlockReset n r).gains
    orders := (h.startBlockReset n r).orders } := by
  unfold House.startBlockReset
  split
  · rw [House.clearQueue_rest]; rfl
  · rw [House.clearQueue_rest]; rfl
  · rfl
  · rfl

theorem House.startBlockReset_clears {n : Screen} {r : Option StagedReset} (clears : clearsPlayer r) (h : House) :
    h.startBlockReset n r = ((h.onGain n fun _ => .reset).clearQueue n).rescheduleCalls n := by
  rcases clears with rfl | rfl
  · rfl
  · rfl

theorem House.startBlockReset_keeps {n : Screen} {r : Option StagedReset} (keeps : ¬ clearsPlayer r) (h : House) :
    h.startBlockReset n r = if r.isSome then h.onGain n fun _ => .reset else h := by
  match r, keeps with
  | none, _ => rfl
  | some .site, _ => rfl
  | some .screen, keeps => exact absurd (.inl rfl) keeps
  | some .both, keeps => exact absurd (.inr rfl) keeps

theorem House.startBlockReset_empties {n : Screen} {r : Option StagedReset} (clears : clearsPlayer r) (h : House) :
    (h.startBlockReset n r).queue n = [] ∧ (h.startBlockReset n r).player n = .quiet := by
  rw [House.startBlockReset_clears clears, House.clearQueue_rest]
  exact ⟨tget_tset_self .., tget_tset_self ..⟩

theorem House.startBlockReset_gain (n : Screen) (r : Option StagedReset) (h : House) :
    (h.startBlockReset n r).gain n = if r.isSome then .reset else h.gain n := by
  by_cases clears : clearsPlayer r
  · have some : r.isSome = true := by rcases clears with rfl | rfl <;> rfl
    rw [House.startBlockReset_clears clears, House.clearQueue_rest, if_pos some]
    exact House.onGain_gain ..
  · rw [House.startBlockReset_keeps clears]
    split_ifs
    · exact House.onGain_gain ..
    · rfl

theorem House.startBlockReset_ordersFine (n : Screen) (r : Option StagedReset) {h : House} (fine : h.ordersFine) :
    (h.startBlockReset n r).ordersFine := by
  by_cases clears : clearsPlayer r
  · rw [House.startBlockReset_clears clears]
    refine (House.rescheduleCalls_sound n _).ordersFine ?_
    rw [House.clearQueue_rest]
    exact fine
  · rw [House.startBlockReset_keeps clears]
    split_ifs
    · exact fine
    · exact fine

theorem House.startBlockReset_kept {n m : Screen} (ne : n ≠ m) (r : Option StagedReset) (h : House) :
    PlayerKept n h (h.startBlockReset m r) := by
  by_cases clears : clearsPlayer r
  · rw [House.startBlockReset_clears clears, House.clearQueue_rest]
    exact ⟨tget_tset_ne _ _ _ _ ne, tget_tset_ne _ _ _ _ ne⟩
  · rw [House.startBlockReset_keeps clears]
    split_ifs
    · exact ⟨rfl, rfl⟩
    · exact .refl h

theorem House.startBlockReset_apart (n m : Screen) [Fact (m ≠ n)] (r : Option StagedReset) (h : House) :
    House.Apart n h (h.startBlockReset m r) := by
  have gain : House.Apart n h (h.onGain m fun _ => .reset) := .gain ..
  by_cases clears : clearsPlayer r
  · rw [House.startBlockReset_clears clears, House.clearQueue_rest]
    exact gain.trans ⟨rfl, rfl, rfl⟩
  · rw [House.startBlockReset_keeps clears]
    split_ifs
    · exact gain
    · exact .refl h

theorem House.startBlockReset_settings (n : Screen) (r : Option StagedReset) (h : House) :
    (h.startBlockReset n r).settingsKept h := by
  rw [House.startBlockReset_rest]
  exact ⟨rfl, rfl, rfl, rfl, rfl, rfl, rfl, rfl, rfl, rfl, rfl, rfl, rfl⟩

/-! ### The gain reports (R58) -/

theorem House.stoppingCheck_gain (n m : Screen) (h : House) : (h.stoppingCheck n).gain m = h.gain m := by
  unfold House.stoppingCheck
  extract_lets c old h1 h2
  split
  · rw [House.publish_gain, House.refreshCountdown_gain]
    unfold h2
    split
    · rw [House.onCtl_gain, House.emptySlot_gain]
      rfl
    · rfl
  · rfl

theorem House.gainReports_gain (n m : Screen) (target : Nat) (h : House) : (h.gainReports n target).gain m = h.gain m := by
  have sound := (House.playerReports_sound n target h).gain m
  rw [House.gainReports_eq]
  split_ifs
  · rw [House.stoppingCheck_gain, sound]
  · exact sound

theorem House.wakePlayer_busy {n : Screen} {h : House} (busy : (h.player n).busy) : (h.wakePlayer n).player n = h.player n := by
  unfold House.wakePlayer
  rw [House.selectPlayer_busy busy]
  exact House.expireWaits_player_busy busy _

/-- The end of STOPPING does not stop a player inside an announcement. -/
theorem House.stoppingCheck_busy {n : Screen} {h : House} (busy : (h.player n).busy) :
    (h.stoppingCheck n).player n = h.player n := by
  obtain ⟨g, -, kept, same | woken⟩ := House.stoppingCheck_wakes n n h
  · exact (kept.trans same).player
  · rw [woken.player, House.wakePlayer_busy (by rw [kept.player]; exact busy), kept.player]

/-- A DUCKING player whose gain has come down to the duck gain plays (R87). -/
theorem House.gainReports_plays {n : Screen} {h : House} (ducking : (h.player n).state = .ducking)
    (ducked : (h.gain n).gp ≤ (h.row n).duck) (target : Nat) :
    ((h.gainReports n target).player n).state = .playing ∧ ((h.gainReports n target).player n).sample = 0 := by
  have started := House.startClip_player n h
  have plays : (h.playerReports n target).player n = { h.player n with state := .playing, sample := 0, gapLeft := 0 } := by
    unfold House.playerReports
    rw [if_pos ⟨ducking, ducked⟩]
    exact (House.expireWaits_player_busy (.inl (by rw [started])) _).trans started
  have whole : (h.gainReports n target).player n = (h.playerReports n target).player n := by
    rw [House.gainReports_eq]
    split_ifs
    · exact House.stoppingCheck_busy (.inl (by rw [plays]))
    · rfl
  rw [whole, plays]
  exact ⟨rfl, rfl⟩

/-- A player with nothing eligible in its queue, and whose wait nobody's is over, goes on as it is when it is woken in IDLE. -/
theorem House.wakePlayer_quiet {n : Screen} {h : House} (quiet : h.player n = .quiet) (none : h.firstEligible n = none)
    (nobody : h.nobodyExpires n) : h.wakePlayer n = h := by
  have idle : h.selectPlayer n = h := by
    unfold House.selectPlayer
    rw [quiet, none]
    rfl
  unfold House.wakePlayer
  rw [idle, House.settleQueue_of_nobody nobody]

/-- A RELEASE player at its target goes IDLE (R90). -/
theorem House.gainReports_idles {n : Screen} {h : House} {target : Nat} (release : (h.player n).state = .release)
    (there : (h.gain n).gp = target) (none : h.firstEligible n = none) (nobody : h.nobodyExpires n)
    (running : (h.ctl n).state ≠ .stopping) : (h.gainReports n target).player n = .quiet := by
  have idles : h.playerReports n target = h.onPlayer n fun _ => .quiet := by
    unfold House.playerReports
    rw [if_neg (by rw [release]; exact fun wrong => nomatch wrong.1), if_pos ⟨release, there⟩]
    exact House.wakePlayer_quiet (House.onPlayer_player ..) none nobody
  have goesOn : (h.onPlayer n fun _ => .quiet).stoppingCheck n = h.onPlayer n fun _ => .quiet :=
    if_neg fun wrong => running wrong.1
  rw [House.gainReports_eq, idles, goesOn, ite_self]
  exact House.onPlayer_player ..

/-- A cleared queue and player stay so. -/
theorem House.gainReports_empty {n : Screen} {h : House} (empty : h.queue n = []) (quiet : h.player n = .quiet)
    (target : Nat) : (h.gainReports n target).queue n = [] ∧ (h.gainReports n target).player n = .quiet := by
  have idle : (h.player n).state = .idle := by rw [quiet]; rfl
  have same : h.playerReports n target = h := by
    unfold House.playerReports
    rw [idle, if_neg fun wrong => PlayerState.noConfusion wrong.1, if_neg fun wrong => PlayerState.noConfusion wrong.1]
  have checked : PlayerKept n h (h.stoppingCheck n) := by
    obtain ⟨g, -, kept, still | woken⟩ := House.stoppingCheck_wakes n n h
    · exact kept.trans still
    · have empty' := kept.queue.trans empty
      have none : g.firstEligible n = none := by
        unfold House.firstEligible
        rw [empty']
        rfl
      rw [House.wakePlayer_quiet (kept.player.trans quiet) none fun a m => by rw [empty'] at m; cases m] at woken
      exact kept.trans woken
  rw [House.gainReports_eq, same]
  split_ifs
  · exact ⟨checked.queue.trans empty, checked.player.trans quiet⟩
  · exact ⟨empty, quiet⟩

/-- STOPPING whose H has ended ends at gain 0 (R19, R20). -/
theorem House.gainReports_stops {n : Screen} {h : House} (state : (h.ctl n).state = .stopping)
    (ended : (h.ctl n).stopHaltEnded = true) (silent : (h.gain n).gp = 0) (target : Nat) :
    ((h.gainReports n target).ctl n).state = if (h.ctl n).stopAbort then .idle else .held := by
  have sound := House.playerReports_sound n target h
  have ctl := sound.ctl n
  have fades : (h.playerReports n target).fade n = true := by
    unfold House.fade
    rw [ctl, state]
  rw [House.gainReports_eq, if_pos ⟨silent, fades⟩, (House.stoppingCheck_ends (by rw [ctl]; exact state)
    (by rw [ctl]; exact ended) (by rw [sound.gain n]; exact silent)).1, ctl]

theorem House.playerReports_apart (n m : Screen) (target : Nat) (h : House) :
    House.Apart n h (h.playerReports m target) := .sound (House.playerReports_sound ..)

theorem House.gainReports_apart (n m : Screen) [Fact (m ≠ n)] (target : Nat) (h : House) :
    House.Apart n h (h.gainReports m target) := by
  rw [House.gainReports_eq]
  split_ifs
  · exact (House.playerReports_apart ..).trans (House.stoppingCheck_apart ..)
  · exact House.playerReports_apart ..

/-! ### The gains of a screen move (R56, R57) -/

theorem moveGain_cases (gp target step : Nat) :
    if gp ≤ target + step ∧ target ≤ gp + step then moveGain gp target step = target
    else if target < gp then moveGain gp target step = gp - step else moveGain gp target step = gp + step := by
  unfold moveGain
  split_ifs <;> omega

/-- The target and step of a screen's block, once a reset has taken effect (R56). -/
def House.blockTarget (h : House) (n : Screen) (r : Option StagedReset) (m : MixSettings) : Nat × Nat :=
  (h.startBlockReset n r).gainTarget n m

/-- The house once a reset has taken effect on a screen and its gain has moved (R57, R66). -/
def House.gainMoved (n : Screen) (r : Option StagedReset) (m : MixSettings) (h : House) : House :=
  (h.startBlockReset n r).onGain n fun g =>
    { g with gp := moveGain g.gp (h.blockTarget n r m).1 (h.blockTarget n r m).2 }

theorem State.startScreen_house (s : State) (n : Screen) : (s.startScreen n).house =
    (s.house.gainMoved n (s.channel n).stagedReset (s.channel n).startBlock.settings).gainReports n
      (s.house.blockTarget n (s.channel n).stagedReset (s.channel n).startBlock.settings).1 := rfl

section Moved
variable (n : Screen) (r : Option StagedReset) (m : MixSettings) (h : House)

theorem House.blockTarget_fades (fades : h.fade n = true) : h.blockTarget n r m = (0, m.fade) := by
  have same : (h.startBlockReset n r).fade n = h.fade n := by
    rw [House.startBlockReset_rest]
    rfl
  unfold House.blockTarget House.gainTarget
  rw [same, if_pos fades]

theorem House.blockTarget_ducked (sounds : h.fade n = false) (ducked : (h.player n).state.ducked = true)
    (keeps : ¬ clearsPlayer r) : h.blockTarget n r m = ((h.row n).duck, m.duck) := by
  have same : h.blockTarget n r m = h.gainTarget n m := by
    unfold House.blockTarget
    rw [House.startBlockReset_keeps keeps]
    split_ifs
    · rfl
    · rfl
  rw [same, House.gainTarget, if_neg (by rw [sounds]; exact Bool.false_ne_true), if_pos ducked]

theorem House.blockTarget_releases (sounds : h.fade n = false)
    (free : ¬ ((h.player n).state.ducked = true ∧ ¬ clearsPlayer r)) : h.blockTarget n r m = (32768, m.release) := by
  have same : (h.startBlockReset n r).fade n = h.fade n := by
    rw [House.startBlockReset_rest]
    rfl
  have free' : ((h.startBlockReset n r).player n).state.ducked = false := by
    by_cases clears : clearsPlayer r
    · rw [(House.startBlockReset_empties clears h).2]
      rfl
    · have player : (h.startBlockReset n r).player n = h.player n := by
        rw [House.startBlockReset_keeps clears]
        split_ifs
        · rfl
        · rfl
      rw [player]
      exact Bool.eq_false_iff.2 fun ducked => free ⟨ducked, clears⟩
  unfold House.blockTarget House.gainTarget
  rw [same, if_neg (by rw [sounds]; exact Bool.false_ne_true), if_neg (by rw [free']; exact Bool.false_ne_true)]

theorem House.gainMoved_ctl : (h.gainMoved n r m).ctl n = h.ctl n := by
  unfold House.gainMoved
  rw [House.startBlockReset_rest]
  rfl

theorem House.gainMoved_row : (h.gainMoved n r m).row n = h.row n := by
  unfold House.gainMoved
  rw [House.startBlockReset_rest]
  rfl

theorem House.gainMoved_settings : (h.gainMoved n r m).settingsKept h := by
  obtain ⟨mask, cues, policy, maxLaneHold, lateLimit, callClips, classes, gap, routes, nextNumber, nextSequence, orderPolicy,
    items⟩ := House.startBlockReset_settings n r h
  exact ⟨mask, cues, policy, maxLaneHold, lateLimit, callClips, classes, gap, routes, nextNumber, nextSequence, orderPolicy,
    items⟩

theorem House.gainMoved_gain : (h.gainMoved n r m).gain n = { (if r.isSome then .reset else h.gain n : Gain) with
    gp := moveGain (if r.isSome then 32768 else (h.gain n).gp) (h.blockTarget n r m).1 (h.blockTarget n r m).2 } := by
  unfold House.gainMoved
  rw [House.onGain_gain, House.startBlockReset_gain]
  split_ifs
  · rfl
  · rfl

theorem House.gainMoved_of_reset : PlayerKept n (h.startBlockReset n r) (h.gainMoved n r m) := by
  unfold House.gainMoved
  exact ⟨House.onGain_queue .., House.onGain_player ..⟩

theorem House.gainMoved_kept (keeps : ¬ clearsPlayer r) : PlayerKept n h (h.gainMoved n r m) := by
  unfold House.gainMoved
  generalize h.blockTarget n r m = t
  rw [House.startBlockReset_keeps keeps]
  split_ifs
  · exact ⟨rfl, rfl⟩
  · exact ⟨rfl, rfl⟩

theorem House.gainMoved_ordersFine (fine : h.ordersFine) : (h.gainMoved n r m).ordersFine :=
  House.startBlockReset_ordersFine n r fine

end Moved

/-! ### One screen after another (log entry 35) -/

/-- What a block start of a screen keeps of another one. -/
structure State.StartKept (n : Screen) (s t : State) : Prop where
  apart : House.Apart n s.house t.house
  settings : t.house.settingsKept s.house
  channel : t.channel n = s.channel n
  player : s.house.ordersFine → PlayerKept n s.house t.house
  fine : s.house.ordersFine → t.house.ordersFine

theorem State.StartKept.refl (n : Screen) (s : State) : State.StartKept n s s :=
  ⟨.refl _, .refl _, rfl, fun _ => .refl _, id⟩

theorem State.StartKept.trans {n : Screen} {a b c : State} (x : State.StartKept n a b) (y : State.StartKept n b c) :
    State.StartKept n a c :=
  ⟨x.apart.trans y.apart, y.settings.trans x.settings, y.channel.trans x.channel,
    fun fine => (x.player fine).trans (y.player (x.fine fine)), fun fine => y.fine (x.fine fine)⟩

theorem State.startScreen_settings (s : State) (n : Screen) : (s.startScreen n).house.settingsKept s.house := by
  rw [State.startScreen_house]
  exact (House.gainReports_stage ..).kept.settings.trans (House.gainMoved_settings ..)

theorem State.startScreen_fine {s : State} (n : Screen) (fine : s.house.ordersFine) : (s.startScreen n).house.ordersFine := by
  rw [State.startScreen_house]
  exact (House.gainReports_stage ..).ordersFine (House.gainMoved_ordersFine _ _ _ _ fine)

theorem State.startScreen_others (n m : Screen) (ne : m ≠ n) (s : State) : State.StartKept n s (s.startScreen m) := by
  have : Fact (m ≠ n) := ⟨ne⟩
  refine ⟨?_, s.startScreen_settings m, tget_tmod_ne _ _ _ _ ne.symm, fun fine => ?_, State.startScreen_fine m⟩
  · rw [State.startScreen_house]
    exact (House.startBlockReset_apart ..).trans ((House.Apart.gain ..).trans (House.gainReports_apart ..))
  · rw [State.startScreen_house]
    have reset := House.startBlockReset_kept ne.symm (s.channel m).stagedReset s.house
    have moved : PlayerKept n (s.house.startBlockReset m (s.channel m).stagedReset)
        (s.house.gainMoved m (s.channel m).stagedReset (s.channel m).startBlock.settings) := ⟨rfl, rfl⟩
    exact reset.trans (moved.trans (House.gainReports_kept ne.symm _ (House.gainMoved_ordersFine m _ _ _ fine)))

/-- A block start changes the house, the channel pairs and the free values drawn. -/
theorem State.foldl_startScreen_rest (l : List Screen) (s : State) : l.foldl State.startScreen s =
    { s with house := (l.foldl State.startScreen s).house, channels := (l.foldl State.startScreen s).channels
             draws := (l.foldl State.startScreen s).draws } := by
  induction l generalizing s with
  | nil => rfl
  | cons n rest ih =>
    rw [List.foldl_cons, ih]
    rfl

theorem State.foldl_startScreen_settings (l : List Screen) (s : State) :
    (l.foldl State.startScreen s).house.settingsKept s.house := by
  induction l generalizing s with
  | nil => exact .refl _
  | cons n rest ih => exact (ih _).trans (s.startScreen_settings n)

/-! ### The channel pair (R48, R50, R55, R66) -/

theorem Channel.startBlock_settings (c : Channel) : c.startBlock.settings = c.latest := by
  unfold Channel.startBlock Channel.latest
  rcases c.stagedReset with _ | _ | _ | _ <;> rfl

theorem Channel.startBlock_fresh (c : Channel) : c.startBlock.staged = none ∧ c.startBlock.stagedReset = none
    ∧ c.startBlock.stagedZero = false ∧ c.startBlock.clips = 0 ∧ c.startBlock.peakIn = 0 ∧ c.startBlock.peakOut = 0
    ∧ c.startBlock.tail = none := ⟨rfl, rfl, rfl, rfl, rfl, rfl, rfl⟩

theorem Channel.startBlock_reset {c : Channel} (reset : c.stagedReset.isSome = true) :
    c.startBlock.residueL = 0 ∧ c.startBlock.residueR = 0 ∧ c.startBlock.line = [] ∧ c.startBlock.summary = false
      ∧ c.startBlock.silent = false ∧ c.startBlock.hot = false ∧ c.startBlock.clipped = false
      ∧ c.startBlock.lastClips = 0 := by
  unfold Channel.startBlock
  rcases r : c.stagedReset with _ | _ | _ | _
  · rw [r] at reset
    cases reset
  all_goals exact ⟨rfl, rfl, ite_self [], rfl, rfl, rfl, rfl, rfl⟩

theorem Channel.startBlock_goesOn {c : Channel} (none : c.stagedReset = Option.none) (kept : c.stagedZero = false) :
    c.startBlock.line = c.line ∧ c.startBlock.residueL = c.residueL ∧ c.startBlock.residueR = c.residueR := by
  unfold Channel.startBlock
  rw [none]
  exact ⟨if_neg (by rw [kept]; exact Bool.false_ne_true), rfl, rfl⟩

/-- The level of the class of the announcement that the player holds (R53). -/
theorem House.latchedLevel_held {h : House} {n : Screen} {a : Ann} (held : h.heldAnn n = some a) (draw : Nat) :
    h.latchedLevel n draw = (h.classRow a.cls).level := by
  unfold House.latchedLevel
  rw [held]

theorem State.startScreen_channel (s : State) (n : Screen) : (s.startScreen n).channel n =
    { (s.channel n).startBlock with
      level := (s.house.startBlockReset n (s.channel n).stagedReset).latchedLevel n s.draws
      target := (s.house.blockTarget n (s.channel n).stagedReset (s.channel n).startBlock.settings).1 } :=
  tget_tmod_self ..

/-- What a block start of screen `n` itself comes from, in a walk over all screens: a house that agrees with the first one
in everything the screen's block looks at. -/
theorem State.foldl_startScreen_around (n : Screen) (s : State) : ∃ s1, State.StartKept n s s1
    ∧ State.StartKept n (s1.startScreen n) (allScreens.foldl State.startScreen s) :=
  foldl_around (R := State.StartKept n) (State.StartKept.refl n) State.StartKept.trans
    (fun s m ne => State.startScreen_others n m ne s) allScreens_nodup (mem_allScreens n) s

/-- What a screen's block looks at, seen in a state that a walk over other screens has left. -/
theorem State.StartKept.row {n : Screen} {s t : State} (x : State.StartKept n s t) : t.house.row n = s.house.row n := by
  unfold House.row House.phase House.entry House.cue
  rw [x.apart.show', x.settings.policy, x.settings.cues]

theorem State.StartKept.fade {n : Screen} {s t : State} (x : State.StartKept n s t) : t.house.fade n = s.house.fade n := by
  unfold House.fade House.entry House.cue
  rw [x.apart.show', x.settings.cues]

theorem House.PlayerKept.heldAnn {n : Screen} {h h' : House} (x : PlayerKept n h h') : h'.heldAnn n = h.heldAnn n := by
  unfold House.heldAnn
  rw [x.queue, x.player]

theorem House.PlayerKept.firstEligible {n : Screen} {h h' : House} (x : PlayerKept n h h') (row : h'.row n = h.row n) :
    h'.firstEligible n = h.firstEligible n := by
  unfold House.firstEligible House.eligible
  rw [x.queue, row]

/-! ### The reports of a screen's own block start (R58) -/

section Own
variable {s : State} {n : Screen}

theorem State.startScreen_gain (s : State) (n : Screen) : (s.startScreen n).house.gain n =
    { (if (s.channel n).stagedReset.isSome then .reset else s.house.gain n : Gain) with
      gp := moveGain (if (s.channel n).stagedReset.isSome then 32768 else (s.house.gain n).gp)
        (s.house.blockTarget n (s.channel n).stagedReset (s.channel n).startBlock.settings).1
        (s.house.blockTarget n (s.channel n).stagedReset (s.channel n).startBlock.settings).2 } := by
  rw [State.startScreen_house, House.gainReports_gain, House.gainMoved_gain]

theorem State.startScreen_empties (clears : clearsPlayer (s.channel n).stagedReset) :
    (s.startScreen n).house.queue n = [] ∧ (s.startScreen n).house.player n = .quiet := by
  obtain ⟨empty, quiet⟩ := House.startBlockReset_empties clears s.house
  have moved := House.gainMoved_of_reset n (s.channel n).stagedReset (s.channel n).startBlock.settings s.house
  rw [State.startScreen_house]
  exact House.gainReports_empty (moved.queue.trans empty) (moved.player.trans quiet) _

theorem State.startScreen_level {a : Ann} (held : s.house.heldAnn n = some a) (keeps : ¬ clearsPlayer (s.channel n).stagedReset) :
    ((s.startScreen n).channel n).level = (s.house.classRow a.cls).level := by
  have kept : PlayerKept n s.house (s.house.startBlockReset n (s.channel n).stagedReset) := by
    rw [House.startBlockReset_keeps keeps]
    split_ifs
    · exact ⟨rfl, rfl⟩
    · exact .refl _
  have level := House.latchedLevel_held (kept.heldAnn.trans held) s.draws
  rw [House.classRow_congr (House.startBlockReset_settings n (s.channel n).stagedReset s.house).classes] at level
  rw [State.startScreen_channel]
  exact level

theorem State.startScreen_plays (ducking : (s.house.player n).state = .ducking)
    (keeps : ¬ clearsPlayer (s.channel n).stagedReset) (ducked : ((s.startScreen n).house.gain n).gp ≤ (s.house.row n).duck) :
    ((s.startScreen n).house.player n).state = .playing ∧ ((s.startScreen n).house.player n).sample = 0 := by
  rw [State.startScreen_house, House.gainReports_gain] at ducked
  rw [State.startScreen_house]
  refine House.gainReports_plays ?_ ?_ _
  · rw [(House.gainMoved_kept n _ _ s.house keeps).player]
    exact ducking
  · rw [House.gainMoved_row]
    exact ducked

theorem State.startScreen_idles (release : (s.house.player n).state = .release) (none : s.house.firstEligible n = none)
    (nobody : s.house.nobodyExpires n) (running : (s.house.ctl n).state ≠ .stopping)
    (there : ((s.startScreen n).house.gain n).gp = ((s.startScreen n).channel n).target) :
    (s.startScreen n).house.player n = .quiet := by
  by_cases clears : clearsPlayer (s.channel n).stagedReset
  · exact (State.startScreen_empties clears).2
  · have kept := House.gainMoved_kept n (s.channel n).stagedReset (s.channel n).startBlock.settings s.house clears
    rw [State.startScreen_house, House.gainReports_gain, State.startScreen_channel] at there
    rw [State.startScreen_house]
    refine House.gainReports_idles ?_ there ?_ ?_ ?_
    · rw [kept.player]
      exact release
    · rw [kept.firstEligible (House.gainMoved_row ..)]
      exact none
    · exact House.nobodyExpires_congr kept.queue (House.gainMoved_settings ..).classes nobody
    · rw [House.gainMoved_ctl]
      exact running

theorem State.startScreen_stops (state : (s.house.ctl n).state = .stopping) (ended : (s.house.ctl n).stopHaltEnded = true)
    (silent : ((s.startScreen n).house.gain n).gp = 0) :
    ((s.startScreen n).house.ctl n).state = if (s.house.ctl n).stopAbort then .idle else .held := by
  rw [State.startScreen_house, House.gainReports_gain] at silent
  have ctl := House.gainMoved_ctl n (s.channel n).stagedReset (s.channel n).startBlock.settings s.house
  rw [State.startScreen_house, House.gainReports_stops (by rw [ctl]; exact state) (by rw [ctl]; exact ended) silent, ctl]

end Own

theorem State.blockStart_rest (s : State) : s.blockStart = { s with
    units := s.latestUnits, stagedUnits := none, monitor := s.stagedMonitor.getD s.monitor, stagedMonitor := none
    house := s.blockStart.house, channels := s.blockStart.channels, draws := s.blockStart.draws } :=
  State.foldl_startScreen_rest allScreens s.startSite

/-- Settles O37. -/
theorem blockStartMovesGains : Obligations.BlockStartMovesGains := by
  intro s
  have rest := s.blockStart_rest
  refine ⟨s.blockStart, rfl, (congrArg State.units rest :), (congrArg State.stagedUnits rest :),
    (congrArg State.monitor rest :), (congrArg State.stagedMonitor rest :), (congrArg State.dram rest :),
    (congrArg State.link rest :), (congrArg State.lanes rest :), (congrArg State.exits rest :),
    (congrArg State.present rest :), (congrArg State.mon rest :), (congrArg State.pending rest :),
    State.foldl_startScreen_settings allScreens s.startSite, fun n => ?_⟩
  obtain ⟨s1, before, after⟩ := State.foldl_startScreen_around n s.startSite
  change State.StartKept n (s1.startScreen n) s.blockStart at after
  generalize s.blockStart = t at after
  have channel : s1.channel n = s.channel n := before.channel
  have ctl : s1.house.ctl n = s.house.ctl n := before.apart.show'
  have row : s1.house.row n = s.house.row n := before.row
  have fade : s1.house.fade n = s.house.fade n := before.fade
  have own : s1.house.gain n = s.house.gain n := before.apart.gain'
  have gain := after.apart.gain'
  have gains := State.startScreen_gain s1 n
  have pair := State.startScreen_channel s1 n
  rw [channel] at gains pair
  rw [own] at gains
  rw [after.channel]
  intro x y g
  have target : y.target = (s1.house.blockTarget n x.stagedReset x.startBlock.settings).1 := by unfold y; rw [pair]
  have settings : y.settings = x.latest := by unfold y; rw [pair]; exact x.startBlock_settings
  refine ⟨settings, ?_, ?_, ?_, ?_, ?_, ?_, ?_, fun reset => ?_, fun none kept => ?_, fun fine => ⟨fun clears => ?_, ?_⟩⟩
  iterate 7 (unfold y; rw [pair]; rfl)
  · obtain ⟨left, right, line, summary, silent, hot, clipped, last⟩ := Channel.startBlock_reset reset
    unfold y
    rw [gain, gains, pair, if_pos reset]
    exact ⟨left, right, line, summary, silent, hot, clipped, last, rfl⟩
  · unfold y
    rw [pair]
    exact Channel.startBlock_goesOn none kept
  · obtain ⟨empty, quiet⟩ := State.startScreen_empties (s := s1) (n := n) (by rw [channel]; exact clears)
    have last := after.player (State.startScreen_fine n (before.fine fine))
    exact ⟨last.queue.trans empty, last.player.trans quiet⟩
  have first : PlayerKept n s.house s1.house := before.player fine
  have last := after.player (State.startScreen_fine n (before.fine fine))
  have keeps : x.stagedReset ≠ some .screen → x.stagedReset ≠ some .both → ¬ clearsPlayer (s1.channel n).stagedReset :=
    fun screen both clears => by
      rw [channel] at clears
      exact clears.elim screen both
  refine ⟨(s1.house.blockTarget n x.stagedReset x.startBlock.settings).2, ?_, ?_, fun a held screen both => ?_,
    fun ducking screen both ducked => ?_, fun release none nobody running there => ?_, fun state ended silent => ?_⟩
  · rw [target, settings, ← x.startBlock_settings]
    split_ifs with fades ducked
    · rw [House.blockTarget_fades n x.stagedReset x.startBlock.settings s1.house (fade.trans fades)]
      exact ⟨rfl, rfl⟩
    · obtain ⟨ducked, screen, both⟩ := ducked
      rw [House.blockTarget_ducked n x.stagedReset x.startBlock.settings s1.house
        (fade.trans (Bool.eq_false_iff.2 fades)) (by rw [first.player]; exact ducked)
        (fun clears => clears.elim screen both), row]
      exact ⟨rfl, rfl⟩
    · rw [House.blockTarget_releases n x.stagedReset x.startBlock.settings s1.house (fade.trans (Bool.eq_false_iff.2 fades))
        fun wrong => ducked ⟨by rw [← first.player]; exact wrong.1, fun e => wrong.2 (.inl e), fun e => wrong.2 (.inr e)⟩]
      exact ⟨rfl, rfl⟩
  · have moved : (t.house.gain n).gp = moveGain g (s1.house.blockTarget n x.stagedReset x.startBlock.settings).1
        (s1.house.blockTarget n x.stagedReset x.startBlock.settings).2 := by rw [gain, gains]
    rw [moved, target]
    exact moveGain_cases ..
  · have level := State.startScreen_level (first.heldAnn.trans held) (keeps screen both)
    rw [House.classRow_congr before.settings.classes] at level
    exact level
  · rw [last.player]
    rw [gain, ← row] at ducked
    exact State.startScreen_plays (by rw [first.player]; exact ducking) (keeps screen both) ducked
  · rw [last.player]
    rw [gain] at there
    exact State.startScreen_idles (by rw [first.player]; exact release) ((first.firstEligible row).trans none)
      (House.nobodyExpires_congr first.queue before.settings.classes nobody) (by rw [ctl]; exact running) there
  · rw [gain] at silent
    rw [after.apart.show', State.startScreen_stops (by rw [ctl]; exact state) (by rw [ctl]; exact ended) silent, ctl]

end Machine
end Sys2Proof
end
